-- ==== Sys2Proof/Word.lean ====
section
/-! DEFINITION. The word types of the module (R7: all multi-byte values are little-endian; a register is 32 bits, a
record value 64 bits, an entry stamp 16 bits). -/
namespace Sys2Proof

/-- A register word. -/
abbrev Word := BitVec 32
/-- A 64-bit value: a point VALUE or TIME, a 64-bit accumulator, a time base. -/
abbrev Dword := BitVec 64
/-- A byte. -/
abbrev Byte := BitVec 8
/-- An entry stamp (R73): class [15:12], tenant [11:6], port index [5:0]. -/
abbrev Stamp := BitVec 16

end Sys2Proof
end

