-- ==== Sys2Proof/Syntax.lean ====
section
/-! DEFINITION. The commands of the block: one constructor of Instr for each row of the table of operations and events,
with what the row's command carries in from outside. -/
namespace Sys2Proof

/-- The two core dies (R13). -/
inductive HalfId where
  | a
  | b
  deriving DecidableEq, Repr

/-- Who makes a register access (R52, Table 3.1): a policy core, the MGT port, or the IPP engine for a request that
carries an entry stamp. -/
inductive Req where
  | core (c : Fin 4)
  | mgt
  | ipp (stamp : Stamp)
  deriving DecidableEq, Repr

/-- An access as its requester makes it: an address, a size in bytes, a write or a read. -/
structure Access where
  req   : Req
  addr  : Nat
  size  : Nat
  write : Bool
  value : Dword
  deriving DecidableEq, Repr

/-- An IPP datagram as it arrives (R94), with the port index it arrives on (Table 3.2) and its client. size is the
number of bytes that follow the header in the datagram. -/
structure IppReq where
  port    : Nat
  ip      : BitVec 128
  udp     : Nat
  magic   : Nat
  version : Nat
  op      : Nat
  flags   : Nat
  session : Nat
  seq     : Word
  length  : Nat
  payload : List Byte
  deriving DecidableEq, Repr

/-- A Merzin frame (Table 15.3) with its payload. -/
structure MzFrame where
  dest    : Nat
  src     : Nat
  stream  : Nat
  seq     : Word
  budget  : Nat
  kind    : Nat
  stamp   : Stamp
  flags   : Nat
  payload : List Byte
  deriving DecidableEq, Repr


/-- Frames in the protected identity seen on a shared bus in a check time (R397), by bus bit (R400). -/
structure BusSeen where
  bus : Nat
  n   : Nat
  deriving DecidableEq, Repr

/-- One cycle of a voltage set as the front ends present it: the time in ns between the zero crossings of the fundamental of u_1 that
bound it, 0 where none is found; the time in ns from the first crossing to the first sample; and the conversions of the set's four inputs
and of current channels, 8,000 a second, in nV at the lands (R250, R256). Where none is found it is a piece of 20 ms (R256). -/
structure EnergyCycle where
  ns    : Nat
  lead  : Nat
  volts : List (List Int)
  amps  : List (Nat × List Int)
  deriving DecidableEq, Repr


/-- A CAN frame as a receiver finds it valid (R311): its format, identifier, DLC and data; sof is the time since its start of
frame in ns; arb tells that the controller lost arbitration to it. -/
structure CanFrame where
  ext  : Bool
  fd   : Bool
  brs  : Bool
  esi  : Bool
  rtr  : Bool
  id   : Nat
  dlc  : Nat
  data : List Byte
  sof  : Nat
  arb  : Bool
  deriving DecidableEq, Repr

/-- An error that a CAN controller detects (ISO 11898-1): its code as CAN.LASTERR gives it, 0 for a protocol exception;
whether it lay in the data phase; quiet: no dominant bit was seen during the passive error flag; arbStuff: a stuff error in
arbitration that leaves TEC unchanged; extra: further increments of 8 that the standard prescribes. -/
structure CanError where
  kind      : Nat
  dataPhase : Bool
  quiet     : Bool
  arbStuff  : Bool
  extra     : Nat
  deriving DecidableEq, Repr

/-- An MS/TP frame as an engine receives it (clause 9): whether its stop bits, its header check and its data check hold. -/
structure MstpFrame where
  type     : Nat
  dest     : Nat
  src      : Nat
  data     : List Byte
  framed   : Bool
  headerOk : Bool
  dataOk   : Bool
  deriving DecidableEq, Repr

/-- An OSDP reply as an engine receives it: its PD address, code, sequence number and data, whether its CRC-16 holds, and
whether it is a secure-channel frame. -/
structure OsdpReply where
  addr   : Nat
  code   : Nat
  seq    : Nat
  data   : List Byte
  crcOk  : Bool
  secure : Bool
  deriving DecidableEq, Repr

/-- An ASYNC frame: its bytes, and how many characters had a framing and a parity error. -/
structure AsyncFrame where
  data   : List Byte
  frame  : Nat
  parity : Nat
  deriving DecidableEq, Repr

/-- A DALI backward frame: its value, and whether it had coding violations (R333). -/
structure DaliBackward where
  value   : Byte
  corrupt : Bool
  deriving DecidableEq, Repr

/-- A DALI forward frame of another sender: 16 bits, or 24 where long. -/
structure DaliForward where
  frame : Nat
  long  : Bool
  deriving DecidableEq, Repr

/-- The nineteen Ethernet ports (Table 14.1). -/
inductive EthPort where
  | blda
  | bldb
  | ten (n : Fin 8)
  | fld (n : Fin 8)
  | svc
  deriving DecidableEq, Repr

/-- An Ethernet frame as a MAC receives it: its bytes from the destination address to the last byte before the FCS, whether a
symbol error arose, whether its FCS holds, and whether it ended on a byte boundary. -/
structure EthRx where
  bytes   : List Byte
  symbol  : Bool
  fcsOk   : Bool
  aligned : Bool
  deriving DecidableEq, Repr

/-- What a port's PHY has resolved: 0 for 10, 1 for 100, 2 for 1,000 Mbit/s, and full duplex. -/
structure LinkMode where
  speed : Nat
  full  : Bool
  deriving DecidableEq, Repr

/-- A Merzin frame on a line (R360, R365, R369, R371): its header and payload, the header check, whether it ends with the good delimiter,
the grain tag, the link tag with its first byte lowest, and of its start ordered set the key slot and the 23 bits of the link counter. -/
structure MzRx where
  frame   : MzFrame
  hcheck  : Byte
  ended   : Bool
  grain   : Word
  tag     : BitVec 64
  slot    : Fin 2
  counter : Nat
  deriving DecidableEq, Repr

/-- What the Fallow sampler converts at a wake (R300), by entry: the one conversion of a UIO terminal, in the unit of its mode's measured
quantity, or the 160 samples of an energy input, in nV at the land. -/
structure SamplerInput where
  vals : List (Nat × List Int)
  deriving DecidableEq, Repr

/-- An OD terminal that conducts too much (R291): the drain current is in mA. -/
structure OdTrip where
  term : Fin 256
  ma   : Nat
  deriving DecidableEq, Repr

/-- An output record of one half (R20, R387): its epoch, kind (YOKE.LAST_MISMATCH), whether its target is a port index, the target
and the value driven. -/
structure OutRec where
  epoch  : Nat
  kind   : Nat
  port   : Bool
  target : Nat
  value  : Dword
  deriving DecidableEq, Repr

/-- What the Yoke finds of the two halves' answers to a challenge (R388). -/
structure ChallengeRes where
  passA : Bool
  passB : Bool
  deriving DecidableEq, Repr

/-- The end of a round of a state transfer (R390): how many bytes it leaves to copy. -/
structure XferRound where
  left : Nat
  deriving DecidableEq, Repr

/-- A PTP message as port 1 to 3 receives it (IEEE 1588-2019): messageType, domain, sourcePortIdentity, sequenceId, twoStepFlag,
its instant of arrival in ns TAI, its timestamp field and correction in ns, the port it requests for (Delay_Resp), and an Announce's
grandmaster, stepsRemoved, currentUtcOffset and flags. -/
structure PtpMsg where
  port     : Nat
  type     : Nat
  domain   : Nat
  src      : Nat
  srcPort  : Nat
  seq      : Nat
  twoStep  : Bool
  rx       : Int
  stamp    : Int
  corr     : Int
  reqId    : Nat
  reqPort  : Nat
  gm       : Nat
  prio1    : Nat
  clkClass : Nat
  accuracy : Nat
  variance : Nat
  prio2    : Nat
  steps    : Nat
  utcOff   : Int
  utcValid : Bool
  leap61   : Bool
  leap59   : Bool
  deriving DecidableEq, Repr

/-- A block's answer to a power request (Table 2.8): 1 ACCEPT, 2 DELAY with its ms, 3 REFUSE with its reason. -/
structure PowerAnswer where
  ans   : Nat
  value : Nat
  deriving DecidableEq, Repr

/-- An MGT write transaction (R471) after its CMD byte: LEN as sent, the payload that came, and whether PEC holds. -/
structure MgtReq where
  len     : Nat
  payload : List Byte
  pecOk   : Bool
  deriving DecidableEq, Repr

/-- The junction sensors of the two dies (R515), in 1/16 °C. -/
structure TempSample where
  dieA : List Int
  dieB : List Int
  deriving DecidableEq, Repr

/-- The rails of Table 21.4 (R516), in mV: VCORE of Half A and of Half B, then rails 2 to 7. -/
structure RailSample where
  coreA : Nat
  coreB : Nat
  rails : List Nat
  deriving DecidableEq, Repr

/-- What the scrubber finds in a line (R518, R519): 0 no error, 1 a corrected one, 2 an uncorrectable one, and the first bad symbol. -/
structure ScrubResult where
  kind   : Nat
  symbol : Nat
  deriving DecidableEq, Repr

/-- A slot that fails its verification at a start (R486): 1 a block tag or 2 a signature, and the block. -/
structure BadSlot where
  half  : HalfId
  slot  : Nat
  kind  : Nat
  block : Nat
  deriving DecidableEq, Repr

/-- A retained bank whose signature differs at a wake (R468): its half and number, and the region lost: 0 one with the LPDDR mirror
as its source, 1 Drill code and data, 2 Tiller descriptors and state, 3 CAN objects. -/
structure LostBank where
  half   : HalfId
  bank   : Nat
  region : Nat
  deriving DecidableEq, Repr

/-- What a start finds (R445, R486): whether the cross-link trains, and the slots whose verification fails. -/
structure StartObs where
  xlink : Bool
  bad   : List BadSlot
  deriving DecidableEq, Repr

/-- What a policy core's kzqsel and kzdeleg hold, as its firmware has last written them, at an access to its queue registers, and whether
the core is in supervisor mode (Table 20.1). -/
structure KzCtx where
  sel   : Fin 256
  sup   : Bool
  deleg : Bool
  deriving DecidableEq, Repr


/-- The commands: one constructor for each row of spec/opcode_table.json, in the table's order. A half named h is the
half whose engine or register page acts; r is who writes or reads. -/
inductive Instr where
  /-- REGISTER_WRITE (R50) -/
  | registerWrite (h : HalfId) (r : Req) (addr : Nat) (size : Nat) (value : Dword)
  /-- STAGING_WRITE (R54) -/
  | stagingWrite (h : HalfId) (r : Req) (addr : Nat) (value : Word)
  /-- STAGED_WORD_DISCARD (R54) -/
  | stagedWordDiscard (h : HalfId) (r : Req) (addr : Nat)
  /-- RS_SNAPSHOT_READ (R53) -/
  | rsSnapshotRead (h : HalfId) (r : Req) (addr : Nat) (size : Nat)
  /-- WAKE_ON_ACCESS (R58) -/
  | wakeOnAccess (h : HalfId) (x : Access)
  /-- WAKE_ACCESS_READY (R58) -/
  | wakeAccessReady (h : HalfId) (page : Nat)
  /-- WAKE_TIMEOUT (R58) -/
  | wakeTimeout (h : HalfId) (page : Nat)
  /-- SOFT_RESET (R43) -/
  | softReset (h : HalfId) (r : Req) (page : Nat) (v : Word)
  /-- ERR_CLR (R48) -/
  | errClr (h : HalfId) (r : Req) (page : Nat) (v : Word)
  /-- IRQ_CLEAR (R44) -/
  | irqClear (h : HalfId) (r : Req) (page : Nat) (bits : Word)
  /-- SNAP_TAKE (R49) -/
  | snapTake (h : HalfId) (r : Req) (page : Nat)
  /-- SNAP_RELEASE (R49) -/
  | snapRelease (h : HalfId) (r : Req) (page : Nat)
  /-- PACE_WINDOW_END (R29) -/
  | paceWindowEnd (h : HalfId) (steps : Nat)
  /-- RESTART (R69) -/
  | restart (h : HalfId) (r : Req) (cold : Bool)
  /-- CLR_ACC_STAT (R67) -/
  | clrAccStat (h : HalfId) (r : Req) (mask : BitVec 4)
  /-- CLR_OFFLINE (R67) -/
  | clrOffline (h : HalfId) (r : Req)
  /-- MODULE_ADDR_WRITE (R70) -/
  | moduleAddrWrite (h : HalfId) (r : Req) (v : Word)
  /-- READ_POINT (R95) -/
  | readPoint (q : IppReq)
  /-- WRITE_POINT (R96) -/
  | writePoint (q : IppReq)
  /-- SUBSCRIBE (R128) -/
  | subscribe (q : IppReq)
  /-- UNSUBSCRIBE (R129) -/
  | unsubscribe (q : IppReq)
  /-- READ_PAGE (R97) -/
  | readPage (q : IppReq)
  /-- WRITE_PAGE (R98) -/
  | writePage (q : IppReq)
  /-- IPP_SHEAF (R161) -/
  | ippSheaf (q : IppReq)
  /-- READ_EVENTS (R512) -/
  | readEvents (q : IppReq)
  /-- IPP_FREEZE (R513) -/
  | ippFreeze (q : IppReq)
  /-- IPP_ACTIVATE (R488) -/
  | ippActivate (q : IppReq)
  /-- SESSION_IDLE_TIMEOUT (R93) -/
  | sessionIdleTimeout (n : Fin 512)
  /-- REMOTE_TIMEOUT (R99) -/
  | remoteTimeout (n : Nat)
  /-- TEN_BIND_WRITE (R80) -/
  | tenBindWrite (h : HalfId) (r : Req) (n : Fin 8) (v : Word)
  /-- SESS_CLOSE (R93) -/
  | sessClose (h : HalfId) (r : Req) (v : Word)
  /-- FLUSH_TENANT (R93) -/
  | flushTenant (h : HalfId) (r : Req) (v : Word)
  /-- FENCE_CLR (R105) -/
  | fenceClr (h : HalfId) (r : Req) (v : Word)
  /-- PORTS_CLR (R107) -/
  | portsClr (h : HalfId) (r : Req) (v : Word)
  /-- PTAB_WRITE_SUBMIT (R124) -/
  | ptabWriteSubmit (h : HalfId) (r : Req) (v : Word)
  /-- POINT_WRITE_APPLY (R125) -/
  | pointWriteApply (h : HalfId)
  /-- REPEAT_INTERVAL_END (R125) -/
  | repeatIntervalEnd (h : HalfId) (b : Nat)
  /-- NOTIFY_INTERVAL_END (R128) -/
  | notifyIntervalEnd (h : HalfId) (e : Nat)
  /-- COV_EN_WRITE (R128) -/
  | covEnWrite (h : HalfId) (r : Req) (v : Word)
  /-- SOURCE_STALE (R131) -/
  | sourceStale (h : HalfId) (b : Nat)
  /-- CONFIGURE (R134) -/
  | configure (h : HalfId) (r : Req)
  /-- DECONFIGURE (R134) -/
  | deconfigure (h : HalfId) (r : Req)
  /-- RELINQUISH_ALL (R134) -/
  | relinquishAll (h : HalfId) (r : Req)
  /-- PTAB_CFG_WRITE (R134) -/
  | ptabCfgWrite (h : HalfId) (r : Req) (v : Word)
  /-- PTAB_COV_WRITE (R134) -/
  | ptabCovWrite (h : HalfId) (r : Req) (v : Word)
  /-- BINDING_COMMIT (R132) -/
  | bindingCommit (h : HalfId) (r : Req) (v : Word)
  /-- PTAB_CLR (R136) -/
  | ptabClr (h : HalfId) (r : Req) (v : Word)
  /-- SHF_OPEN (R140) -/
  | shfOpen (h : HalfId) (r : Req) (v : Word)
  /-- SHEAF_ADD (R141) -/
  | sheafAdd (h : HalfId) (r : Req) (v : Word)
  /-- SHF_COMMIT (R146) -/
  | shfCommit (h : HalfId) (r : Req) (v : Word)
  /-- SHF_ABORT (R145) -/
  | shfAbort (h : HalfId) (r : Req) (v : Word)
  /-- SHEAF_OPEN_TIMEOUT (R143) -/
  | sheafOpenTimeout (h : HalfId) (slot : Fin 32)
  /-- JOURNAL_WAIT_TIMEOUT (R146) -/
  | journalWaitTimeout (h : HalfId) (slot : Fin 32)
  /-- MSG_DEFERRED (R149) -/
  | msgDeferred (h : HalfId) (slot : Fin 32) (act : Nat)
  /-- MZ_PREPARE_RECEIVE (R157) -/
  | mzPrepareReceive (f : MzFrame)
  /-- MZ_VOTE_RECEIVE (R156) -/
  | mzVoteReceive (f : MzFrame)
  /-- SHEAF_DEADLINE (R156) -/
  | sheafDeadline (h : HalfId) (slot : Fin 32)
  /-- MZ_COMMIT_RECEIVE (R157) -/
  | mzCommitReceive (f : MzFrame)
  /-- MZ_ABORT_RECEIVE (R157) -/
  | mzAbortReceive (f : MzFrame)
  /-- MZ_ACK_RECEIVE (R158) -/
  | mzAckReceive (f : MzFrame)
  /-- COMMIT_REPEAT (R158) -/
  | commitRepeat (h : HalfId) (slot : Fin 32)
  /-- COORDINATOR_ORPHAN (R158) -/
  | coordinatorOrphan (h : HalfId) (slot : Fin 32)
  /-- OUTCOME_QUERY (R159) -/
  | outcomeQuery (h : HalfId) (slot : Fin 32)
  /-- MZ_OUTCOME_RECEIVE (R159) -/
  | mzOutcomeReceive (f : MzFrame)
  /-- PARTICIPANT_ORPHANED (R160) -/
  | participantOrphaned (h : HalfId) (slot : Fin 32)
  /-- TASK_RELEASE (R165) -/
  | taskRelease (h : HalfId) (t : Fin 64)
  /-- SAFE_STATE_RETRY (R173) -/
  | safeStateRetry (h : HalfId) (t : Fin 64)
  /-- RESUME (R170) -/
  | resume (h : HalfId) (r : Req)
  /-- STOP (R174) -/
  | stop (h : HalfId) (r : Req) (safe : Bool)
  /-- START (R170) -/
  | start (h : HalfId) (r : Req)
  /-- CLR_STATS (R188) -/
  | clrStats (h : HalfId) (r : Req)
  /-- DRILL_RUN_WRITE (R174) -/
  | drillRunWrite (h : HalfId) (r : Req) (v : Word)
  /-- DRL_CLR (R187) -/
  | drlClr (h : HalfId) (r : Req) (e : Fin 8) (v : Word)
  /-- PROGRAM_SWAP (R182) -/
  | programSwap (h : HalfId) (r : Req) (v : Word)
  /-- SHADOW_VERIFIED (R182) -/
  | shadowVerified (h : HalfId)
  /-- SWAP_DRAIN_END (R183) -/
  | swapDrainEnd (h : HalfId)
  /-- SWAP_DRAIN_TIMEOUT (R183) -/
  | swapDrainTimeout (h : HalfId)
  /-- FORCE_SET (R178) -/
  | forceSet (h : HalfId) (r : Req) (v : Word)
  /-- FORCE_RELEASE (R180) -/
  | forceRelease (h : HalfId) (r : Req) (v : Word)
  /-- FORCE_PERSIST (R178) -/
  | forcePersist (h : HalfId) (r : Req) (v : Word)
  /-- NOP (R194) -/
  | drlNop (h : HalfId) (e : Fin 8)
  /-- LDB (R192) -/
  | drlLdb (h : HalfId) (e : Fin 8)
  /-- ANDB (R194) -/
  | drlAndb (h : HalfId) (e : Fin 8)
  /-- ORB (R194) -/
  | drlOrb (h : HalfId) (e : Fin 8)
  /-- XORB (R194) -/
  | drlXorb (h : HalfId) (e : Fin 8)
  /-- BPUSH (R193) -/
  | drlBpush (h : HalfId) (e : Fin 8)
  /-- BPOPA (R193) -/
  | drlBpopa (h : HalfId) (e : Fin 8)
  /-- BPOPO (R193) -/
  | drlBpopo (h : HalfId) (e : Fin 8)
  /-- BPOPX (R193) -/
  | drlBpopx (h : HalfId) (e : Fin 8)
  /-- NOTB (R194) -/
  | drlNotb (h : HalfId) (e : Fin 8)
  /-- SETB (R194) -/
  | drlSetb (h : HalfId) (e : Fin 8)
  /-- CLRB (R194) -/
  | drlClrb (h : HalfId) (e : Fin 8)
  /-- STB (R194) -/
  | drlStb (h : HalfId) (e : Fin 8)
  /-- SETIF (R194) -/
  | drlSetif (h : HalfId) (e : Fin 8)
  /-- CLRIF (R194) -/
  | drlClrif (h : HalfId) (e : Fin 8)
  /-- RISE (R194) -/
  | drlRise (h : HalfId) (e : Fin 8)
  /-- FALL (R194) -/
  | drlFall (h : HalfId) (e : Fin 8)
  /-- LDW (R196) -/
  | drlLdw (h : HalfId) (e : Fin 8)
  /-- STW (R196) -/
  | drlStw (h : HalfId) (e : Fin 8)
  /-- ADD (R197) -/
  | drlAdd (h : HalfId) (e : Fin 8)
  /-- SUB (R197) -/
  | drlSub (h : HalfId) (e : Fin 8)
  /-- MUL (R197) -/
  | drlMul (h : HalfId) (e : Fin 8)
  /-- DIV (R197) -/
  | drlDiv (h : HalfId) (e : Fin 8)
  /-- REM (R197) -/
  | drlRem (h : HalfId) (e : Fin 8)
  /-- FADD (R197) -/
  | drlFadd (h : HalfId) (e : Fin 8)
  /-- FSUB (R197) -/
  | drlFsub (h : HalfId) (e : Fin 8)
  /-- FMUL (R197) -/
  | drlFmul (h : HalfId) (e : Fin 8)
  /-- FDIV (R197) -/
  | drlFdiv (h : HalfId) (e : Fin 8)
  /-- WAND (R194) -/
  | drlWand (h : HalfId) (e : Fin 8)
  /-- WOR (R194) -/
  | drlWor (h : HalfId) (e : Fin 8)
  /-- WXOR (R194) -/
  | drlWxor (h : HalfId) (e : Fin 8)
  /-- SHL (R194) -/
  | drlShl (h : HalfId) (e : Fin 8)
  /-- SHR (R194) -/
  | drlShr (h : HalfId) (e : Fin 8)
  /-- ASR (R194) -/
  | drlAsr (h : HalfId) (e : Fin 8)
  /-- CMP (R194) -/
  | drlCmp (h : HalfId) (e : Fin 8)
  /-- FCMP (R197) -/
  | drlFcmp (h : HalfId) (e : Fin 8)
  /-- ITF (R194) -/
  | drlItf (h : HalfId) (e : Fin 8)
  /-- FTI (R194) -/
  | drlFti (h : HalfId) (e : Fin 8)
  /-- NEG (R194) -/
  | drlNeg (h : HalfId) (e : Fin 8)
  /-- ABS (R194) -/
  | drlAbs (h : HalfId) (e : Fin 8)
  /-- TON (R199) -/
  | drlTon (h : HalfId) (e : Fin 8)
  /-- TOF (R199) -/
  | drlTof (h : HalfId) (e : Fin 8)
  /-- TP (R199) -/
  | drlTp (h : HalfId) (e : Fin 8)
  /-- TONR (R199) -/
  | drlTonr (h : HalfId) (e : Fin 8)
  /-- TRST (R198) -/
  | drlTrst (h : HalfId) (e : Fin 8)
  /-- CTU (R200) -/
  | drlCtu (h : HalfId) (e : Fin 8)
  /-- CTD (R200) -/
  | drlCtd (h : HalfId) (e : Fin 8)
  /-- CRST (R200) -/
  | drlCrst (h : HalfId) (e : Fin 8)
  /-- CLD (R200) -/
  | drlCld (h : HalfId) (e : Fin 8)
  /-- CPV (R200) -/
  | drlCpv (h : HalfId) (e : Fin 8)
  /-- SPW (R201) -/
  | drlSpw (h : HalfId) (e : Fin 8)
  /-- SDRV (R201) -/
  | drlSdrv (h : HalfId) (e : Fin 8)
  /-- SPULSE (R201) -/
  | drlSpulse (h : HalfId) (e : Fin 8)
  /-- SPROF (R201) -/
  | drlSprof (h : HalfId) (e : Fin 8)
  /-- SEVT (R201) -/
  | drlSevt (h : HalfId) (e : Fin 8)
  /-- JMP (R202) -/
  | drlJmp (h : HalfId) (e : Fin 8)
  /-- JT (R202) -/
  | drlJt (h : HalfId) (e : Fin 8)
  /-- JF (R202) -/
  | drlJf (h : HalfId) (e : Fin 8)
  /-- CALL (R193) -/
  | drlCall (h : HalfId) (e : Fin 8)
  /-- RET (R193) -/
  | drlRet (h : HalfId) (e : Fin 8)
  /-- LOOP (R202) -/
  | drlLoop (h : HalfId) (e : Fin 8)
  /-- END (R168) -/
  | drlEnd (h : HalfId) (e : Fin 8)
  /-- TILLER_SAMPLE (R208) -/
  | tillerSample (h : HalfId)
  /-- ENABLE (R230) -/
  | tlrEnable (h : HalfId) (r : Req) (v : Word)
  /-- DISABLE (R212) -/
  | tlrDisable (h : HalfId) (r : Req) (v : Word)
  /-- CLR_FLAGS (R230) -/
  | tlrClrFlags (h : HalfId) (r : Req) (v : Word)
  /-- MANUAL (R243) -/
  | tlrManual (h : HalfId) (r : Req) (v : Word)
  /-- AUTO (R243) -/
  | tlrAuto (h : HalfId) (r : Req) (v : Word)
  /-- TILLER_RUN_WRITE (R243) -/
  | tillerRunWrite (h : HalfId) (r : Req) (v : Word)
  /-- TLR_CLR (R230) -/
  | tlrClr (h : HalfId) (r : Req) (v : Word)
  /-- ENERGY_CYCLE (R261) -/
  | energyCycle (vs : Fin 8) (x : EnergyCycle)
  /-- NRG_WINDOW_END (R259) -/
  | nrgWindowEnd (h : HalfId) (vs : Fin 8)
  /-- DEMAND_MINUTE (R266) -/
  | demandMinute
  /-- DEMAND_INTERVAL_END (R267) -/
  | demandIntervalEnd
  /-- ENERGY_ROUND (R273) -/
  | energyRound (h : HalfId)
  /-- ENERGY_SNAPSHOT_ROUND (R274) -/
  | energySnapshotRound (h : HalfId)
  /-- NRG_CAL_APPLY (R271) -/
  | nrgCalApply (h : HalfId) (r : Req) (v : Word)
  /-- CLR_PEAK (R266) -/
  | clrPeak (h : HalfId) (r : Req)
  /-- NRG_CLR_FLAGS (R279) -/
  | nrgClrFlags (h : HalfId) (r : Req)
  /-- CLR_ACC (R263) -/
  | clrAcc (h : HalfId) (r : Req)
  /-- REACTIVE_LOAD (R276) -/
  | reactiveLoad (h : HalfId) (r : Req) (v : Word)
  /-- M_CFG_WRITE (R254) -/
  | mCfgWrite (h : HalfId) (r : Req) (v : Word)
  /-- NRG_RUN_WRITE (R272) -/
  | nrgRunWrite (h : HalfId) (r : Req) (v : Word)
  /-- UIO_SAMPLE (R285) -/
  | uioSample (t : Fin 256) (raw : Int) (loopOpen : Bool)
  /-- UIO_EDGE_ACCEPT (R287) -/
  | uioEdgeAccept (t : Fin 256) (level : Bool)
  /-- MODE_WRITE (R283) -/
  | modeWrite (h : HalfId) (r : Req) (t : Fin 256) (v : Word)
  /-- MODE_SETTLE_END (R283) -/
  | modeSettleEnd (t : Fin 256) (level : Bool)
  /-- UIO_CAL_APPLY (R294) -/
  | uioCalApply (h : HalfId) (r : Req) (g : Fin 16) (v : Word)
  /-- UIO_CLR (R287) -/
  | uioClr (h : HalfId) (r : Req) (g : Fin 16) (v : Word)
  /-- OD_OVERCURRENT (R291) -/
  | odOvercurrent (x : OdTrip)
  /-- OD_RETRY (R291) -/
  | odRetry (t : Fin 256)
  /-- STRIKE_PULSE_END (R291) -/
  | strikePulseEnd (t : Fin 256)
  /-- REFLEX_BIND_COMMIT (R299) -/
  | reflexBindCommit (h : HalfId) (r : Req) (v : Word)
  /-- SAMPLER_WAKE (R300) -/
  | samplerWake (x : SamplerInput)
  /-- CAN_FRAME_STORED (R311) -/
  | canFrameStored (c : Fin 16) (f : CanFrame)
  /-- CAN_TXREQ (R313) -/
  | canTxreq (h : HalfId) (r : Req) (c : Fin 16) (v : Word)
  /-- CAN_TX_ABORT (R313) -/
  | canTxAbort (h : HalfId) (r : Req) (c : Fin 16) (v : Word)
  /-- CAN_FRAME_SENT (R314) -/
  | canFrameSent (c : Fin 16) (o : Nat)
  /-- CAN_TX_ERROR (R314) -/
  | canTxError (c : Fin 16) (o : Nat) (e : CanError)
  /-- BUS_OFF_RECOVERY_START (R317) -/
  | busOffRecoveryStart (h : HalfId) (c : Fin 16)
  /-- RECOVER (R317) -/
  | canRecover (h : HalfId) (r : Req) (c : Fin 16)
  /-- BUS_OFF_RECOVERED (R317) -/
  | busOffRecovered (c : Fin 16)
  /-- ABORT_ALL (R322) -/
  | canAbortAll (h : HalfId) (r : Req) (c : Fin 16)
  /-- CAN_ACK (R311) -/
  | canAck (h : HalfId) (r : Req) (c : Fin 16) (v : Word)
  /-- CAN_OBJECT_COMMIT (R309) -/
  | canObjectCommit (h : HalfId) (r : Req) (addr : Nat) (v : Word)
  /-- CAN_MODE_WRITE (R318) -/
  | canModeWrite (h : HalfId) (r : Req) (c : Fin 16) (v : Word)
  /-- CAN_MODE_EFFECT (R318) -/
  | canModeEffect (c : Fin 16)
  /-- CAN_WAKE_PATTERN (R319) -/
  | canWakePattern (c : Fin 16)
  /-- CAN_CLR (R322) -/
  | canClr (h : HalfId) (r : Req) (c : Fin 16) (v : Word)
  /-- SER_MODE_WRITE (R330) -/
  | serModeWrite (h : HalfId) (r : Req) (e : Fin 16) (v : Word)
  /-- SER_MODE_EFFECT (R330) -/
  | serModeEffect (e : Fin 16)
  /-- MSTP_FRAME_RECEIVED (R325) -/
  | mstpFrameReceived (e : Fin 16) (f : MstpFrame)
  /-- REPLY_POSTPONED (R325) -/
  | replyPostponed (h : HalfId) (e : Fin 16)
  /-- MSTP_NO_TOKEN (R325) -/
  | mstpNoToken (h : HalfId) (e : Fin 16)
  /-- MSTP_TIMER_EXPIRY (R325) -/
  | mstpTimerExpiry (h : HalfId) (e : Fin 16)
  /-- OSDP_POLL (R327) -/
  | osdpPoll (h : HalfId) (e : Fin 16)
  /-- OSDP_REPLY (R327) -/
  | osdpReply (e : Fin 16) (f : OsdpReply)
  /-- OSDP_REPLY_TIMEOUT (R327) -/
  | osdpReplyTimeout (h : HalfId) (e : Fin 16)
  /-- ASYNC_FRAME_END (R328) -/
  | asyncFrameEnd (e : Fin 16) (f : AsyncFrame)
  /-- SER_FRAME_SEND (R328) -/
  | serFrameSend (h : HalfId) (e : Fin 16)
  /-- SER_SLOT_COMMIT (R329) -/
  | serSlotCommit (h : HalfId) (r : Req) (e : Fin 16) (sl : Fin 64) (v : Word)
  /-- SER_CLR (R338) -/
  | serClr (h : HalfId) (r : Req) (e : Fin 16) (v : Word)
  /-- DALI_TX_SUBMIT (R334) -/
  | daliTxSubmit (h : HalfId) (r : Req) (l : Fin 8) (v : Word)
  /-- DALI_SETTLING_END (R332) -/
  | daliSettlingEnd (h : HalfId) (l : Fin 8)
  /-- DALI_FORWARD_END (R333) -/
  | daliForwardEnd (l : Fin 8)
  /-- DALI_BACKWARD_FRAME (R333) -/
  | daliBackwardFrame (l : Fin 8) (f : DaliBackward)
  /-- DALI_REPLY_WINDOW_CLOSE (R333) -/
  | daliReplyWindowClose (l : Fin 8)
  /-- DALI_COLLISION (R333) -/
  | daliCollision (l : Fin 8)
  /-- DALI_POLL (R335) -/
  | daliPoll (h : HalfId) (l : Fin 8) (b : Nat)
  /-- DALI_FORWARD_RECEIVED (R335) -/
  | daliForwardReceived (l : Fin 8) (f : DaliForward)
  /-- DALI_BUS_DOWN (R336) -/
  | daliBusDown (l : Fin 8)
  /-- DALI_BUS_UP (R336) -/
  | daliBusUp (l : Fin 8)
  /-- DALI_MODE_WRITE (R336) -/
  | daliModeWrite (h : HalfId) (r : Req) (l : Fin 8) (v : Word)
  /-- DALI_CLR (R339) -/
  | daliClr (h : HalfId) (r : Req) (l : Fin 8) (v : Word)
  /-- ETH_FRAME_RECEIVED (R342) -/
  | ethFrameReceived (p : EthPort) (f : EthRx)
  /-- ETH_FRAME_TRANSMIT (R344) -/
  | ethFrameTransmit (h : HalfId) (p : EthPort)
  /-- PRP_SUPERVISION (R346) -/
  | prpSupervision (h : HalfId)
  /-- PRP_LAN_TIMEOUT (R348) -/
  | prpLanTimeout (lan : Bool)
  /-- PRP_ENTRY_FORGET (R347) -/
  | prpEntryForget (h : HalfId) (src : Nat) (seq : Option Nat)
  /-- LINK_ENERGY_DETECT (R354) -/
  | linkEnergyDetect (p : EthPort)
  /-- LINK_UP (R354) -/
  | linkUp (p : EthPort) (m : LinkMode)
  /-- TRAINING_TIMEOUT (R354) -/
  | trainingTimeout (p : EthPort)
  /-- LINK_DOWN (R354) -/
  | linkDown (p : EthPort) (reason : Nat)
  /-- TEST (R354) -/
  | macTest (h : HalfId) (r : Req) (p : EthPort) (v : Word)
  /-- NORMAL (R354) -/
  | macNormal (h : HalfId) (r : Req) (p : EthPort) (v : Word)
  /-- RENEGOTIATE (R358) -/
  | macRenegotiate (h : HalfId) (r : Req) (p : EthPort) (v : Word)
  /-- MAC_MODE_WRITE (R352) -/
  | macModeWrite (h : HalfId) (r : Req) (p : EthPort) (v : Word)
  /-- MAC_CLR (R355) -/
  | macClr (h : HalfId) (r : Req) (p : EthPort) (v : Word)
  /-- PRP_CLR (R359) -/
  | prpClr (h : HalfId) (r : Req) (v : Word)
  /-- PLCA_BEACON_LOST (R350) -/
  | plcaBeaconLost (p : Fin 8)
  /-- MZ_HEADER_RECEIVED (R371) -/
  | mzHeaderReceived (p : Fin 4) (f : MzRx)
  /-- MZ_FRAME_TAIL (R375) -/
  | mzFrameTail (p : Fin 4) (f : MzRx)
  /-- LINK_FRAME_SEND (R364) -/
  | linkFrameSend (h : HalfId) (p : Fin 4)
  /-- MZ_LINK_RECEIVE (R364) -/
  | mzLinkReceive (p : Fin 4) (f : MzRx)
  /-- MZ_SIGNAL_DETECT (R363) -/
  | mzSignalDetect (p : Fin 4)
  /-- MZ_SYNC_TIMEOUT (R363) -/
  | mzSyncTimeout (p : Fin 4)
  /-- MZ_LINK_LOST (R363) -/
  | mzLinkLost (p : Fin 4) (cause : Nat)
  /-- NO_HALF_TIMEOUT (R362) -/
  | noHalfTimeout
  /-- DUP_ENTRY_FORGET (R374) -/
  | dupEntryForget (h : HalfId) (k : Nat)
  /-- FWD_NS_UPDATE (R372) -/
  | fwdNsUpdate (h : HalfId)
  /-- WAKE_TX (R377) -/
  | wakeTx (h : HalfId) (r : Req) (v : Word)
  /-- MZ_WAKE_RECEIVE (R377) -/
  | mzWakeReceive (f : MzFrame)
  /-- MZP_KEY_COMMIT (R370) -/
  | mzpKeyCommit (h : HalfId) (r : Req) (p : Fin 4) (slot : Fin 2) (v : Word)
  /-- KEY_CTRL_WRITE (R370) -/
  | keyCtrlWrite (h : HalfId) (r : Req) (p : Fin 4) (v : Word)
  /-- MZ_CLR (R380) -/
  | mzClr (h : HalfId) (r : Req) (v : Word)
  /-- MZP_CLR (R381) -/
  | mzpClr (h : HalfId) (r : Req) (p : Fin 4) (v : Word)
  /-- MZ_PUBLISH_RECEIVE (R129) -/
  | mzPublishReceive (f : MzFrame)
  /-- MZ_POINT_WRITE_RECEIVE (R367) -/
  | mzPointWriteReceive (f : MzFrame)
  /-- MZ_IPP_REQ_RECEIVE (R367) -/
  | mzIppReqReceive (f : MzFrame)
  /-- MZ_IPP_RSP_RECEIVE (R367) -/
  | mzIppRspReceive (f : MzFrame)
  /-- MZ_APP_RECEIVE (R367) -/
  | mzAppReceive (f : MzFrame)
  /-- MZ_HEARTBEAT_RECEIVE (R396) -/
  | mzHeartbeatReceive (f : MzFrame)
  /-- FOSTER_PACK_RECEIVE (R395) -/
  | fosterPackReceive (f : MzFrame)
  /-- FOSTER_ACK_RECEIVE (R395) -/
  | fosterAckReceive (f : MzFrame)
  /-- HALF_READY (R382) -/
  | halfReady (h : HalfId) (clean : Bool) (x : StartObs)
  /-- LEASE_RENEWAL (R383) -/
  | leaseRenewal (h : HalfId) (clean : Bool)
  /-- LEASE_EXPIRY (R384) -/
  | leaseExpiry
  /-- HANDOVER (R385) -/
  | handover (h : HalfId) (r : Req)
  /-- HANDOVER_TIMEOUT (R385) -/
  | handoverTimeout
  /-- REJOIN (R382) -/
  | rejoin (h : HalfId) (r : Req)
  /-- RETIRE_SELF (R391) -/
  | retireSelf (h : HalfId) (r : Req)
  /-- REJOIN_TIMER (R382) -/
  | rejoinTimer (h : HalfId)
  /-- WDOG_KICK (R386) -/
  | wdogKick (h : HalfId) (r : Req) (v : Word)
  /-- WATCHDOG_EXPIRY (R386) -/
  | watchdogExpiry (h : HalfId)
  /-- OUTPUT_RECORD (R387) -/
  | outputRecord (h : HalfId) (x : OutRec)
  /-- RECORD_WAIT_TIMEOUT (R387) -/
  | recordWaitTimeout
  /-- CHALLENGE_DECIDED (R388) -/
  | challengeDecided (x : ChallengeRes)
  /-- XLINK_LOST (R389) -/
  | xlinkLost (h : HalfId) (cause : Nat)
  /-- XLINK_RETRAIN (R389) -/
  | xlinkRetrain (ok : Bool)
  /-- STATE_TRANSFER_ROUND (R390) -/
  | stateTransferRound (h : HalfId) (x : XferRound)
  /-- STATE_TRANSFER_RETRY (R390) -/
  | stateTransferRetry (h : HalfId)
  /-- YOKE_LOST (R391) -/
  | yokeLost (h : HalfId)
  /-- YOKE_RESTORED (R391) -/
  | yokeRestored
  /-- YOKE_HOLD_EXCEEDED (R392) -/
  | yokeHoldExceeded (h : HalfId)
  /-- HEARTBEAT_SEND (R393) -/
  | heartbeatSend (h : HalfId)
  /-- PACK_SEND (R394) -/
  | packSend (h : HalfId) (cfg : Bool)
  /-- PACK_RETRY (R395) -/
  | packRetry (h : HalfId)
  /-- PROTECTION_TIMEOUT (R396) -/
  | protectionTimeout (h : HalfId)
  /-- ABSENCE (R396) -/
  | absence (h : HalfId) (k : Fin 2)
  /-- BUS_CHECK_END (R397) -/
  | busCheckEnd (h : HalfId) (k : Fin 2) (seen : List BusSeen)
  /-- BUS_RECHECK (R397) -/
  | busRecheck (h : HalfId) (k : Fin 3) (seen : List BusSeen)
  /-- QUERY (R399) -/
  | query (f : MzFrame)
  /-- QUERY_TIMEOUT (R399) -/
  | queryTimeout (h : HalfId) (seen : List BusSeen)
  /-- FOSTER_STATUS (R400) -/
  | fosterStatus (f : MzFrame)
  /-- PULL (R402) -/
  | pull (f : MzFrame)
  /-- FOSTER_RELEASE (R402) -/
  | fosterRelease (f : MzFrame)
  /-- RELEASED (R402) -/
  | released (f : MzFrame)
  /-- CLAIMED (R402) -/
  | claimed (f : MzFrame)
  /-- FOSTER_DORMANT (R401) -/
  | fosterDormant (f : MzFrame)
  /-- HANDBACK (R403) -/
  | handback (h : HalfId) (r : Req)
  /-- DROP (R396) -/
  | drop (h : HalfId) (r : Req)
  /-- SEND_PACK (R394) -/
  | sendPack (h : HalfId) (r : Req)
  /-- FOST_FOSTER_WRITE (R393) -/
  | fostFosterWrite (h : HalfId) (r : Req) (v : Word)
  /-- RTC_SECOND (R408) -/
  | rtcSecond
  /-- INTERVAL_ALARM (R418) -/
  | intervalAlarm
  /-- TIME_OF_DAY_ALARM (R418) -/
  | timeOfDayAlarm
  /-- RTC_SET (R411) -/
  | rtcSet (h : HalfId) (r : Req)
  /-- DST_ON (R412) -/
  | dstOn (h : HalfId) (r : Req)
  /-- DST_OFF (R412) -/
  | dstOff (h : HalfId) (r : Req)
  /-- CLR_OSF (R416) -/
  | clrOsf (h : HalfId) (r : Req)
  /-- CLR_VLOW (R416) -/
  | clrVlow (h : HalfId) (r : Req)
  /-- CLR_SWO (R415) -/
  | clrSwo (h : HalfId) (r : Req)
  /-- COMP_APPLY (R414) -/
  | compApply (h : HalfId) (r : Req)
  /-- COMP_FACTORY (R414) -/
  | compFactory (h : HalfId) (r : Req)
  /-- COMP_WINDOW (R413) -/
  | compWindow (temp : Int)
  /-- VRTC_SWITCHOVER (R415) -/
  | vrtcSwitchover
  /-- VLOW_DETECT (R416) -/
  | vlowDetect
  /-- OSC_STOPPED (R416) -/
  | oscStopped
  /-- PTP_SYNC_RECEIVE (R421) -/
  | ptpSyncReceive (x : PtpMsg)
  /-- PTP_ANNOUNCE_RECEIVE (R424) -/
  | ptpAnnounceReceive (x : PtpMsg)
  /-- PTP_DELAY_REQ_RECEIVE (R424) -/
  | ptpDelayReqReceive (x : PtpMsg)
  /-- PTP_DELAY_RESP_RECEIVE (R424) -/
  | ptpDelayRespReceive (x : PtpMsg)
  /-- PTP_MESSAGE_SEND (R424) -/
  | ptpMessageSend (h : HalfId) (p : Nat) (k : Nat)
  /-- ANNOUNCE_RECEIPT_TIMEOUT (R421) -/
  | announceReceiptTimeout (p : Nat) (sync : Bool)
  /-- HOLDOVER_EXPIRY (R421) -/
  | holdoverExpiry (h : HalfId)
  /-- RTC_RELOAD_CHECK (R423) -/
  | rtcReloadCheck
  /-- PAGE_SEL_WRITE (R433) -/
  | pageSelWrite (h : HalfId) (r : Req) (v : Word)
  /-- GRN_DATA_WRITE (R433) -/
  | grnDataWrite (h : HalfId) (r : Req) (v : Word)
  /-- GRN_COMMIT (R434) -/
  | grnCommit (h : HalfId) (r : Req) (v : Word)
  /-- STORE_GO (R439) -/
  | storeGo (h : HalfId) (r : Req) (v : Word)
  /-- PERIODIC_STORE (R439) -/
  | periodicStore (h : HalfId)
  /-- STORE_CAPTURE (R437) -/
  | storeCapture (h : HalfId)
  /-- STORE_PROGRAMMED (R437) -/
  | storeProgrammed (h : HalfId) (ok : Bool)
  /-- PFW_ASSERT (R453) -/
  | pfwAssert (va : Nat) (vb : Nat)
  /-- PFW_RELEASE (R454) -/
  | pfwRelease
  /-- INPUT_CHANGED (R452) -/
  | inputChanged (b : Bool) (low : Bool) (mv : Nat) (other : Nat)
  /-- REQ_WORKING (R460) -/
  | reqWorking (h : HalfId) (r : Req)
  /-- REQ_QUIET (R460) -/
  | reqQuiet (h : HalfId) (r : Req)
  /-- REQ_FALLOW (R460) -/
  | reqFallow (h : HalfId) (r : Req)
  /-- REQ_DORMANT (R460) -/
  | reqDormant (h : HalfId) (r : Req)
  /-- PAGE_POWER_ANSWER (R462) -/
  | pagePowerAnswer (h : HalfId) (page : Nat) (x : PowerAnswer)
  /-- POWER_DELAY_EXPIRY (R462) -/
  | powerDelayExpiry (h : HalfId) (page : Nat)
  /-- POWER_ANSWER_TIMEOUT (R462) -/
  | powerAnswerTimeout (h : HalfId) (page : Nat)
  /-- WAKE (R465) -/
  | wake (reason : Nat) (lost : List LostBank)
  /-- MGT_ADDRESS_MATCH (R470) -/
  | mgtAddressMatch (addr : Nat)
  /-- GET_STATUS (R471) -/
  | getStatus (x : MgtReq)
  /-- MGT_READ (R471) -/
  | mgtRead (x : MgtReq)
  /-- MGT_WRITE (R98) -/
  | mgtWrite (x : MgtReq)
  /-- SET_STATE (R471) -/
  | setState (x : MgtReq)
  /-- MGT_WAKE (R471) -/
  | mgtWake (x : MgtReq)
  /-- STREAM_OPEN (R483) -/
  | streamOpen (h : HalfId) (r : Req) (v : Word)
  /-- STREAM_ABORT (R484) -/
  | streamAbort (h : HalfId) (r : Req) (v : Word)
  /-- WIN_WRITE (R483) -/
  | winWrite (h : HalfId) (r : Req) (ws : List Word)
  /-- LOAD_TIMEOUT (R484) -/
  | loadTimeout (h : HalfId)
  /-- SLOT_COPY_DONE (R484) -/
  | slotCopyDone (h : HalfId)
  /-- UPD_ACTIVATE (R488) -/
  | updActivate (h : HalfId) (r : Req) (v : Word)
  /-- ROLLBACK (R493) -/
  | rollback (h : HalfId) (r : Req)
  /-- ACCEPT (R492) -/
  | accept (h : HalfId) (r : Req)
  /-- MIG_DONE (R491) -/
  | migDone (h : HalfId) (r : Req)
  /-- MIG_FAIL (R491) -/
  | migFail (h : HalfId) (r : Req)
  /-- MIGRATION_TIMEOUT (R491) -/
  | migrationTimeout
  /-- ACTIVATION_TIMEOUT (R489) -/
  | activationTimeout
  /-- YOKE_RELOAD_DONE (R489) -/
  | yokeReloadDone (ok : Bool)
  /-- PROBATION_END (R492) -/
  | probationEnd
  /-- OWNER_KEY_COMMIT (R498) -/
  | ownerKeyCommit (h : HalfId) (r : Req) (v : Word)
  /-- KZQPUSH (R499) -/
  | kzqpush (h : HalfId) (c : Fin 4) (x : KzCtx) (v : Dword)
  /-- KZQPOP (R499) -/
  | kzqpop (h : HalfId) (c : Fin 4) (x : KzCtx)
  /-- AES_GCM_ENCRYPT (R502) -/
  | aesGcmEncrypt (h : HalfId)
  /-- AES_GCM_DECRYPT (R502) -/
  | aesGcmDecrypt (h : HalfId)
  /-- SHA384 (R502) -/
  | sha384 (h : HalfId)
  /-- ECDSA_VERIFY (R502) -/
  | ecdsaVerify (h : HalfId)
  /-- ECDH (R502) -/
  | ecdh (h : HalfId)
  /-- SIGN_ID (R502) -/
  | signId (h : HalfId)
  /-- EVENT_ARISE (R506) -/
  | eventArise (h : HalfId)
  /-- EXPORT_WRITE (R509) -/
  | exportWrite (h : HalfId) (r : Req) (v : Word)
  /-- EVR_FREEZE (R513) -/
  | evrFreeze (h : HalfId) (r : Req)
  /-- EVR_RELEASE (R513) -/
  | evrRelease (h : HalfId) (r : Req)
  /-- FREEZE_TIMEOUT (R513) -/
  | freezeTimeout (h : HalfId)
  /-- DISCARD (R514) -/
  | discard (h : HalfId) (r : Req)
  /-- CLEAR (R514) -/
  | clear (h : HalfId) (r : Req)
  /-- THERMAL_SAMPLE (R515) -/
  | thermalSample (x : TempSample)
  /-- THERMAL_COOLED (R515) -/
  | thermalCooled
  /-- RAIL_SAMPLE (R516) -/
  | railSample (x : RailSample)
  /-- SCRUB_LINE (R519) -/
  | scrubLine (h : HalfId) (x : ScrubResult)
  /-- HLTH_CLR (R523) -/
  | hlthClr (h : HalfId) (r : Req) (v : Word)
  /-- MODULE_START (R524) -/
  | moduleStart (x : StartObs)
  /-- RST_N_ASSERT (R527) -/
  | rstNAssert
  /-- RST_N_RELEASE (R527) -/
  | rstNRelease
  /-- CAN_RECEIVE_ERROR (R317) -/
  | canReceiveError (c : Fin 16) (e : CanError)
  /-- ETH_COLLISION (R350) -/
  | ethCollision (h : HalfId) (p : EthPort) (late : Bool)
  /-- TRAINING_NO_COMMON_MODE (R354) -/
  | trainingNoCommonMode (p : EthPort)
  /-- PLCA_BEACON_RETURN (R350) -/
  | plcaBeaconReturn (p : Fin 8)
  /-- PLCA_BEACON_SEND (R350) -/
  | plcaBeaconSend (h : HalfId) (p : Fin 8)
  /-- OUTPUT_RATE_LIMIT (R290) -/
  | outputRateLimit (h : HalfId) (t : Fin 256)
  deriving DecidableEq, Repr

end Sys2Proof
end

