-- ==== Sys2Proof/Machine/State.lean ====
section
/-! DEFINITION. The state of the module: two halves, the Yoke, and the queue of waiting commands. Register-visible state is
held by number in register stores (Half.regs and Yoke.regs, keyed page × 4096 + offset); what the registers do not show is
held in one record per block. -/
namespace Sys2Proof.Machine

/-- Why the module stops: the specification names no condition under which it stops answering commands, so there is none. -/
inductive Fault where
  deriving DecidableEq, Repr

/-- Why a command is refused by the model. -/
inductive Refusal where
  /-- Raised by exec's arm of a command that has no meaning yet (safe: nothing is claimed of it). -/
  | notModelled (mnemonic : String)
  deriving DecidableEq, Repr

/-- A map from numbers in its canonical form: keys rising, and no entry equal to what an unlisted key reads as. -/
abbrev Sparse (α : Type) := List (Nat × α)

/-- A word staged by an accessor (R54): its word and how many register-page accesses the accessor has made since. -/
structure Staged where
  word : Word
  age  : Nat
  deriving DecidableEq, Repr

/-- What an access answered its accessor: a status of Table 3.7, and the value read. -/
structure Answer where
  status : Nat
  value  : Dword
  deriving DecidableEq, Repr

/-- What one accessor holds in one half (R52): its latched words (R53) and staged words (R54) by register key, the pages
whose whole-page snapshot it holds (R49), its own view of per-accessor registers, the answer to its last access, its
open sheaf slot (R140), and the number of its last point submission (R124). -/
structure Acc where
  snaps     : Sparse Word
  pageSnaps : List Nat
  staged    : Sparse Staged
  view      : Sparse Word
  answer    : Answer
  sheaf     : Option Nat
  wrSeq     : Nat
  deriving DecidableEq, Repr

/-- One page of the always-on directory (R57, R58, Table 2.7): powered, ready, waking, retained and faulty. -/
structure PageDir where
  powered  : Bool
  ready    : Bool
  waking   : Bool
  retained : Bool
  fault    : Bool
  deriving DecidableEq, Repr

/-- An access that stalls for a waking block (R58), in arrival order. -/
abbrev Stalled := Access

/-- An event that has arisen and waits to be stored or counted (R506): its code, parameters and instant. -/
structure Event where
  code : Nat
  p0   : Nat
  p1   : Nat
  p2   : Nat
  p3   : Nat
  time : Dword
  deriving DecidableEq, Repr

/-- An IPP session (R89 to R93, Table 3.16). -/
structure Session where
  gen   : Nat          -- generation last used, 0 before the first use
  isOpen : Bool
  stamp : Stamp
  ip    : BitVec 128
  udp   : Nat
  seq   : Word         -- last accepted request sequence
  nseq  : Word         -- last notification sequence
  subs  : Nat          -- subscriptions counted to it (R86)
  idle  : Nat          -- idle timeout in force, in seconds
  since : Nat          -- instant of its last accepted request
  deriving DecidableEq, Repr

/-- The token bucket of a port (Table 3.8). -/
structure Bucket where
  used : Nat    -- what a full bucket of 64 tokens lacks, in 10^-9 tokens
  since   : Nat    -- instant to which the refill has been counted
  deriving DecidableEq, Repr

/-- Per-port bookkeeping of events 0x0705 and 0x0707 (R101, R104, R105); port 64 stands for the frames of event 0x0704 (R77). -/
structure PortRate where
  bucket  : Bucket
  rlAt    : Option Nat   -- instant of the last 0x0705
  rlDrops : List Nat     -- instants of the drops of the last second
  refAt   : Option Nat   -- instant of the last 0x0707
  refCnt  : Nat          -- refusals since the last 0x0707
  deriving DecidableEq, Repr

/-- The part of a request that one other module answers (R99): its REQ_ID, the module, and the places of its entries. -/
structure FwdPart where
  reqId   : Nat
  module_ : Nat
  places  : List Nat
  deriving DecidableEq, Repr

/-- A request that waits for other modules (R99): the REQ_ID of its first part, the status and entries of its response as they
stand (TIMEOUT where no answer has come), and the parts not yet answered. -/
structure Forward where
  id     : Nat
  req    : IppReq
  status : Nat
  body   : List (List Byte)
  parts  : List FwdPart
  deriving DecidableEq, Repr
/-- A point record (Table 4.1). CHECK is stored, as R118 has it verified. -/
structure PointRec where
  value    : Dword
  time     : Dword
  typeUnit : BitVec 16
  quality  : Byte
  level    : Byte
  tc       : BitVec 16
  srcBind  : BitVec 16
  cov      : Word
  seq      : BitVec 16
  check    : BitVec 16
  deriving DecidableEq, Repr

/-- The priority-array slot of a commandable point (R119). -/
structure PrioSlot where
  vals : Sparse Dword   -- level 1 to 16, and 17 for the relinquish default
  occ  : List Nat       -- occupied levels, rising (the occupancy mask)
  outb : Nat            -- output binding index, 0xFFFF for none
  deriving DecidableEq, Repr

/-- An entry of the force table (R123, R178, R180). -/
structure Force where
  kind    : Nat      -- 1 MARKER, 2 POINT_BIT, 3 POINT
  persist : Bool
  bit     : Nat
  addr    : Nat
  value   : Dword
  stamp   : Stamp
  setAt   : Nat
  uValue  : Dword    -- R123: the underlying value of a point that is not commandable,
  uTime   : Dword    -- its TIME
  uQual   : Byte     -- and its QUALITY
  deriving DecidableEq, Repr

/-- A subscription entry (R129). kind: 0 IPP, 1 PUBLISH, 2 QUEUE. -/
structure Sub where
  kind   : Nat
  point  : Nat
  dest   : Nat       -- session ID, module address or descriptor queue
  minNs  : Nat       -- minimum interval
  lastAt : Option Nat  -- instant of its previous send
  held   : Bool      -- a notification is held (R128)
  link   : Nat       -- next entry of the point, 0xFFFF for none
  deriving DecidableEq, Repr

/-- What an output binding last issued, and whether a change waits for its repeat interval (R125). -/
structure OutState where
  lastRaw : Option Dword
  lastAt  : Nat
  wait    : Bool
  deriving DecidableEq, Repr

/-- Who presents a write to the point-table engine (R124, R131 to R133). -/
inductive WriteFrom where
  | acc (a : Nat) (n : Nat)          -- a PTAB.WR submission, the n-th of accessor a
  | ipp                              -- an IPP request, already checked
  | merzin                           -- a POINT_WRITE frame
  | source (b : Nat) (range : Bool) (quality : Byte)   -- source binding b; RANGE; extra quality bits
  | reflex (b : Nat)
  | engine                           -- sheaves, force releases and other hardware
  deriving DecidableEq, Repr

/-- One write in the engine's queue (R125). -/
structure PWrite where
  point  : Nat
  level  : Nat
  relinq : Bool
  subst  : Bool
  value  : Dword
  time   : Option Dword    -- instant reported by the source (R114)
  stamp  : Stamp
  src    : WriteFrom
  deriving DecidableEq, Repr

/-- The point-table engine's private state. -/
structure PtabSt where
  recs    : Sparse PointRec
  prio    : Sparse PrioSlot
  covRef  : Sparse Dword       -- R127
  subs    : Sparse Sub         -- the pool, by entry number
  forces  : Sparse Force       -- the force table, by entry number
  srcB    : Sparse (List Word) -- source binding descriptors, eight words (Table 4.5)
  outB    : Sparse (List Word) -- output binding descriptors
  srcLast : Sparse Nat         -- instant of the last source write, by binding
  out     : Sparse OutState
  queue   : List PWrite        -- the first 1,024 are the engine's queue; those after them belong to writers that wait for a free entry
  checkAt : Option Nat         -- instant of the last 0x0803
  deriving DecidableEq, Repr

/-- A sheaf action (Table 5.1). module 0 is this module; data holds the 64 bytes of a GRN_WRITE. -/
structure Act where
  kind    : Nat
  target  : Nat
  aux     : Nat
  value   : Dword
  module_  : Nat
  data    : List Byte
  stamp   : Stamp
  applied : Bool
  deriving DecidableEq, Repr

/-- A participant of a cross-module sheaf, as its coordinator sees it (R156, R158). -/
structure Part where
  addr  : Nat
  voted : Bool
  acked : Bool
  deriving DecidableEq, Repr

/-- A sheaf slot (Table 5.2, Table 5.8). state: 0 FREE, 1 OPEN, 2 PREPARED, 3 COMMITTED (DONE and ABORTED are left at once). -/
structure Slot where
  state    : Nat
  owner    : Nat        -- SLOT_INFO0.OWNER
  acts     : List Act
  openedAt : Nat
  seq      : Word       -- sheaf sequence, from the commit instant
  coordSeq : Word
  coord    : Nat        -- coordinator address
  cross    : Bool
  isCoord  : Bool
  parts    : List Part
  deadline : Dword      -- TAI instant T0 + D
  budget   : Nat        -- B of R156, in 10 ns units
  outcome  : Bool       -- a coordinator whose outcome is ABORT still repeats it: false COMMIT, true ABORT
  votedAt  : Nat
  waitAt   : Option Nat -- waiting for journal pages since (R146)
  firstPg  : Nat        -- first journal page of its record, 0 for none
  nPg      : Nat
  uncertain : Bool
  rsp      : Option IppReq   -- the IPP SHEAF request to answer (R161)
  deadUs   : Nat        -- DEADLINE_US written with COMMIT
  task     : Nat        -- the Drill task whose sheaf it is
  deriving DecidableEq, Repr

/-- The sheaf engine's private state. -/
structure ShfSt where
  slots    : Sparse Slot
  seen     : List (Nat × Word × Nat)   -- R150: (source module, sheaf sequence, action index) received
  cq       : List Nat                  -- slots whose commit has been requested and not decided, the oldest first (R144)
  toYoke   : List (Nat × Word)         -- words that an applied REG_WRITE writes into a page of the Yoke
  aborts   : List (Nat × Slot)         -- aborted sheaves whose ABORT is still repeated (R158), by the slot they had
  deriving DecidableEq, Repr

/-- A used-address range, or one address, of markers, timers or counters: first and count (R181). -/
structure AddrRange where
  first : Nat
  count : Nat
  deriving DecidableEq, Repr

/-- One retained variable of a task (R175). kind: 0 marker, 1 timer, 2 counter; the place within the task's pages is
Stoir's: page (an index of the task's retained pages), byte and bit. -/
structure RetVar where
  kind : Nat
  addr : Nat
  page : Nat
  byte : Nat
  bit  : Nat
  deriving DecidableEq, Repr

/-- The owner's choice for one output in the safe state (R173): 0 HOLD, 1 RELINQUISH, 2 VALUE. -/
structure SafeAct where
  choice : Nat
  value  : Dword
  deriving DecidableEq, Repr

/-- Task parameters (Table 6.1) with the rest of the task's entry in the bank header (R181). -/
structure TaskCfg where
  engine  : Nat
  prio    : Nat
  period  : Nat
  phase   : Nat
  level   : Nat
  limit   : Nat
  inputs  : List Nat
  outputs : List Nat
  retPages : List Nat
  retVars : List RetVar
  retHash : Word
  safe    : List SafeAct
  entry   : Nat
  wcet    : Word
  deriving DecidableEq, Repr

/-- A program as a bank holds it (R181). -/
structure Program where
  valid    : Bool
  id       : Word
  length   : Nat
  crc      : Word
  crcOk    : Bool                -- its CRC-32C agrees with its contents
  codeLen  : Nat                 -- words of its code region
  tasks    : Sparse TaskCfg
  markers  : List AddrRange
  timers   : List AddrRange
  counters : List AddrRange
  initMark : List Nat            -- markers whose initial value is 1
  initCv   : Sparse Word
  initPv   : Sparse Word
  code     : Sparse Word
  ext      : List Nat            -- addresses of extension words (R202)
  deriving DecidableEq, Repr

/-- A Drill timer (R198). -/
structure Timer where
  et     : Nat
  pt     : Nat
  dn     : Bool
  rem    : Nat
  run    : Bool
  last   : Nat
  inLast : Bool
  armed  : Bool       -- TOF: IN has been 1 since the last TRST or start
  deriving DecidableEq, Repr

/-- A Drill counter (R200). -/
structure Counter where
  cv   : Word
  pv   : Word
  q    : Bool
  edgeU : Bool
  edgeD : Bool
  deriving DecidableEq, Repr

/-- An input of a task's input image (R167). -/
structure InImg where
  value   : Dword
  quality : Byte
  level   : Byte
  deriving DecidableEq, Repr

/-- A branch-stack entry (R193). -/
inductive Stk where
  | logic (b : Bool)
  | call (a : Nat)
  deriving DecidableEq, Repr

/-- Run-time state of a task (R170, R191, R192). st: Table 6.3. -/
structure Task where
  st      : Nat
  first   : Bool
  warm    : Bool
  consec  : Nat
  cause   : Nat
  overruns : Nat
  abandoned : Nat
  maxs    : Nat
  steps   : Nat
  late    : Bool                -- a release has passed since the one of this period (R172)
  owed    : Bool                -- a step of the time base has passed a release that is still to be taken (R165)
  relMs   : Option Nat          -- the last release instant, in ms of the time base, that needs no more attention
  ins     : Sparse InImg
  outs    : Sparse Dword        -- output image
  last    : Sparse Dword        -- value last committed, by output
  pc      : Nat
  lb      : Bool
  acc     : Dword
  z : Bool
  n : Bool
  v : Bool
  stack   : List Stk
  locals  : Sparse Dword
  acts    : List Act            -- actions of the sheaf instructions, in execution order
  relDt   : Nat                 -- Drill time at the current release
  retImg  : Sparse (List Byte)  -- retained pages as of the last commit
  safe    : Nat                 -- the safe-state commit under way (R173): 0 none, else its cause (Table 6.7)
  deriving DecidableEq, Repr

/-- A sheaf of a Drill engine that is not DONE yet: its slot (R139), its task (and 64 for a safe-state sheaf, 128 for the
relinquish actions of an exchange), and its actions. -/
structure DrlJob where
  slot : Nat
  code : Nat
  acts : List Act
  deriving DecidableEq, Repr

/-- How an engine has spent its time (R171, R187): whether it was busy when time last passed, since when, and the intervals of the last
second in which it was. -/
structure EngTime where
  busy  : Bool
  since : Nat
  past  : List (Nat × Nat)
  deriving DecidableEq, Repr

/-- The Drill engines' private state. -/
structure DrlSt where
  eng      : Sparse EngTime
  active  : Program
  shadow  : Program
  actRaw  : Sparse Word          -- the banks as written, by word
  shdRaw  : Sparse Word
  bank    : Bool                 -- physical bank now active
  tasks   : Sparse Task
  markers : Sparse Bool
  timers  : Sparse Timer
  counters : Sparse Counter
  drillMs : Nat                  -- Drill time (R199)
  swap    : Nat                  -- DRLC.STAT.SWAP (Table 6.11)
  swapId  : Word
  swapAt  : Nat
  jobs    : List DrlJob          -- the oldest first; the first of a slot may hold it
  deriving DecidableEq, Repr
/-- One Tiller loop (R205, R209, R243). st: Table 9.6. -/
structure Loop where
  st      : Nat
  resume  : Nat              -- state held before STOPPED
  desc    : Nat
  first   : Bool             -- the next sample is a first sample
  cold    : Bool             -- ... that follows ENABLE or a restart (R233)
  pend    : Option Nat       -- pending descriptor (R246)
  cmd     : Nat              -- command to take at the next sample: 0 none, 4 MANUAL, 5 AUTO
  who     : Stamp            -- and its writer
  target  : Option Word      -- target last set by PROFILE_START (R232), a BF scalar
  ins     : Sparse Word      -- converted value of each input, BF scalar
  bad     : List Nat         -- inputs bad at the last sample
  aged    : List Nat         -- elements (4 × stage + element) held by age at the last sample
  redo    : List Nat         -- outputs whose write was aborted and is made again (R210)
  relq    : List (Nat × Nat) -- points and levels relinquished with the next sheaf (R241, R247)
  exc     : Bool             -- the last sample was an exceeding sample (R241)
  busy    : Bool             -- its previous sample has not reached DONE (R211)
  track   : Bool
  overrun : Bool
  inbad   : Bool
  sat     : Bool
  satIn   : Bool             -- an input conversion saturated at the last sample
  leaving : Bool             -- DISABLE taken; the relinquish sheaf is not DONE
  lastMs  : Nat              -- the previous sample instant, in ms, for ELAPSED
  owed    : Option Nat       -- the sample instant, in ms, that a step of the time base has passed and that is still to be taken (R208)
  seenMs  : Option Nat       -- the last sample instant, in ms, that needs no more attention
  deriving DecidableEq, Repr

/-- A Tiller sheaf that is not DONE yet (R210, R212): its actions, the outputs they write (loop, output, BF scalar), the loops
whose sample ends with it, the loop a DISABLE relinquishes, and the sample instant. -/
structure TlrJob where
  acts : List Act
  outs : List (Nat × Nat × Word)
  fin  : List Nat
  dis  : Option Nat
  grid : Nat
  deriving DecidableEq, Repr

/-- The Tiller engine's private state. -/
structure TlrSt where
  desc   : Sparse Word       -- descriptor words, d × 512 + w (R205)
  loops  : Sparse Loop
  jobs   : List TlrJob       -- the oldest first; the first one may hold slot 8
  deriving DecidableEq, Repr
/-- The energy of one meter (R261 to R268, R275, R276). Registers 0 AI, 1 AE, 2 to 5 RQ1 to RQ4. -/
structure Meter where
  cfg    : Word
  acc    : Sparse Dword      -- the six 64-bit cells
  res    : Sparse Nat        -- residue of each, in units of 2^-24
  sat    : List Nat          -- registers that have saturated (event 0x0C01 once)
  minImp : List Nat          -- active import of each of the last 60 minutes, newest first
  minExp : List Nat
  curImp : Nat               -- of the minute in progress
  curExp : Nat
  ivImp  : Nat               -- of the interval in progress
  ivExp  : Nat
  flags  : Nat               -- FLAGS [7:0] of Table 10.5 of the interval in progress, then IQ_LOST, RQ_LOST and RQ_LOADED at 9 to 11
  gap    : Bool              -- GAP as M_STAT shows it until CLR_FLAGS (R275)
  tail   : Word
  dem    : Word
  demx   : Word
  peak   : Word
  tot    : List Word         -- M_P, M_Q, M_S, M_PF of the last window
  irec   : List Word         -- last interval record, eight words (Table 10.5)
  deriving DecidableEq, Repr

/-- A voltage set between windows: consecutive wrong and right sequences, displaced and good neutrals (R269, R270); and of the window in
progress its cycles, their time in ns and its samples (R256). -/
structure VSet where
  wrong  : Nat
  right  : Nat
  displ  : Nat
  good   : Nat
  cycles : Nat
  ns     : Nat
  taken  : Nat
  deriving DecidableEq, Repr

/-- The energy DSP's private state. Inputs are numbered 4 × set + input for voltages, and 32 + channel for currents. -/
structure NrgSt where
  meters  : Sparse Meter
  sets    : Sparse VSet
  calAct  : Sparse Word        -- GAIN and PHASE in force, by register address (R271)
  calStg  : List Nat           -- register addresses written since they were last applied
  calGo   : Sparse Word        -- values given to CAL_APPLY.GO that wait for the cycle boundary of their set (R271)
  calWho  : Stamp              -- the writer of CAL_APPLY.GO
  calNum  : Nat                -- the inputs that it changes
  dc      : Sparse Int         -- DC found in each input, in 2^-32 nV (R252)
  hist    : Sparse (List Int)  -- the last 64 samples of each input, DC removed, in nV
  raw     : Sparse (List Int)  -- samples of the window in progress by input, DC removed, in nV
  cur     : Sparse (List Int)  -- points of the window in progress by input, in 2^-22 nV; 256 + voltage input: delayed by 32 points
  last    : Sparse (List Int)  -- points of the last window by input, scaled (R258)
  clipNow : List Nat           -- inputs clipped in the window in progress
  clipAt  : Sparse Nat         -- instant of the last 0x0C0C by input
  clipN   : Sparse (List (Nat × Nat))   -- clipped samples of the last second by input: instant and number
  stopped : Bool               -- accumulation stopped by the snapshot instant of R274
  minute  : Int                -- the UTC minute in progress (R265)
  ivMin   : Int                -- the UTC minute in which the interval in progress began (R267)
  deriving DecidableEq, Repr

/-- What a terminal holds beside its registers (R283, R286 to R291). -/
structure Term where
  settling : Bool           -- OFF for the 10 ms after a mode change
  cmd      : Word           -- drive code commanded, before limits
  src      : Option Nat     -- the point whose output binding commanded it, for RANGE
  pulse    : Option (Nat × Nat)   -- STRIKE_PULSE running: start instant and width in ms
  pair     : Option (Word × Nat)  -- sheaf sequence and action index of the last STRIKE_PULSE (R150)
  trips    : Nat            -- consecutive overcurrent trips
  offAt    : Option Nat     -- switched off by overcurrent since
  faultAt  : Nat
  filt     : Int            -- state of the low-pass filter, in 2^−16 units
  primed   : Bool
  gain     : Word           -- GAIN and OFFS in force (R294)
  offs     : Word
  calWait  : Option (Word × Word)   -- GAIN and OFFS that CAL_APPLY gave, for the next sample
  count2   : Word           -- the count last written by quantity 2,
  at2      : Option Nat     -- its instant,
  at3      : Option Nat     -- and that of quantity 3
  healed   : Option (Nat × Nat)     -- a fault that has cleared, with its duration in ms, until the next sample records it (R288)
  slew     : Option (Nat × Nat)     -- the ms in which the stage last moved, and the code it began it with (R290)
  deriving DecidableEq, Repr

/-- A drive that a sheaf holds for its release instant (R148), or the start-up holds for the first lease (R525). -/
structure Held where
  term  : Nat
  code  : Word
  pulse : Nat               -- width of a STRIKE_PULSE in ms, 0 for a level
  owner : Nat               -- sheaf slot; 32 for start-up
  point : Option Nat
  range : Bool              -- the conversion saturated (R131)
  pair  : Option (Word × Nat)  -- the pair of a STRIKE_PULSE (R150)
  deriving DecidableEq, Repr

/-- A reflex binding (Table 11.8) and its event limiter. -/
structure Reflex where
  words  : List Word        -- BIND0 to BIND7
  blkAt  : Option Nat       -- instant of the last 0x0D07
  deriving DecidableEq, Repr

/-- One entry of the Fallow sampler (R300). -/
structure FsEnt where
  ent : Word
  lo  : Word
  hi  : Word
  run : Nat                 -- consecutive violations
  deriving DecidableEq, Repr

/-- Terminals, reflex matrix and sampler. -/
structure UioSt where
  terms : Sparse Term
  held  : List Held
  hold  : Option Nat           -- drives are being held for this sheaf slot (R148), or for the start-up (32)
  stg   : List Nat             -- GAIN and OFFS registers written since the last apply
  rfx   : Sparse Reflex
  fs    : Sparse FsEnt
  rfxSent : Sparse Word        -- frame a reflex sent, by output binding, not to be sent twice (R296)
  deriving DecidableEq, Repr
/-- What a CAN object was last asked to send by a sheaf (R313): sheaf slot and the local action indices waiting for its
start of frame. -/
structure CanWait where
  slot : Nat
  acts : List Nat
  since   : Nat              -- release instant (R149)
  deriving DecidableEq, Repr

/-- A CAN controller beside its page registers. Objects are words: o × 20 + w (Table 12.1). -/
structure CanSt where
  objs   : Sparse Word
  hash   : Sparse Nat     -- R310: bucket to object number + 1
  tec    : Nat
  rxc    : Nat
  state  : Nat            -- Table 12.2
  recov  : Bool           -- RECOVERING
  alone  : Bool
  ackRun : Nat            -- consecutive attempts ending in an acknowledgement error with no frame received
  ackObj : Nat            -- object of the last attempt
  mode   : Nat            -- mode in effect
  excep  : Bool           -- protocol exception state: integrating to bus idle
  lostAt : Option Nat     -- instant of the last 0x0E07
  tb0    : Nat            -- instant at which the time base was 0
  waits  : Sparse CanWait
  latch  : Sparse (List Byte)   -- data of objects whose frames have begun arbitration and are not yet sent (R313)
  idle   : Bool           -- the lease has returned: NORMAL resumes at bus idle (R315)
  deriving DecidableEq, Repr

/-- One OSDP PD entry (R327): seq is the sequence number of its next command. -/
structure Pd where
  online : Bool
  missed : Nat
  seq    : Nat
  deriving DecidableEq, Repr

/-- A serial engine beside its page registers. Master node states of clause 9 by number:
0 IDLE, 1 USE_TOKEN, 2 WAIT_FOR_REPLY, 3 PASS_TOKEN, 4 NO_TOKEN, 5 POLL_FOR_MASTER, 6 ANSWER_DATA_REQUEST (DONE_WITH_TOKEN is
left at once). -/
structure SerSt where
  mode   : Nat            -- mode in effect
  done   : Sparse Nat     -- STATUS of buffers finished with whose completion waits for earlier ones (R499)
  dup    : Bool
  token  : Bool
  fsm    : Nat
  ns     : Nat            -- next station
  ps     : Nat            -- poll station
  tokCnt : Nat            -- TokenCount
  frmCnt : Nat            -- FrameCount
  retry  : Nat            -- RetryCount
  sole   : Bool           -- SoleMaster
  answer : Nat            -- source of the data frame whose reply is awaited from firmware
  pds    : Sparse Pd
  turn   : Nat            -- next PD entry polled
  wait   : Option Nat     -- PD entry whose reply is awaited
  idle   : Bool           -- the lease has returned: NORMAL takes effect after idle time, or through clause 9's entry (R330)
  deriving DecidableEq, Repr

/-- A queued DALI transaction (R333 to R335). src: 0 TX0, 2 output binding, 3 poll. -/
structure DaliTx where
  frame : Nat
  long  : Bool
  reply : Bool
  twice : Bool
  prio  : Nat
  order : Nat
  src   : Nat
  who   : Nat             -- accessor number or binding index
  tries : Nat
  deriving DecidableEq, Repr

/-- A DALI line beside its page registers. -/
structure DaliSt where
  mode   : Nat
  q      : List DaliTx
  order  : Nat
  cur    : Option DaliTx  -- the transaction that holds the line
  second : Bool           -- the second frame of a send-twice pair is due or on the line
  phase  : Nat            -- 0 waiting for its settling time, 1 forward frame on the line, 2 waiting for the backward frame
  down   : Bool
  downAt : Nat
  heard  : Option (Nat × Bool)  -- forward frame of another controller whose answer may come (R335)
  last   : Sparse Nat     -- order of the last transaction submitted, by accessor
  idle   : Bool           -- the lease has returned: NORMAL takes effect after a settling time (R336)
  deriving DecidableEq, Repr

/-- An IPP datagram the module sends (R94, R102, R103). -/
structure IppMsg where
  port    : Nat
  ip      : BitVec 128
  udp     : Nat
  op      : Nat
  flags   : Nat
  session : Nat
  seq     : Word
  status  : Nat
  payload : List Byte
  deriving DecidableEq, Repr

/-- What an Ethernet frame carries: bytes from the destination address to the last byte before the FCS, an IPP datagram
(whose IP framing the specification leaves to the IP layer, R341), a PTP message, or a PRP supervision frame (R346). -/
inductive EthPay where
  | raw (bytes : List Byte)
  | ipp (m : IppMsg)
  | ptp (bytes : List Byte)
  | supervision
  deriving DecidableEq, Repr

/-- A frame in a transmit queue: its content, the instant it entered, the grain tag formed over it then (R342, R344), the
sheaf slot and local action it carries (R149), and the transmit queue and buffer it came from (R499). -/
structure EthFrame where
  pay   : EthPay
  since : Nat
  tag   : Word
  sheaf : Option (Nat × Nat)
  buf   : Option (Nat × Nat)
  deriving DecidableEq, Repr

/-- A frame template compiled by Stoir (R137): its bytes, the place of the 8 variable bytes, the place of the sheaf pair
(R150), and for Merzin its destination, stream and receive queue (Table 15.4). -/
structure Template where
  bytes  : List Byte
  varAt  : Nat
  pairAt : Option Nat
  dest   : Nat
  stream : Nat
  queue  : Nat
  deriving DecidableEq, Repr

/-- A MAC beside its page registers. -/
structure MacSt where
  link    : Nat           -- Table 14.4
  upAt    : Nat
  everUp  : Bool
  fdx     : Bool
  speed   : Nat
  reason  : Nat
  dup     : Bool
  txq     : List EthFrame
  tries   : Nat           -- attempts of the frame at the head (R350)
  fallback : Bool         -- a PLCA follower has fallen back to CSMA/CD
  test    : Nat           -- test mode of MAC.CMD
  addr    : Option Nat    -- a station address written over the identity's (R352)
  deriving DecidableEq, Repr

/-- A PRP node-table entry: source address and the sequence entries held (R347). -/
structure PrpNode where
  src  : Nat
  seqs : List (Nat × Nat × Nat)   -- sequence, LAN port index and instant of the accepted copy
  since   : Nat
  deriving DecidableEq, Repr

/-- The PRP unit beside its page registers. -/
structure PrpSt where
  nodes  : List PrpNode
  faultA : Bool
  faultB : Bool
  heardA : Nat
  heardB : Nat
  fullAt : Option Nat       -- instant of the last 0x1005
  deriving DecidableEq, Repr

/-- A duplicate-table entry (R373). hist bit k − 1 stands for sequence h − k. -/
structure MzDup where
  high  : Word
  hist  : Nat
  since : Nat
  deriving DecidableEq, Repr

/-- A Merzin port beside its page registers. -/
structure MzpSt where
  link    : Nat             -- Table 15.1
  keyed   : Bool
  neigh   : Nat             -- the neighbour's address,
  nport   : Nat             -- and its port (Table 15.5)
  key0    : Option (List Word)
  key1    : Option (List Word)
  txCnt0  : Nat
  txCnt1  : Nat
  rxCnt0  : Nat             -- last accepted counter + 1, by slot
  rxCnt1  : Nat
  fails   : Nat             -- consecutive tag failures
  delays  : List Nat        -- last 16 delay results
  echoTx  : Nat             -- T_TX of the last LINK frame received
  echoAt  : Nat             -- and its arrival
  lastLink : Nat
  tagAt   : Option Nat      -- instants of the last 0x1103 and 0x1105, and of the drops of the last second
  tagN    : List Nat
  budAt   : Option Nat
  budN    : List Nat
  deriving DecidableEq, Repr

/-- A frame whose header has been accepted and whose tail has not come (R373): its budget is already reduced; old is the table
entry before it, to which a failed copy falls back; held is a second copy received store-and-forward, and good tells that its
tail has passed. -/
structure MzFlight where
  frame : MzFrame
  port  : Nat
  outs  : List Nat
  old   : Option MzDup
  held  : Bool
  good  : Bool
  deriving DecidableEq, Repr

/-- The Merzin switch beside its page registers. -/
structure MzSt where
  ports   : Sparse MzpSt
  dups    : Sparse MzDup    -- keyed SRC × 256 + STREAM
  flights : List MzFlight
  seqs    : Sparse Word     -- by stream: last sequence sent
  early   : Sparse Nat      -- by stream: frames sent since the restart, up to 16 (RESYNC)
  fwdMax  : Nat             -- longest forwarding latency of the second in progress
  dupAt   : Option Nat
  reqId   : Word            -- last REQ_ID used
  hold    : List (Nat × MzFrame)   -- frames of the start-up steps, held for the first lease grant (R525)
  deriving DecidableEq, Repr

/-- What a half has handed to its transmitters: the model's own record, which no rule reads. -/
inductive Sent where
  | eth (port : Nat) (pay : EthPay) (rct : List Byte) (good : Bool)   -- the trailer of R346, and whether the FCS is good (R344)
  | mz (port : Nat) (f : MzRx)
  | ser (engine type dest seq : Nat) (bytes : List Byte)
  | dali (line frame : Nat) (long : Bool)
  | can (controller object : Nat) (data : List Byte)
  | beacon (port : Nat)
  deriving DecidableEq, Repr

/-- The descriptor queues of one half (R499): addresses by queue, descriptors posted since the start by
queue, and the policy cores' queue registers. -/
structure QueSt where
  q   : Sparse (List Nat)
  seq : Sparse Word
  sel : Sparse Nat             -- kzqsel of each policy core (Table 20.1)
  full : List Nat              -- cores whose kzqstat.FULL is set
  deleg : List Nat             -- cores whose kzdeleg bit 0 is set
  popped : Sparse Nat          -- what each core's last kzqpop returned
  deriving DecidableEq, Repr
/-- A foster pack: its sequence and its bytes. -/
structure Pack where
  seq   : Word
  bytes : List Byte
  deriving DecidableEq, Repr

/-- What an Announce message said of a grandmaster, and who sent it (IEEE 1588-2019). -/
structure PtpAnn where
  prio1  : Nat
  cls    : Nat
  acc    : Nat
  var    : Nat
  prio2  : Nat
  gm     : Nat
  steps  : Nat
  src    : Nat
  srcPort : Nat
  utcOff : Int
  utcOk  : Bool
  leap61 : Bool
  leap59 : Bool
  deriving DecidableEq, Repr

/-- A foster slot (Table 16.7): the protected address, the state and flags, the PACK_SEQ held, the buses taken and those that did not
pass the check yet, SLOT_PBASE, the handback mask, the instant of the last HEARTBEAT, the running pack held, the configuration pack
held in flash, the fragments of the pack arriving, the original indices of the points at SLOT_PBASE, and the last pack the instance
sent. On a protected side, slot 2 is the return pack's. -/
structure FostSlot where
  addr     : Nat
  st       : Nat
  mismatch : Bool
  asleep   : Bool
  seq      : Word
  buses    : Nat
  pending  : Nat
  pbase    : Word
  hb       : Dword
  beatAt   : Nat
  pack     : Option Pack
  cfgPack  : Option Pack
  frags    : Sparse (List Byte)
  fragSeq  : Word
  pts      : List Nat
  outSeq   : Word
  deriving DecidableEq, Repr

/-- The protected side (Table 16.6: its state, MISMATCH, the running pack last acknowledged and when, the pack last sent, the buses the
foster holds, whether a QUERY is unanswered, the Dormant notice (R401: 1 sent, 2 STATUS with ASLEEP has arrived), own shared buses left
in LISTEN by the check of R399, packs that wait for their instant (bit 0 running, bit 1 configuration), and the pack sent and not
acknowledged) and the foster slots. -/
structure FostSt where
  self     : Nat
  mismatch : Bool
  ackSeq   : Word
  ackAt    : Option Nat
  sentSeq  : Word
  held     : Nat
  slots    : Sparse FostSlot
  query    : Bool
  sleeping : Nat
  blocked  : Nat
  dirty    : Nat
  out      : Option Pack
  deriving DecidableEq, Repr

/-- A PTP port: st (R429): 0 not enabled, 1 INITIALIZING, 2 FAULTY, 3 DISABLED, 4 LISTENING, 5 PRE_MASTER, 6 MASTER, 7 PASSIVE,
8 UNCALIBRATED, 9 SLAVE; best: the port's best Announce; the outstanding Delay_Req; the last Sync. -/
structure PtpPort where
  st      : Nat
  best    : Option PtpAnn
  reqSeq  : Nat
  reqAt   : Option Int        -- the instant the Delay_Req left
  syncT1  : Int               -- t1 and t2 of the last Sync, its correction taken off
  syncT2  : Int
  syncSeq : Nat
  waitFup : Bool              -- a two-step Sync waits for its Follow_Up
  seqSync : Nat
  seqAnn  : Nat
  unmatched : Nat             -- Pdelay messages discarded (R424)
  annAt   : Nat               -- the half's instant of the last Announce taken, and of the last Sync of the port's master
  syncAt  : Nat
  deriving DecidableEq, Repr

/-- The time base beside its page registers: the source state (Table 17.3), consecutive Sync offsets within ±1 µs, the mean path
delay and the rate applied, and when HOLDOVER began. -/
structure TimSt where
  ports   : Sparse PtpPort
  source  : Nat
  good    : Nat
  offset  : Int
  mpd     : Int
  rate    : Int
  frac    : Nat               -- the time base's fraction, in units of 10^-9 ns (R419)
  master  : Option PtpAnn      -- the slave port's master
  holdAt  : Nat
  deriving DecidableEq, Repr

/-- The real-time clock (R408 to R418): local civil time, the Yoke's instant at which its second began (from which the divider is
counted), the zone, and STAT's stored bits. -/
structure Rtc where
  secAt : Int
  sec   : Nat
  min   : Nat
  hour  : Nat
  day   : Nat
  month : Nat
  year  : Nat
  dst   : Bool
  taiUtc : Nat
  offset : Int
  osf   : Bool
  vlow  : Bool
  valid : Bool
  swo   : Bool                -- SWO_VALID
  backup : Bool
  user  : Bool                -- COMP_USER
  calEnd : Bool
  pend  : Nat                 -- pending summer-time command: 0 none, 1 on, 2 off
  leap  : Nat                 -- announced leap at the end of the UTC day: 0 none, 1 leap61, 2 leap59
  held  : Bool                -- the extra second of leap61 is running
  utcNew : Option Nat         -- TAI_UTC to take at the next second boundary (R423)
  reload : Bool               -- reload from the time base at the next second boundary
  comp  : Option (List Word)  -- active coefficients C0 to C3; none: the factory set
  apply_ : Option Stamp       -- COMP_PENDING, with the writer of COMP_APPLY
  compN : Int
  temp  : Int
  swoTime : Dword
  swoCnt : Nat
  late  : List Event          -- losses of time that no running half has recorded
  almAt : Nat                 -- the instant from which ALM_IVL counts SECONDS (R418)
  deriving DecidableEq, Repr
/-- Half roles (Table 16.1). -/
inductive Role where
  | booting | inCharge | follower | muted | retired
  deriving DecidableEq, Repr

/-- One half as the Yoke sees it: its role, when it reported READY while it waits for its role (Table 16.2), its last self-check
status, the instants of its retirements counted in the last 24 h (R382), whether it stands in retention in Fallow (R464), whether
it has declared the Yoke lost (R391), the start-up steps still to run when it reports READY after a rejoin, with the restart causes
to set (Table 22.2), its power-fail store not yet ended (R454), and its VCORE (R458): in units of 0.1 mV, AT_MAX and AT_MIN. -/
structure YHalf where
  role    : Role
  ready   : Option Nat
  clean   : Bool
  retired : List Nat
  inRet   : Bool
  lost    : Bool
  boot    : Option Nat
  storing : Bool
  vcore   : Nat
  atMax   : Bool
  atMin   : Bool
  deriving DecidableEq, Repr

/-- A state transfer in progress (R390): the joining half, the current round, and the MiB copied in round 1. -/
structure Xfer where
  half  : HalfId
  round : Nat
  mib   : Nat
  since : Nat
  deriving DecidableEq, Repr

/-- A nonvolatile shadow bank of the granary (R437, R442). st: Table 18.6; image: the stored array by byte; the trailer's fields (Table
18.4), its CRC where the trailer was written after the image. -/
structure Bank where
  st    : Nat
  image : Sparse Byte
  seq   : Word
  count : Word
  kind  : Nat
  crc   : Option Word
  deriving DecidableEq, Repr

/-- A store in progress (R437): kind, target bank, captured image, capture instant, accessor that commanded it. -/
structure Store where
  kind  : Nat
  bank  : Nat
  image : Sparse Byte
  since    : Nat
  who   : Option Nat
  deriving DecidableEq, Repr

/-- The granary of one half. array holds the 16,384 bytes of the volatile array. -/
structure GrnSt where
  array   : Sparse Byte
  cfgMap  : Sparse Byte        -- the configured allocation map (R431), by page
  recMap  : Sparse Byte        -- the recalled map bytes
  bank0   : Bank
  bank1   : Bank
  current : Option Nat
  curSeq  : Word               -- SEQ from which the next store counts (R438)
  frozen  : Bool
  recSt   : Nat
  recKind : Nat
  count   : Word               -- GRN.STORE_CNT
  wear    : Bool
  request : Option (Nat × Option Nat)   -- a store that has been accepted and waits for its capture: kind, accessor
  busy    : Option Store
  lastCap : Option Nat         -- instant of the last commanded or periodic capture of this run
  startAt : Nat
  lastDone : Option Nat        -- completion of the last store of this run
  lastStat : Word              -- outcome of the last store of any kind
  accStat : Sparse Word        -- STORE_STAT of each accessor that has commanded a store
  deriving DecidableEq, Repr

/-- An entry to a low-power state in progress (R462). -/
structure Entry where
  target  : Nat
  tag     : Nat
  waiting : List (HalfId × Nat)     -- pages that have not yet answered ACCEPT
  accepted : List (HalfId × Nat)
  delays  : List (HalfId × Nat × Nat)  -- DELAY answers counted by page
  paused  : List (HalfId × Nat)     -- pages whose DELAY is running
  since   : Sparse Nat              -- by page, 65536 more for Half B: the instant of its last request, or of its DELAY
  deriving DecidableEq, Repr

/-- The power sequencer and supplies (R451 to R466). held: the halves are held in reset; due: a start is to come, with the causes of
Table 22.2 gathered for it, cold where R526 asks it beside what the granary shows; rstAt: RST_N has been low since; thermal: held
off by the thermal shutdown (R515). -/
structure PwrSt where
  state  : Nat                -- Table 19.3
  entry  : Option Entry
  stat   : Word
  pfw    : Bool
  holdup : Bool
  lowA   : Bool
  lowB   : Bool
  wake   : Word
  wakeT  : Dword
  tag    : Nat
  entryAt : Nat
  held   : Bool
  due    : Bool
  causes : Nat
  cold   : Bool
  rstAt  : Option Nat
  thermal : Bool
  railBad : Sparse Nat        -- consecutive samples of a rail outside its window
  railOk  : Sparse Nat        -- and inside it
  railOut : List Nat          -- rails with OUT set
  railMv : Sparse Nat
  tempA  : Int
  tempB  : Int
  hotAt  : Nat                -- the instant of the last sample in which a sensor stood above 95 °C
  deriving DecidableEq, Repr

/-- The MGT port: the response held for the next read transaction (R471). -/
structure MgtSt where
  status : Nat
  rsp    : List Byte
  acked  : Bool               -- the last address match was acknowledged
  wait   : Option MgtReq      -- a READ or WRITE stalled under R58: the response is BUSY
  deriving DecidableEq, Repr
/-- An image slot of one half (Table 20.5): its state, LAST_VER, the ROLLBACK and DATA_FMT of its firmware part, whether the image last loaded into it
carries a Yoke section, the MODULE and VERSION of its configuration part, and the images in its two parts, as loaded; empty: none. -/
structure UpdSlot where
  st    : Nat
  ver   : Word
  roll  : Nat
  fmt   : Word
  yoke  : Bool
  cfgMod : Nat
  cfgVer : Word
  fw    : List Byte
  cfg   : List Byte
  deriving DecidableEq, Repr

/-- A load in progress (R483): its target slot or 2 for the recovery area, the bytes received, the blocks verified, the copy of the
other part in progress (R484), the stamp that opened it, and the instant of the last accepted write. -/
structure Load where
  target : Nat
  bytes  : List Byte
  blocks : Nat
  copy   : Bool
  stamp  : Stamp
  since  : Nat
  deriving DecidableEq, Repr

/-- What a migration saves (R491): the LPDDR policy area, the POLICY pages of the granary, and the format of the data. -/
structure Saved where
  lpddr : Sparse Byte
  pages : List (Nat × List Byte)
  fmt   : Word
  deriving DecidableEq, Repr

/-- The update unit of one half: its slots and recovery area in flash, the slot it runs and the one its next start takes, whether it
runs the recovery image (R495), the load in progress, the format recorded for its data (R491), its saved data area, and its
migration: under way, or done. -/
structure UpdSt where
  slots : Sparse UpdSlot
  recov : List Byte
  run   : Nat
  next  : Nat
  recovery : Bool
  load  : Option Load
  rxOff : Nat
  rxStat : Word
  dataFmt : Word
  saved : Option Saved
  migrating : Bool
  migrated  : Bool
  flashLog  : Sparse Byte
  deriving DecidableEq, Repr

/-- The owner keys of a half's SEC page, held in flash (R498). -/
structure SecSt where
  key  : Option (List Word)
  prev : Option (List Word)
  deriving DecidableEq, Repr

/-- A stored event record (Table 21.1); src is SOURCE. -/
structure EvRec where
  code : Nat
  src  : Nat
  seq  : Word
  time : Dword
  p0   : Nat
  p1   : Nat
  p2   : Nat
  p3   : Nat
  deriving DecidableEq, Repr

/-- The event recorder of one half beside its page registers: the slots, the events that have arisen and wait for the
recorder, whether the recorder has been restored since the start (R510), and the instant of the last FREEZE. -/
structure EvrSt where
  recs     : Sparse EvRec
  arising  : List Event
  restored : Bool
  frozenAt : Nat
  deriving DecidableEq, Repr

/-- The health monitors of one half (R515 to R519): instants of the last 0x1303, consecutive windows below and at or
above 6,956, corrections in the scrub pass in progress and its start. -/
structure HlthSt where
  bad     : Sparse Nat     -- SRAM lines that hold an uncorrectable error, with the first bad symbol (R15, R518)
  corrAt  : Option Nat
  low     : Nat
  high    : Nat
  lowPace : Bool
  warn    : Bool
  uncorr  : Bool
  passCor : Nat
  passAt  : Nat
  hot     : List Nat
  deriving DecidableEq, Repr

/-- A policy core (R475): its program counter, its mode (supervisor or machine), its integer registers x1 to x31, and its control and
status registers by number, the 16 entries of physical memory protection among them. -/
structure PolicyCore where
  pc  : Dword
  sup : Bool
  x   : Sparse Dword
  csr : Sparse Dword
  deriving DecidableEq, Repr

/-- One half. -/
structure Half where
  self    : HalfId           -- the die's own strap (SYS.HALF)
  regs    : Sparse Word
  dir     : Sparse PageDir
  accs    : Sparse Acc
  stalled : List Stalled
  up      : Nat
  tai     : Dword
  sess    : Sparse Session
  rates   : Sparse PortRate
  fwds    : List Forward
  ptab    : PtabSt
  shf     : ShfSt
  drl     : DrlSt
  tlr     : TlrSt
  nrg     : NrgSt
  uio     : UioSt
  can     : Sparse CanSt
  ser     : Sparse SerSt
  dali    : Sparse DaliSt
  mac     : Sparse MacSt
  prp     : PrpSt
  mz      : MzSt
  fost    : FostSt
  tim     : TimSt
  grn     : GrnSt
  upd     : UpdSt
  sec     : SecSt
  evr     : EvrSt
  hlth    : HlthSt
  wdogAt  : Nat              -- instant of the last restart of the watchdog (R386)
  lpddr   : Sparse Byte
  cores   : Sparse PolicyCore   -- the four policy cores
  tcm     : Sparse Byte         -- their tightly coupled memory of 4 MiB, by offset (Table 1.3)
  que     : QueSt
  tmpl    : Sparse Template
  sent    : List Sent
  outRecs : List OutRec      -- output records produced and not yet at the output stage's comparison (R20, R151)
  fresh   : Nat              -- the model's own: free values taken so far
  deriving DecidableEq, Repr

/-- The activation or rollback in progress (R488 to R494): phase (Table 20.11), slot, version, SINGLE, the writer's stamp, the half
that restarts or has last restarted from the slot, the instant a migration began, whether the sequence is a rollback and why (Table
20.9), the instant of the last such restart, the start of the probation, the slot that was ACTIVE before, the start of the trial, and whether the Yoke has reloaded. -/
structure Activation where
  phase  : Nat
  slot   : Nat
  ver    : Word
  single : Bool
  stamp  : Stamp
  who    : Option HalfId
  migAt  : Nat
  back   : Bool
  cause  : Nat
  since  : Nat
  probAt : Nat
  was    : Nat
  trialAt : Nat
  yoke   : Bool
  deriving DecidableEq, Repr

/-- The Yoke: the two halves' roles, the lease (R383: holder and EPOCH; latched: the output stage's latch is in force, R391;
granted: a lease has been granted since the start), the cross-link and state transfer (R389, R390), the output records that
wait for the other half's (R387), the challenge since its first difference (R388), the handover in wait (R385), the microcode hold
(R392), when the Yoke was lost (R391), whether the bypass relays are closed (R362), the event records held while the halves are off
(R511), the activation, the anti-rollback counter (R487), the registers of the pages that lie in the Yoke, its own count of
nanoseconds, and the always-on units. -/
structure Yoke where
  a       : YHalf
  b       : YHalf
  holder  : Option HalfId
  epoch   : Nat
  renewAt : Nat              -- instant of the last grant or renewal (R383)
  latched : Bool
  granted : Bool
  hold    : Bool
  relay   : Bool
  xup     : Bool
  retries : Nat
  xfer    : Option Xfer
  handover : Option Stamp
  outs    : List (HalfId × OutRec)
  chall   : Option Nat
  lostAt  : Nat
  recs    : List Event
  recsLost : Nat
  act     : Activation
  arb     : Nat
  regs    : Sparse Word
  now     : Nat
  rtc     : Rtc
  pwr     : PwrSt
  mgt     : MgtSt
  deriving DecidableEq, Repr

/-- The module: its two halves, the Yoke, and the commands that wait, the oldest first. -/
structure State where
  a       : Half
  b       : Half
  yoke    : Yoke
  pending : List Instr
  deriving DecidableEq, Repr

/-- The program of an empty bank (R181). -/
def programEmpty : Program := ⟨false, 0, 0, 0, false, 0, [], [], [], [], [], [], [], [], []⟩

/-- An erased shadow bank of the granary (Table 18.6). -/
def bankEmpty : Bank := ⟨0, [], 0, 0, 0, none⟩

/-- A half at reset: every register at its reset value, nothing held. -/
def halfReset (h : HalfId) : Half where
  self := h
  regs := []
  dir := []
  accs := []
  stalled := []
  up := 0
  tai := 0
  sess := []
  rates := []
  fwds := []
  ptab := ⟨[], [], [], [], [], [], [], [], [], [], none⟩
  shf := ⟨[], [], [], [], []⟩
  drl := ⟨[], programEmpty, programEmpty, [], [], false, [], [], [], [], 0, 0, 0, 0, []⟩
  tlr := ⟨[], [], []⟩
  nrg := ⟨[], [], [], [], [], 0, 0, [], [], [], [], [], [], [], [], false, -1, -1⟩
  uio := ⟨[], [], none, [], [], [], []⟩
  can := []
  ser := []
  dali := []
  mac := []
  prp := ⟨[], false, false, 0, 0, none⟩
  mz := ⟨[], [], [], [], [], 0, none, 0, []⟩
  fost := ⟨0, false, 0, none, 0, 0, [], false, 0, 0, 0, none⟩
  tim := ⟨[], 0, 0, 0, 0, 0, 0, none, 0⟩
  grn := ⟨[], [], [], bankEmpty, bankEmpty, none, 0, false, 0, 0, 0, false, none, none, none, 0, none, 0, []⟩
  upd := ⟨[(0, ⟨3, 0, 0, 0, false, 0, 0, [], []⟩)], [], 0, 0, false, none, 0, 0, 0, none, false, false, []⟩
  sec := ⟨none, none⟩
  evr := ⟨[], [], false, 0⟩
  hlth := ⟨[], none, 0, 0, false, false, false, 0, 0, []⟩
  wdogAt := 0
  lpddr := []
  cores := []
  tcm := []
  que := ⟨[], [], [], [], [], []⟩
  tmpl := []
  sent := []
  outRecs := []
  fresh := 0

/-- No activation or rollback (Table 20.11). -/
def actReset : Activation := ⟨0, 0, 0, false, 0, none, 0, false, 0, 0, 0, 0, 0, false⟩

/-- The RTC at the module's first power-up (Table 17.7): 2000-01-01 00:00:00, a Saturday, OSF set, TAI_UTC 37, the factory coefficients. -/
def rtcReset : Rtc :=
  ⟨0, 0, 0, 0, 1, 1, 2000, false, 37, 0, true, false, false, false, false, false, false, 0, 0, false, none, false, none, none, 0, 0, 0, 0, [], 0⟩

/-- The power sequencer of a module that has just left reset: WORKING, and a start to come with the cause POWER_ON (Table 22.2). -/
def pwrReset : PwrSt := ⟨0, none, 0, false, false, false, false, 0, 0, 0, 0, false, true, 1, false, none, false, [], [], [], [], 0, 0, 0⟩

/-- A half as the Yoke sees it when it leaves reset (R524): BOOTING, VCORE at 0.80 V. -/
def yhalfReset : YHalf := ⟨.booting, none, true, [], false, false, none, false, 8000, false, false⟩

/-- The Yoke at reset: no lease, EPOCH 0, both relays closed. -/
def yokeReset : Yoke :=
  ⟨yhalfReset, yhalfReset, none, 0, 0, false, false, false, true, false, 0, none, none, [], none, 0, [], 0, actReset, 0, [], 0, rtcReset,
   pwrReset, ⟨0, [], false, none⟩⟩

/-- The module right after reset: both halves have left reset as BOOTING and nothing has been commanded yet (R524). -/
def State.reset : State := ⟨halfReset .a, halfReset .b, yokeReset, []⟩

end Sys2Proof.Machine
end

