-- ==== Sys2Proof/Config.lean ====
section
/-! DEFINITION. What an implementation fixes, and the free values: constants without a body, of which nothing can be proved
but what every value of them meets. -/
namespace Sys2Proof

/-- The ADDR_STRAP value latched at the start (R538). (Log entry 12.) -/
opaque Config.addrStrap : Nat

/-- The program that the words of a bank hold: the specification lists what a bank's header carries (R181) and leaves its
layout to Stoir. (Log entry 13.) -/
opaque Config.bankProgram : Machine.Sparse Word → Option Machine.Program

/-- The NaN that a conversion between binary32 and binary64 makes of a NaN: its sign and payload are not given (R196). (Log entry 24.) -/
opaque Config.nanBits : Nat → Nat

/-- FTI of a NaN: the specification states no integer for it (R194). (Log entry 24.) -/
opaque Config.ftiNan : Dword → Dword

/-- REC after a reception that found it above 127: ISO 11898-1 gives a range of nine values. (Log entry 48.) -/
opaque Config.canRec : Nat → Nat

/-- How a word of the CAN hash directory shows what its bucket holds (R308 gives its size alone). (Log entry 48.) -/
opaque Config.canDirWord : Nat → Word

/-- What a register shows of a quantity that the module measures and no command carries in: by register key and instant. (Log entry 11.) -/
opaque Config.measured : Nat → Nat → Nat

/-- The first EUI-48 of the device identity's block (R341). (Log entry 12.) -/
opaque Config.euiBase : Nat

/-- The time in ns a forwarded frame spends between an incoming and an outgoing land (R372, R378). (Log entry 52.) -/
opaque Config.residence : Nat → Nat

/-- The factory coefficients of the RTC's crystal (R414). (Log entry 12.) -/
opaque Config.compFactory : Nat → Word

/-- The rate that the time servo applies for an offset in ns (R419, R421 bound it and give no law). (Log entry 28.) -/
opaque Config.steer : Int → Int

/-- The module's PTP clockIdentity (IEEE 1588-2019). (Log entry 12.) -/
opaque Config.clockIdentity : Nat

/-- clockAccuracy and offsetScaledLogVariance of the module's own time base. (Log entry 12.) -/
opaque Config.clockQuality : Nat × Nat

/-- What the plaintext of a configuration image holds for one of its parts, by index: the specification names the parts (Table 22.1,
R530) and leaves the layout to Stoir. Part 0: register words by key. 1: the allocation map, a byte by page. 2: words of the active
Drill bank. 3: words of Tiller descriptors. 4: words of CAN objects, by controller × 2^16 + word. 5: frame templates. 6: point
records, 32 bytes each. 7: priority-array slots. 8, 9: source and output binding descriptors. 10: M_CFG of meters. 11: reflex
bindings. 12: publication subscriptions. 13: the foster's controller by shared bus. 14, by slot × 8: the reserve of a foster slot, with 0
its hash, 1 its granary pages, 2 its Tiller descriptors, 3 their loops, 4 its Drill tasks, 5 their compiled hash, 6 SLOT_ADDR and
SLOT_PBASE. 15: loops that run, each with its descriptor. 16: a pack's parts that Stoir compiles, with 0 RESERVE_HASH, 1 the granary
pages of the bus subset, 3 the bytes of DRILL. (Log entry 13.) -/
opaque Config.cfgPart : List Byte → Nat → List (Nat × List Nat)

/-- The device-class private key, which never leaves the crypto engine (R480), and its identifier (Table 20.12). (Log entry 12.) -/
opaque Config.classKey : Nat

/-- SEC.CLASS. (Log entry 12.) -/
opaque Config.classId : Nat

/-- The Klokezor signer keys accepted: KEY_ID, 0 for none, and the public key, by number (R481). (Log entry 12.) -/
opaque Config.kzKeyId : Nat → Nat

/-- Their public keys. (Log entry 12.) -/
opaque Config.kzKey : Nat → Nat × Nat

/-- The serial number (Table 20.12). (Log entry 12.) -/
opaque Config.serial : Nat

/-- The device identity's private key (R498). (Log entry 12.) -/
opaque Config.idKey : Nat

/-- The device identity passes its start-up check (Table 20.13). (Log entry 12.) -/
opaque Config.idOk : Bool

/-- The ephemeral private key of an ECDH job, by the count of free values taken (Table 20.17). (Log entry 60.) -/
opaque Config.ephemeral : Nat → Nat

/-- The nonce of a SIGN_ID signature, by the count of free values taken. (Log entry 60.) -/
opaque Config.signNonce : Nat → Nat

/-- What an ECDH job answers for a peer key that is no point of P-384: the specification states neither STATUS nor output. (Log entry 60.) -/
opaque Config.ecdhBad : List (BitVec 8) → Nat × List (BitVec 8)

/-- The KEY_ID of an owner key (Table 20.12): the specification does not say how it comes from the key. (Log entry 12.) -/
opaque Config.ownerKeyId : List (BitVec 32) → Nat

/-- The Yoke accepts the microcode section that a plaintext ends with (R484). (Log entry 29.) -/
opaque Config.yokeSection : List (BitVec 8) → Bool

/-- The cause in event 0x0605 of an abort for which the specification lists no code: 1 a refused HANDOVER, 2 no FOLLOWER within 10 s, 3 a
failed migration, 4 a failed Yoke reload (R489, R496). (Log entry 29.) -/
opaque Config.abortCause : Nat → Nat

/-- The programs that policy firmware has saved in the flash log area, as bank words, the newest first (R177, R182): the layout is the
firmware's. (Log entry 72.) -/
opaque Config.savedPrograms : Machine.Sparse Byte → List (Machine.Sparse Word)

/-- The SRAM line that holds the data at an address: the allocation of Table 1.3 is fixed by hardware and Stoir, and no offsets are given.
(Log entry 76.) -/
opaque Config.sramLine : Nat → Nat

/-- The value that synchronous resampling and the delay of R252 find between the samples of an input: from its samples, at a place in
units of 1/128,000,000 of the sampling period. (Log entry 73.) -/
opaque Config.interpolated : List Int → Int → Int

/-- What event 0x0C06 gives as the outage (0) and M_TAIL as the bound (1) while SWO_VALID is 0: R415 calls the collapse time unknown.
(Log entry 74.) -/
opaque Config.collapseUnknown : Nat → Nat

/-- The module addresses that a configuration image knows (R142): the specification asks that a remote action's module be a configured
one and gives no place for the list. (Log entry 71.) -/
opaque Config.moduleConfigured : List Byte → Nat → Bool

end Sys2Proof
end

