-- ==== Sys2Proof/Machine/Bits.lean ====
section
/-! DEFINITION. Bit fields, little-endian bytes (R7) and sparse maps. -/
namespace Sys2Proof.Machine

/-- Bits [lo + n − 1 : lo] of a number. -/
def nfld (x lo n : Nat) : Nat := x / 2 ^ lo % 2 ^ n

/-- A number with w bits from offset o replaced by x. -/
def putBits (n o w x : Nat) : Nat := n - nfld n o w * 2 ^ o + x % 2 ^ w * 2 ^ o

/-- Bits [lo + n − 1 : lo] of a word, as a number. -/
def fld (w : Word) (lo n : Nat) : Nat := nfld w.toNat lo n

/-- Bit i of a word. -/
def flag (w : Word) (i : Nat) : Bool := w.getLsbD i

/-- A number as a register word. -/
def word (n : Nat) : Word := BitVec.ofNat 32 n

/-- The word with its bits [lo + n − 1 : lo] replaced by v. -/
def putFld (w : Word) (lo n v : Nat) : Word :=
  word (w.toNat - fld w lo n * 2 ^ lo + v % 2 ^ n * 2 ^ lo)

/-- The word with bit i set to b. -/
def putFlag (w : Word) (i : Nat) (b : Bool) : Word :=
  if b then w ||| word (2 ^ i) else w &&& ~~~ word (2 ^ i)

/-- A 64-bit value from its low and high words (R7). -/
def dword (lo hi : Word) : Dword := BitVec.ofNat 64 (lo.toNat + hi.toNat * 2 ^ 32)

/-- The low word of a 64-bit value. -/
def loWord (d : Dword) : Word := word d.toNat

/-- The high word of a 64-bit value. -/
def hiWord (d : Dword) : Word := word (d.toNat / 2 ^ 32)

/-- The n low bytes of a number, lowest first (R7). -/
def leBytes : Nat → Nat → List Byte
  | 0, _ => []
  | n + 1, x => BitVec.ofNat 8 x :: leBytes n (x / 256)

/-- The number a list of bytes holds, lowest byte first (R7). -/
def leNat : List Byte → Nat
  | [] => 0
  | b :: bs => b.toNat + 256 * leNat bs

/-- n bytes of a list from an offset, as a number. -/
def leAt (bs : List Byte) (off n : Nat) : Nat := leNat ((bs.drop off).take n)

/-- The number a list of bytes holds, highest byte first (network order). -/
def beNat (bs : List Byte) : Nat := leNat bs.reverse

/-- n bytes of a list from an offset in network order, as a number. -/
def beAt (bs : List Byte) (off n : Nat) : Nat := beNat ((bs.drop off).take n)

/-- The n low bytes of a number in network order. -/
def beBytes (n x : Nat) : List Byte := (leBytes n x).reverse

/-- The bits set in a number below 2^n, rising. -/
def bitsOf (n x : Nat) : List Nat := (List.range n).filter (fun i => x.testBit i)

/-- The number with the listed bits set. -/
def maskOf (l : List Nat) : Nat := l.foldl (fun a i => a ||| 2 ^ i) 0

/-- Forward distance of R62. -/
def seqDist (n s a : Nat) : Nat := (s + 2 ^ n - a % 2 ^ n) % 2 ^ n

/-- R62: s is newer than a. -/
def seqNewer (n s a : Nat) : Bool := 1 ≤ seqDist n s a && seqDist n s a ≤ 2 ^ (n - 1) - 1

/-- R62: s is older than a: neither a repeat nor newer. -/
def seqOlder (n s a : Nat) : Bool := seqDist n s a ≠ 0 && !seqNewer n s a

/-- What a sparse map holds under a key. -/
def sfind {α : Type} : Sparse α → Nat → Option α
  | [], _ => none
  | (k, v) :: m, i => if k = i then some v else sfind m i

/-- The map with an entry put at its place. -/
def sput {α : Type} : Sparse α → Nat → α → Sparse α
  | [], i, v => [(i, v)]
  | (k, w) :: m, i, v =>
    if i < k then (i, v) :: (k, w) :: m else if i = k then (i, v) :: m else (k, w) :: sput m i v

/-- The map without an entry. -/
def sdel {α : Type} (m : Sparse α) (i : Nat) : Sparse α := m.filter (fun e => decide (e.1 ≠ i))

/-- Reads a map whose unlisted keys read as d. -/
def sget {α : Type} (d : α) (m : Sparse α) (i : Nat) : α := (sfind m i).getD d

/-- Writes a map whose unlisted keys read as d: writing d removes the entry. -/
def sset {α : Type} [DecidableEq α] (d : α) (m : Sparse α) (i : Nat) (v : α) : Sparse α :=
  if v = d then sdel m i else sput m i v

/-- Keys strictly rising. -/
def sorted {α : Type} : Sparse α → Bool
  | [] => true
  | (k, _) :: m => m.all (fun e => k < e.1) && sorted m

/-- The canonical form of a map whose unlisted key k reads as d k. -/
def swf {α : Type} [DecidableEq α] (d : Nat → α) (m : Sparse α) : Bool :=
  sorted m && m.all (fun e => decide (e.2 ≠ d e.1))

/-- The lowest number below n that is no key of the map. -/
def sfree {α : Type} (m : Sparse α) (n : Nat) : Option Nat :=
  (List.range n).find? (fun i => (sfind m i).isNone)

/-- Changes an element of a list by its place. -/
def lmod {α : Type} (l : List α) (i : Nat) (f : α → α) : List α :=
  match l, i with
  | [], _ => []
  | x :: xs, 0 => f x :: xs
  | x :: xs, i + 1 => x :: lmod xs i f

/-- A list with a number put in at its rising place, once. -/
def insNat (l : List Nat) (x : Nat) : List Nat :=
  match l with
  | [] => [x]
  | y :: ys => if x < y then x :: y :: ys else if x = y then y :: ys else y :: insNat ys x

/-- One byte into a CRC-32C (reflected polynomial 0x82F6_3B78). -/
def crc32cByte (c : Nat) (b : Byte) : Nat :=
  (List.range 8).foldl (fun c _ => if c.testBit 0 then (c / 2) ^^^ 0x82F63B78 else c / 2) (c ^^^ b.toNat)

/-- CRC-32C of bytes, with initial value and final complement of ones. -/
def crc32c (l : List Byte) : Nat := l.foldl crc32cByte 0xFFFFFFFF ^^^ 0xFFFFFFFF

/-- Adds up to a largest value (R60: a counter that sticks). -/
def stickTo (top a n : Nat) : Nat := min (a + n) top

end Sys2Proof.Machine
end

