-- ==== Sys2Proof/Machine/RegMap.lean ====
section
/-! DEFINITION. The register pages: which page numbers are assigned (Table 2.2), the common header (Table 2.3), and the
register map of every block, one row per register or group of like registers. -/
namespace Sys2Proof.Machine

/-- Access types (Table 0.4). -/
inductive RegAcc where
  | rw | ro | w1c | w1s | wo | rs | st
  deriving DecidableEq, Repr

/-- A row of a register map: byte offset of its first register, number of registers, distance between them, words of one
register (R54), access type, reset value, writable bits, Lockable (R36), counted in PG_GEN when a write changes it (R47),
one view per accessor, and the port classes that may write it (R551; bit c for class c). -/
structure RegRow where
  off    : Nat
  n      : Nat
  stride : Nat
  words  : Nat
  acc    : RegAcc
  reset  : Nat
  mask   : Nat
  lock   : Bool
  gen    : Bool
  perAcc : Bool
  cls    : Nat
  deriving DecidableEq, Repr

/-- The kinds of block (Table 2.2). -/
inductive Blk where
  | sys
  | fence
  | ports
  | sess
  | ptab
  | shf
  | drl
  | drlc
  | tlr
  | nrg
  | nvs
  | nci
  | uiog
  | rfx
  | can
  | ser
  | dali
  | mac
  | prp
  | mz
  | mzp
  | yoke
  | fost
  | rtc
  | ptp
  | grn
  | pwr
  | mgt
  | upd
  | sec
  | evr
  | hlth
  deriving DecidableEq, Repr

/-- The block a page number names, its instance, and the page number of the kind's instance 0 (Table 2.2, R41). -/
def pageBlk (p : Nat) : Option (Blk × Nat × Nat) :=
  if p = 0x000 then some (.sys, 0, p) else if p = 0x001 then some (.yoke, 0, p)
  else if p = 0x002 then some (.pwr, 0, p) else if p = 0x003 then some (.rtc, 0, p)
  else if p = 0x004 then some (.grn, 0, p) else if p = 0x005 then some (.evr, 0, p)
  else if p = 0x006 then some (.hlth, 0, p) else if p = 0x007 then some (.upd, 0, p)
  else if p = 0x008 then some (.sec, 0, p) else if p = 0x010 then some (.fence, 0, p)
  else if p = 0x011 then some (.ports, 0, p) else if p = 0x012 then some (.sess, 0, p)
  else if p = 0x020 then some (.ptab, 0, p) else if p = 0x021 then some (.shf, 0, p)
  else if 0x030 ≤ p ∧ p ≤ 0x037 then some (.drl, p - 0x030, 0x030)
  else if p = 0x038 then some (.drlc, 0, p) else if p = 0x040 then some (.tlr, 0, p)
  else if 0x050 ≤ p ∧ p ≤ 0x05F then some (.uiog, p - 0x050, 0x050)
  else if p = 0x060 then some (.nrg, 0, p)
  else if 0x061 ≤ p ∧ p ≤ 0x068 then some (.nvs, p - 0x061, 0x061)
  else if 0x069 ≤ p ∧ p ≤ 0x06E then some (.nci, p - 0x069, 0x069)
  else if 0x070 ≤ p ∧ p ≤ 0x07F then some (.can, p - 0x070, 0x070)
  else if 0x080 ≤ p ∧ p ≤ 0x08F then some (.ser, p - 0x080, 0x080)
  else if 0x090 ≤ p ∧ p ≤ 0x097 then some (.dali, p - 0x090, 0x090)
  else if 0x0A0 ≤ p ∧ p ≤ 0x0A1 then some (.mac, p - 0x0A0, 0x0A0)
  else if p = 0x0A2 then some (.prp, 0, p)
  else if 0x0A8 ≤ p ∧ p ≤ 0x0AF then some (.mac, p - 0x0A8, 0x0A8)
  else if 0x0B0 ≤ p ∧ p ≤ 0x0B7 then some (.mac, p - 0x0B0, 0x0B0)
  else if p = 0x0B8 then some (.mac, 0, p)
  else if p = 0x0C0 then some (.mz, 0, p)
  else if 0x0C1 ≤ p ∧ p ≤ 0x0C4 then some (.mzp, p - 0x0C1, 0x0C1)
  else if p = 0x0C8 then some (.ptp, 0, p) else if p = 0x0D0 then some (.mgt, 0, p)
  else if p = 0x0E0 then some (.rfx, 0, p) else if p = 0x0F0 then some (.fost, 0, p)
  else none

/-- R42: the always-enabled pages. -/
def alwaysOn (p : Nat) : Bool :=
  p ≤ 0x006 || p = 0x008 || p = 0x010 || p = 0x020 || p = 0x021

/-- The common header (Table 2.3). -/
def headerRows : List RegRow :=
  [ ⟨0x000, 1, 4, 1, .ro, 0, 0, false, false, false, 0x7F⟩       -- PG_ID
  , ⟨0x004, 1, 4, 1, .ro, 0, 0, false, false, false, 0x7F⟩       -- PG_CAP
  , ⟨0x008, 1, 4, 1, .rw, 0, 0x113, false, true, false, 0x7F⟩    -- PG_CTRL
  , ⟨0x00C, 1, 4, 1, .ro, 0, 0, false, false, false, 0x7F⟩       -- PG_STAT
  , ⟨0x010, 1, 4, 1, .ro, 0, 0, false, false, false, 0x7F⟩       -- PG_IRQ_RAW
  , ⟨0x014, 1, 4, 1, .rw, 0, 0xFFFFFFFF, false, false, false, 0x7F⟩ -- PG_IRQ_EN
  , ⟨0x018, 1, 4, 1, .w1c, 0, 0xFFFFFFFF, false, false, false, 0x7F⟩ -- PG_IRQ
  , ⟨0x01C, 1, 4, 1, .ro, 0, 0, false, false, false, 0x7F⟩       -- PG_PWR_REQ
  , ⟨0x020, 1, 4, 1, .ro, 0, 0, false, false, false, 0x7F⟩       -- PG_PWR_RSP
  , ⟨0x024, 1, 4, 1, .rw, 0, 0x1, false, true, false, 0x02⟩      -- PG_LOCK
  , ⟨0x028, 1, 4, 1, .rw, 0, 0x7F7F, false, true, false, 0x02⟩   -- PG_ACL
  , ⟨0x02C, 1, 4, 1, .ro, 0, 0, false, false, false, 0x7F⟩       -- PG_GEN
  , ⟨0x030, 1, 4, 1, .ro, 0, 0, false, false, false, 0x7F⟩       -- PG_ERR
  , ⟨0x034, 1, 4, 1, .rw, 0, 0x3, false, false, false, 0x7F⟩     -- PG_SNAP
  ]

/-- Register map of the SYS pages. -/
def sysRows : List RegRow :=
  [ ⟨0x040, 1, 0x4, 1, .ro, 0x720042A1, 0x0, false, false, false, 0x7F⟩ -- ID
  , ⟨0x044, 1, 0x4, 1, .ro, 0x0, 0x0, false, false, false, 0x7F⟩ -- HALF
  , ⟨0x048, 1, 0x4, 1, .ro, 0x0, 0x0, false, false, false, 0x7F⟩ -- PACE
  , ⟨0x050, 1, 0x8, 2, .rs, 0x0, 0x0, false, false, false, 0x7F⟩ -- TIME_NS
  , ⟨0x058, 1, 0x4, 1, .rw, 0x10000, 0xFFFF, true, true, false, 0x02⟩ -- MODULE_ADDR
  , ⟨0x05C, 1, 0x4, 1, .w1c, 0x1, 0xFF, false, false, false, 0x7F⟩ -- RESTART_CAUSE
  , ⟨0x060, 1, 0x4, 1, .ro, 0x0, 0x0, false, false, false, 0x7F⟩ -- OFFLINE_WR_CNT
  , ⟨0x064, 1, 0x4, 1, .wo, 0x0, 0xC00000F1, false, false, false, 0x7F⟩ -- CTRL
  , ⟨0x070, 4, 0x4, 1, .ro, 0x0, 0x0, false, false, false, 0x7F⟩ -- ACC_STAT
  , ⟨0x080, 8, 0x4, 1, .ro, 0x0, 0x0, false, false, false, 0x7F⟩ -- IRQ_SUM
  , ⟨0x0A0, 4, 0x4, 1, .ro, 0xFFFF, 0x0, false, false, false, 0x7F⟩ -- IRQ_CLAIM
  , ⟨0x0B0, 4, 0x4, 1, .ro, 0x0, 0x0, false, false, false, 0x7F⟩ -- ACC_ADDR
  , ⟨0x100, 64, 0x4, 1, .rw, 0x0, 0x87878787, false, true, false, 0x7F⟩ -- IRQ_ROUTE
  ]

/-- Register map of the FENCE pages. -/
def fenceRows : List RegRow :=
  [ ⟨0x040, 1, 0x4, 1, .rw, 0x0, 0x1, true, true, false, 0x7E⟩ -- CTRL
  , ⟨0x044, 1, 0x4, 1, .ro, 0x0, 0x0, false, false, false, 0x7F⟩ -- REFUSE_CNT
  , ⟨0x048, 1, 0x4, 1, .ro, 0x18, 0x0, false, false, false, 0x7F⟩ -- LOOKUP_STEPS
  , ⟨0x04C, 1, 0x4, 1, .wo, 0x0, 0x1, false, false, false, 0x7E⟩ -- CLR
  , ⟨0x060, 8, 0x4, 1, .rw, 0x0, 0xBF, true, true, false, 0x7E⟩ -- TEN_BIND
  , ⟨0x080, 7, 0x4, 1, .rw, 0x0, 0x1F03F, true, true, false, 0x7E⟩ -- RIGHTS
  ]

/-- Register map of the PORTS pages. -/
def portsRows : List RegRow :=
  [ ⟨0x040, 1, 0x4, 1, .wo, 0x0, 0x1, false, false, false, 0x7F⟩ -- CLR
  , ⟨0x100, 64, 0x4, 1, .rw, 0x0, 0xFF0001, true, true, false, 0x7F⟩ -- DESC
  , ⟨0x200, 64, 0x4, 1, .ro, 0x0, 0x0, false, false, false, 0x7F⟩ -- REFUSE
  ]

/-- Register map of the SESS pages. -/
def sessRows : List RegRow :=
  [ ⟨0x040, 1, 0x4, 1, .rw, 0x14003C, 0xFFFFFF, false, true, false, 0x7F⟩ -- CTRL
  , ⟨0x044, 1, 0x4, 1, .rw, 0x4080100, 0xFFFF03FF, false, true, false, 0x7F⟩ -- LIMIT
  , ⟨0x048, 1, 0x4, 1, .ro, 0x0, 0x0, false, false, false, 0x7F⟩ -- COUNT
  , ⟨0x04C, 1, 0x4, 1, .rw, 0x0, 0x1FF, false, false, false, 0x7F⟩ -- SEL
  , ⟨0x050, 1, 0x24, 9, .rs, 0x0, 0x0, false, false, false, 0x7F⟩ -- INFO
  , ⟨0x080, 1, 0x4, 1, .wo, 0x0, 0xFFFF, false, false, false, 0x7F⟩ -- CLOSE
  , ⟨0x084, 1, 0x4, 1, .wo, 0x0, 0x3F, false, false, false, 0x7F⟩ -- FLUSH_TENANT
  ]

/-- Register map of the PTAB pages. -/
def ptabRows : List RegRow :=
  [ ⟨0x040, 1, 0x4, 1, .rw, 0x1, 0x3, true, true, false, 0x7F⟩ -- CTRL
  , ⟨0x044, 1, 0x4, 1, .ro, 0x0, 0x0, false, false, false, 0x7F⟩ -- STAT
  , ⟨0x048, 1, 0x4, 1, .ro, 0x0, 0x0, false, false, false, 0x7F⟩ -- CHECK_CNT
  , ⟨0x04C, 1, 0x4, 1, .wo, 0x0, 0x1, false, false, false, 0x7F⟩ -- CLR
  , ⟨0x050, 1, 0xC, 3, .st, 0x0, 0xFFFFFFFF, false, false, false, 0x7F⟩ -- WR
  , ⟨0x05C, 1, 0x4, 1, .ro, 0x0, 0x0, false, false, true, 0x7F⟩ -- WR_STAT
  , ⟨0x060, 1, 0x4, 1, .rw, 0x0, 0xFFFF, false, false, false, 0x7F⟩ -- SEL
  , ⟨0x064, 1, 0x4, 1, .rw, 0xFFF0000, 0xFFFFFFFF, true, true, true, 0x7F⟩ -- CFG
  , ⟨0x068, 1, 0x4, 1, .rw, 0xFFFF0000, 0xFFFF, false, true, false, 0x7F⟩ -- COV
  , ⟨0x06C, 1, 0x4, 1, .ro, 0xFFFF, 0x0, false, false, false, 0x7F⟩ -- SRCB
  , ⟨0x070, 1, 0x4, 1, .ro, 0xFFFF, 0x0, false, false, false, 0x7F⟩ -- OUTB
  , ⟨0x074, 1, 0x4, 1, .ro, 0x0, 0x0, false, false, false, 0x7F⟩ -- OCC
  , ⟨0x078, 1, 0x4, 1, .wo, 0x0, 0xF, true, false, false, 0x7F⟩ -- CMD
  , ⟨0x07C, 1, 0x4, 1, .ro, 0x0, 0x0, false, false, false, 0x7F⟩ -- CMD_STAT
  , ⟨0x080, 1, 0x4, 1, .rw, 0x0, 0x1F, false, false, false, 0x7F⟩ -- LVL_SEL
  , ⟨0x084, 1, 0x8, 2, .rs, 0x0, 0x0, false, false, false, 0x7F⟩ -- LVL_VAL
  , ⟨0x090, 1, 0x4, 1, .ro, 0x0, 0x0, false, false, false, 0x7F⟩ -- FORCE_CNT
  , ⟨0x094, 1, 0x4, 1, .ro, 0x4000, 0x0, false, false, false, 0x7F⟩ -- SUB_FREE
  , ⟨0x0A0, 1, 0x4, 1, .rw, 0x0, 0xFFFF, false, false, false, 0x7F⟩ -- BIND_SEL
  , ⟨0x0A4, 1, 0x20, 8, .st, 0x0, 0xFFFFFFFF, true, true, false, 0x7F⟩ -- BIND
  ]

/-- Register map of the SHF pages. -/
def shfRows : List RegRow :=
  [ ⟨0x040, 1, 0x4, 1, .rw, 0xA140064, 0xFFFFFFFF, true, true, false, 0x7F⟩ -- CTRL
  , ⟨0x044, 1, 0x4, 1, .wo, 0x0, 0x1, false, false, false, 0x7F⟩ -- OPEN
  , ⟨0x048, 1, 0x10, 4, .st, 0x0, 0xFFFFFFFF, false, false, false, 0x7F⟩ -- ADD
  , ⟨0x058, 1, 0x4, 1, .wo, 0x0, 0xFFFF0001, false, false, false, 0x7F⟩ -- COMMIT
  , ⟨0x05C, 1, 0x4, 1, .wo, 0x0, 0x1, false, false, false, 0x7F⟩ -- ABORT
  , ⟨0x060, 1, 0x4, 1, .ro, 0x0, 0x0, false, false, true, 0x7F⟩ -- STAT
  , ⟨0x064, 1, 0x4, 1, .ro, 0x0, 0x0, false, false, true, 0x7F⟩ -- SEQ
  , ⟨0x068, 1, 0x4, 1, .ro, 0xFF, 0x0, false, false, true, 0x7F⟩ -- FAIL
  , ⟨0x06C, 1, 0x4, 1, .ro, 0xF, 0x0, false, false, false, 0x7F⟩ -- JRNL
  , ⟨0x070, 1, 0x4, 1, .ro, 0x0, 0x0, false, false, false, 0x7F⟩ -- LAST_SEQ
  , ⟨0x074, 1, 0x4, 1, .ro, 0x0, 0x0, false, false, false, 0x7F⟩ -- SLOTS
  , ⟨0x080, 1, 0x4, 1, .rw, 0x0, 0x1F, false, false, false, 0x7F⟩ -- SLOT_SEL
  , ⟨0x084, 1, 0x10, 4, .rs, 0x0, 0x0, false, false, false, 0x7F⟩ -- SLOT_INFO
  ]

/-- Register map of the DRL pages. -/
def drlRows : List RegRow :=
  [ ⟨0x040, 1, 0x4, 1, .ro, 0x0, 0x0, false, false, false, 0x7F⟩ -- STAT
  , ⟨0x044, 1, 0x4, 1, .ro, 0x0, 0x0, false, false, false, 0x7F⟩ -- LOAD
  , ⟨0x048, 1, 0x4, 1, .ro, 0xFFFFFFFF, 0x0, false, false, false, 0x7F⟩ -- MIN_IDLE
  , ⟨0x04C, 1, 0x4, 1, .wo, 0x0, 0x1, false, false, false, 0x7F⟩ -- CLR
  , ⟨0x050, 1, 0x8, 2, .rs, 0x0, 0x0, false, false, false, 0x7F⟩ -- TASKS
  ]

/-- Register map of the DRLC pages. -/
def drlcRows : List RegRow :=
  [ ⟨0x040, 1, 0x4, 1, .rw, 0x1, 0x1, true, true, false, 0x7F⟩ -- CTRL
  , ⟨0x044, 1, 0x4, 1, .ro, 0x0, 0x0, false, false, false, 0x7F⟩ -- STAT
  , ⟨0x048, 1, 0x4, 1, .ro, 0x0, 0x0, false, false, false, 0x7F⟩ -- PROG_ID
  , ⟨0x04C, 1, 0x4, 1, .ro, 0x0, 0x0, false, false, false, 0x7F⟩ -- SHADOW_ID
  , ⟨0x050, 1, 0x4, 1, .wo, 0x0, 0xFFFFFFFF, true, false, false, 0x7F⟩ -- SWAP
  , ⟨0x054, 1, 0x4, 1, .ro, 0x0, 0x0, false, false, false, 0x7F⟩ -- SWAP_STAT
  , ⟨0x058, 1, 0x4, 1, .rw, 0x0, 0xFFFFFFFF, false, false, false, 0x7F⟩ -- TASK_SEL
  , ⟨0x05C, 1, 0x4, 1, .ro, 0x0, 0x0, false, false, false, 0x7F⟩ -- TASK_CFG0
  , ⟨0x060, 1, 0x4, 1, .ro, 0x0, 0x0, false, false, false, 0x7F⟩ -- TASK_CFG1
  , ⟨0x064, 1, 0x4, 1, .ro, 0x0, 0x0, false, false, false, 0x7F⟩ -- TASK_STAT
  , ⟨0x068, 1, 0x4, 1, .ro, 0x0, 0x0, false, false, false, 0x7F⟩ -- TASK_OVR
  , ⟨0x06C, 1, 0x4, 1, .ro, 0x0, 0x0, false, false, false, 0x7F⟩ -- TASK_WCET
  , ⟨0x070, 1, 0x4, 1, .ro, 0x0, 0x0, false, false, false, 0x7F⟩ -- TASK_MAXS
  , ⟨0x074, 1, 0x4, 1, .wo, 0x0, 0x10F, true, false, false, 0x7F⟩ -- TASK_CMD
  , ⟨0x080, 1, 0x4, 1, .rw, 0x0, 0xFF, true, true, false, 0x7F⟩ -- FRC_BASE
  , ⟨0x084, 1, 0xC, 3, .st, 0x0, 0xFFFFFFFF, false, false, false, 0x7F⟩ -- FRC
  , ⟨0x090, 1, 0x4, 1, .ro, 0x0, 0x0, false, false, true, 0x7F⟩ -- FRC_STAT
  , ⟨0x094, 1, 0x4, 1, .rw, 0x0, 0xFF, false, false, false, 0x7F⟩ -- FRC_SEL
  , ⟨0x098, 1, 0x10, 4, .rs, 0x0, 0x0, false, false, false, 0x7F⟩ -- FRC_INFO
  ]

/-- Register map of the TLR pages. -/
def tlrRows : List RegRow :=
  [ ⟨0x040, 1, 0x4, 1, .rw, 0x1, 0x1, true, true, false, 0x7F⟩ -- CTRL
  , ⟨0x044, 1, 0x4, 1, .ro, 0x0, 0x0, false, false, false, 0x7F⟩ -- STAT
  , ⟨0x048, 1, 0x4, 1, .ro, 0x0, 0x0, false, false, false, 0x7F⟩ -- LOAD
  , ⟨0x04C, 1, 0x4, 1, .ro, 0x0, 0x0, false, false, false, 0x7F⟩ -- MAX_LATE
  , ⟨0x050, 1, 0x4, 1, .wo, 0x0, 0x1, false, false, false, 0x7F⟩ -- CLR
  , ⟨0x054, 1, 0x4, 1, .rw, 0x0, 0xFFFFFFFF, false, false, false, 0x7F⟩ -- LOOP_SEL
  , ⟨0x058, 1, 0x4, 1, .ro, 0x0, 0x0, false, false, false, 0x7F⟩ -- LOOP_STAT
  , ⟨0x05C, 1, 0x4, 1, .ro, 0x0, 0x0, false, false, false, 0x7F⟩ -- LOOP_CNT
  , ⟨0x060, 1, 0x4, 1, .wo, 0x0, 0x1FF000F, true, false, false, 0x7F⟩ -- LOOP_CMD
  , ⟨0x064, 1, 0x4, 1, .ro, 0x0, 0x0, false, false, true, 0x7F⟩ -- CMD_STAT
  , ⟨0x068, 1, 0x8, 2, .rs, 0x0, 0x0, false, false, false, 0x7F⟩ -- LAST_T
  , ⟨0x080, 16, 0x4, 1, .ro, 0x0, 0x0, false, false, false, 0x7F⟩ -- DUSE
  ]

/-- Register map of the NRG pages. -/
def nrgRows : List RegRow :=
  [ ⟨0x040, 1, 0x4, 1, .rw, 0xF00, 0x3F07, true, true, false, 0x7F⟩ -- CTRL
  , ⟨0x044, 1, 0x4, 1, .ro, 0x0, 0x0, false, false, false, 0x7F⟩ -- STAT
  , ⟨0x048, 1, 0x4, 1, .rw, 0x0, 0xFF, true, true, false, 0x7F⟩ -- GRN_BASE
  , ⟨0x04C, 1, 0x4, 1, .wo, 0x0, 0x1, false, false, false, 0x7F⟩ -- CAL_APPLY
  , ⟨0x050, 1, 0x4, 1, .rw, 0x3E8, 0xFFFF, true, true, false, 0x7F⟩ -- NEUT
  , ⟨0x054, 1, 0x4, 1, .rw, 0x0, 0x800000FF, false, true, false, 0x7F⟩ -- IQ
  , ⟨0x058, 1, 0x4, 1, .ro, 0x0, 0x0, false, false, false, 0x7F⟩ -- LOSS
  , ⟨0x05C, 1, 0x4, 1, .rw, 0x0, 0xFFFFFFFF, false, false, false, 0x7F⟩ -- M_SEL
  , ⟨0x060, 1, 0x4, 1, .rw, 0x0, 0xF7FFFFFF, true, true, false, 0x7F⟩ -- M_CFG
  , ⟨0x064, 1, 0x4, 1, .wo, 0x0, 0xF, true, false, false, 0x7F⟩ -- M_CMD
  , ⟨0x068, 1, 0x4, 1, .ro, 0x0, 0x0, false, false, false, 0x7F⟩ -- M_STAT
  , ⟨0x070, 1, 0x30, 12, .rs, 0x0, 0x0, false, false, false, 0x7F⟩ -- M_ACC
  , ⟨0x0A0, 1, 0x20, 8, .st, 0x0, 0xFFFFFFFF, false, false, false, 0x7F⟩ -- M_LOAD
  , ⟨0x0C0, 1, 0x4, 1, .ro, 0x0, 0x0, false, false, false, 0x7F⟩ -- M_TAIL
  , ⟨0x0C4, 1, 0x4, 1, .ro, 0x0, 0x0, false, false, false, 0x7F⟩ -- M_DEM
  , ⟨0x0C8, 1, 0x4, 1, .ro, 0x0, 0x0, false, false, false, 0x7F⟩ -- M_DEMX
  , ⟨0x0CC, 1, 0x4, 1, .ro, 0x0, 0x0, false, false, false, 0x7F⟩ -- M_DEMPK
  , ⟨0x0D0, 4, 0x4, 1, .ro, 0x0, 0x0, false, false, false, 0x7F⟩ -- M_RES
  , ⟨0x0E0, 1, 0x20, 8, .rs, 0x0, 0x0, false, false, false, 0x7F⟩ -- M_IREC
  , ⟨0x100, 1, 0x4, 1, .rw, 0x1, 0x8000FF3F, false, false, false, 0x7F⟩ -- H_SEL
  , ⟨0x104, 1, 0x4, 1, .ro, 0x0, 0x0, false, false, false, 0x7F⟩ -- H_MAG
  , ⟨0x108, 1, 0x4, 1, .ro, 0x0, 0x0, false, false, false, 0x7F⟩ -- H_PH
  ]

/-- Register map of the NVS pages. -/
def nvsRows : List RegRow :=
  [ ⟨0x040, 1, 0x4, 1, .rw, 0x0, 0xF, true, true, false, 0x7F⟩ -- CTRL
  , ⟨0x044, 1, 0x4, 1, .ro, 0x0, 0x0, false, false, false, 0x7F⟩ -- STAT
  , ⟨0x048, 1, 0x4, 1, .rw, 0x0, 0xFFFFFFFF, true, true, false, 0x7F⟩ -- SCALE
  , ⟨0x050, 4, 0x10, 1, .st, 0x400000, 0xFFFFFF, true, false, false, 0x7F⟩ -- GAIN
  , ⟨0x054, 4, 0x10, 1, .st, 0x0, 0xFFFF, true, false, false, 0x7F⟩ -- PHASE
  , ⟨0x058, 4, 0x10, 1, .ro, 0x0, 0x0, false, false, false, 0x7F⟩ -- RAW
  , ⟨0x05C, 4, 0x10, 1, .ro, 0x0, 0x0, false, false, false, 0x7F⟩ -- URMS
  , ⟨0x090, 1, 0x4, 1, .ro, 0x0, 0x0, false, false, false, 0x7F⟩ -- FREQ
  , ⟨0x094, 2, 0x4, 1, .ro, 0x0, 0x0, false, false, false, 0x7F⟩ -- ANG
  , ⟨0x09C, 3, 0x4, 1, .ro, 0x0, 0x0, false, false, false, 0x7F⟩ -- THD
  ]

/-- Register map of the NCI pages. -/
def nciRows : List RegRow :=
  [ ⟨0x040, 1, 0x4, 1, .rw, 0x0, 0xFFFF, true, true, false, 0x7F⟩ -- PAIR
  , ⟨0x044, 1, 0x4, 1, .rw, 0x0, 0xFFFFFFFF, true, true, false, 0x7F⟩ -- INVERT
  , ⟨0x048, 1, 0x4, 1, .ro, 0x0, 0x0, false, false, false, 0x7F⟩ -- CLIP
  , ⟨0x100, 32, 0x20, 1, .rw, 0x0, 0xFFFFFFFF, true, true, false, 0x7F⟩ -- SCALE
  , ⟨0x104, 32, 0x20, 1, .rw, 0x3, 0x3, true, true, false, 0x7F⟩ -- SENSOR
  , ⟨0x108, 32, 0x20, 1, .st, 0x400000, 0xFFFFFF, true, false, false, 0x7F⟩ -- GAIN
  , ⟨0x10C, 32, 0x20, 1, .st, 0x0, 0xFFFF, true, false, false, 0x7F⟩ -- PHASE
  , ⟨0x110, 32, 0x20, 1, .ro, 0x0, 0x0, false, false, false, 0x7F⟩ -- RAW
  , ⟨0x114, 32, 0x20, 1, .ro, 0x0, 0x0, false, false, false, 0x7F⟩ -- IRMS
  , ⟨0x118, 32, 0x20, 1, .ro, 0x0, 0x0, false, false, false, 0x7F⟩ -- P
  , ⟨0x11C, 32, 0x20, 1, .ro, 0x0, 0x0, false, false, false, 0x7F⟩ -- THD
  ]

/-- Register map of the UIOG pages. -/
def uiogRows : List RegRow :=
  [ ⟨0x040, 1, 0x4, 1, .wo, 0x0, 0x1, false, false, false, 0x7F⟩ -- CAL_APPLY
  , ⟨0x044, 1, 0x4, 1, .ro, 0x0, 0x0, false, false, false, 0x7F⟩ -- STAT
  , ⟨0x048, 1, 0x4, 1, .ro, 0x0, 0x0, false, false, false, 0x7F⟩ -- FAULT
  , ⟨0x04C, 1, 0x4, 1, .ro, 0x0, 0x0, false, false, false, 0x7F⟩ -- LEVEL
  , ⟨0x050, 1, 0x4, 1, .wo, 0x0, 0xFFFF, false, false, false, 0x7F⟩ -- CLR
  , ⟨0x100, 16, 0x40, 1, .rw, 0x0, 0xFF3F, true, true, false, 0x7F⟩ -- MODE
  , ⟨0x104, 16, 0x40, 1, .ro, 0x0, 0x0, false, false, false, 0x7F⟩ -- TSTAT
  , ⟨0x108, 16, 0x40, 2, .rs, 0x0, 0x0, false, false, false, 0x7F⟩ -- VAL
  , ⟨0x110, 16, 0x40, 1, .ro, 0x0, 0x0, false, false, false, 0x7F⟩ -- CNT
  , ⟨0x114, 16, 0x40, 1, .ro, 0x0, 0x0, false, false, false, 0x7F⟩ -- DRV
  , ⟨0x118, 16, 0x40, 1, .rw, 0x0, 0xFFFFFF, true, true, false, 0x7F⟩ -- LIMLO
  , ⟨0x11C, 16, 0x40, 1, .rw, 0xFFFFFF, 0xFFFFFF, true, true, false, 0x7F⟩ -- LIMHI
  , ⟨0x120, 16, 0x40, 1, .rw, 0x0, 0xFFFFFFFF, true, true, false, 0x7F⟩ -- RATE
  , ⟨0x124, 16, 0x40, 1, .st, 0x400000, 0xFFFFFF, true, false, false, 0x7F⟩ -- GAIN
  , ⟨0x128, 16, 0x40, 1, .st, 0x0, 0xFFFFFFFF, true, false, false, 0x7F⟩ -- OFFS
  , ⟨0x12C, 16, 0x40, 1, .rw, 0xF89, 0xFFFFFFFF, true, true, false, 0x7F⟩ -- NTCB
  ]

/-- Register map of the RFX pages. -/
def rfxRows : List RegRow :=
  [ ⟨0x040, 1, 0x4, 1, .rw, 0x1, 0x1, true, true, false, 0x7F⟩ -- CTRL
  , ⟨0x044, 1, 0x4, 1, .ro, 0x0, 0x0, false, false, false, 0x7F⟩ -- STAT
  , ⟨0x048, 1, 0xC, 3, .rs, 0x0, 0x0, false, false, false, 0x7F⟩ -- LAST
  , ⟨0x054, 1, 0x4, 1, .rw, 0x0, 0x3FF, false, false, false, 0x7F⟩ -- BIND_SEL
  , ⟨0x058, 1, 0x4, 1, .ro, 0x0, 0x0, false, false, true, 0x7F⟩ -- BIND_STAT
  , ⟨0x060, 1, 0x20, 8, .st, 0x0, 0xFFFFFFFF, true, true, false, 0x7F⟩ -- BIND
  , ⟨0x080, 1, 0x4, 1, .rw, 0x103E8, 0x800FFFFF, true, true, false, 0x7F⟩ -- FS_CTRL
  , ⟨0x084, 1, 0x4, 1, .rw, 0x0, 0x3F, false, false, false, 0x7F⟩ -- FS_SEL
  , ⟨0x088, 1, 0x4, 1, .rw, 0x0, 0xB00000FF, true, true, false, 0x7F⟩ -- FS_ENT
  , ⟨0x08C, 1, 0x4, 1, .rw, 0x0, 0xFFFFFFFF, true, true, false, 0x7F⟩ -- FS_LO
  , ⟨0x090, 1, 0x4, 1, .rw, 0x0, 0xFFFFFFFF, true, true, false, 0x7F⟩ -- FS_HI
  , ⟨0x094, 1, 0x4, 1, .ro, 0x0, 0x0, false, false, false, 0x7F⟩ -- FS_HIT
  , ⟨0x098, 1, 0x4, 1, .ro, 0x0, 0x0, false, false, false, 0x7F⟩ -- FS_VAL
  ]

/-- Register map of the CAN pages. -/
def canRows : List RegRow :=
  [ ⟨0x040, 1, 0x4, 1, .rw, 0x0, 0x133, true, true, false, 0x7F⟩ -- CTRL
  , ⟨0x044, 1, 0x4, 1, .ro, 0x0, 0x0, false, false, false, 0x7F⟩ -- STAT
  , ⟨0x048, 1, 0x4, 1, .ro, 0x0, 0x0, false, false, false, 0x7F⟩ -- ERRCNT
  , ⟨0x04C, 1, 0x4, 1, .rw, 0x1E7C3C00, 0xFFFFFCFF, true, true, false, 0x7F⟩ -- NBT
  , ⟨0x050, 1, 0x4, 1, .rw, 0x40D0400, 0xF1F0F1F, true, true, false, 0x7F⟩ -- DBT
  , ⟨0x054, 1, 0x4, 1, .rw, 0x0, 0x8000007F, true, true, false, 0x7F⟩ -- TDC
  , ⟨0x058, 1, 0x4, 1, .wo, 0x0, 0xF, false, false, false, 0x7F⟩ -- CMD
  , ⟨0x05C, 1, 0x4, 1, .wo, 0x0, 0x8FFF, false, false, false, 0x7F⟩ -- TXREQ
  , ⟨0x060, 1, 0x4, 1, .ro, 0x0, 0x0, false, false, true, 0x7F⟩ -- TXSTAT
  , ⟨0x064, 1, 0x4, 1, .ro, 0x0, 0x0, false, false, false, 0x7F⟩ -- TB
  , ⟨0x068, 1, 0x4, 1, .rw, 0x0, 0x800000FF, false, true, false, 0x7F⟩ -- RXQ
  , ⟨0x06C, 1, 0x4, 1, .wo, 0x0, 0xFFF, false, false, false, 0x7F⟩ -- ACK
  , ⟨0x070, 1, 0x4, 1, .ro, 0x0, 0x0, false, false, false, 0x7F⟩ -- LASTERR
  , ⟨0x074, 1, 0x4, 1, .rw, 0x64, 0xFFFF, true, true, false, 0x7F⟩ -- RECOV
  , ⟨0x078, 1, 0x4, 1, .wo, 0x0, 0x1, false, false, false, 0x7F⟩ -- CLR
  , ⟨0x080, 11, 0x4, 1, .ro, 0x0, 0x0, false, false, false, 0x7F⟩ -- CNT
  ]

/-- Register map of the SER pages. -/
def serRows : List RegRow :=
  [ ⟨0x040, 1, 0x4, 1, .rw, 0x0, 0x133, true, true, false, 0x7F⟩ -- CTRL
  , ⟨0x044, 1, 0x4, 1, .ro, 0x0, 0x0, false, false, false, 0x7F⟩ -- STAT
  , ⟨0x048, 1, 0x4, 1, .rw, 0x9600, 0x3FFFFF, true, true, false, 0x7F⟩ -- BAUD
  , ⟨0x04C, 1, 0x4, 1, .rw, 0x408, 0xFFFF7F, true, true, false, 0x7F⟩ -- ASYNC
  , ⟨0x050, 1, 0x4, 1, .rw, 0xC8017F7F, 0xFFFF7F7F, true, true, false, 0x7F⟩ -- MSTP
  , ⟨0x054, 1, 0x4, 1, .rw, 0x3C832, 0xFFFFF, true, true, false, 0x7F⟩ -- OSDP
  , ⟨0x058, 1, 0x4, 1, .rw, 0x0, 0x8000FFFF, false, true, false, 0x7F⟩ -- QUEUE
  , ⟨0x05C, 1, 0x4, 1, .wo, 0x0, 0x1, false, false, false, 0x7F⟩ -- CLR
  , ⟨0x060, 1, 0x4, 1, .rw, 0x0, 0xFFFF, true, true, false, 0x7F⟩ -- PD_EN
  , ⟨0x080, 7, 0x4, 1, .ro, 0x0, 0x0, false, false, false, 0x7F⟩ -- CNT
  , ⟨0x0C0, 16, 0x4, 1, .rw, 0x0, 0x7F, true, true, false, 0x7F⟩ -- PD_ADDR
  , ⟨0x100, 64, 0x10, 4, .rw, 0x0, 0xFFFFFFFF, false, false, false, 0x7F⟩ -- SLOT
  ]

/-- Register map of the DALI pages. -/
def daliRows : List RegRow :=
  [ ⟨0x040, 1, 0x4, 1, .rw, 0x0, 0x3, true, true, false, 0x7F⟩ -- CTRL
  , ⟨0x044, 1, 0x4, 1, .ro, 0x0, 0x0, false, false, false, 0x7F⟩ -- STAT
  , ⟨0x048, 1, 0x8, 2, .st, 0x0, 0xFFFFFFFF, false, false, false, 0x7F⟩ -- TX
  , ⟨0x050, 1, 0x4, 1, .ro, 0x0, 0x0, false, false, true, 0x7F⟩ -- TX_STAT
  , ⟨0x054, 1, 0x4, 1, .rw, 0x0, 0x8000FFFF, false, true, false, 0x7F⟩ -- QUEUE
  , ⟨0x058, 1, 0x4, 1, .wo, 0x0, 0x1, false, false, false, 0x7F⟩ -- CLR
  , ⟨0x05C, 1, 0x4, 1, .ro, 0x0, 0x0, false, false, false, 0x7F⟩ -- BUSV
  , ⟨0x080, 7, 0x4, 1, .ro, 0x0, 0x0, false, false, false, 0x7F⟩ -- CNT
  ]

/-- Register map of the MAC pages. -/
def macRows : List RegRow :=
  [ ⟨0x040, 1, 0x4, 1, .rw, 0x1, 0x13, true, true, false, 0x7F⟩ -- CTRL
  , ⟨0x044, 1, 0x4, 1, .ro, 0x0, 0x0, false, false, false, 0x7F⟩ -- STAT
  , ⟨0x048, 1, 0x4, 1, .wo, 0x0, 0xFF, false, false, false, 0x7F⟩ -- CMD
  , ⟨0x04C, 1, 0x8, 2, .rw, 0x0, 0xFFFFFFFF, true, true, false, 0x7F⟩ -- ADDR
  , ⟨0x054, 1, 0x4, 1, .rw, 0x0, 0x8000FFFF, false, true, false, 0x7F⟩ -- QUEUE
  , ⟨0x058, 1, 0x4, 1, .rw, 0x820, 0x80FFFFFF, true, true, false, 0x7F⟩ -- PLCA
  , ⟨0x05C, 1, 0x4, 1, .rw, 0x1, 0x1, true, true, false, 0x7F⟩ -- T1L
  , ⟨0x060, 1, 0x4, 1, .wo, 0x0, 0x1, false, false, false, 0x7F⟩ -- CLR
  , ⟨0x064, 1, 0x4, 1, .w1c, 0x0, 0xFFFFFFFF, false, false, false, 0x7F⟩ -- HALF
  , ⟨0x068, 1, 0x4, 1, .rw, 0x0, 0xFFFFFFFF, false, true, false, 0x7F⟩ -- IP4
  , ⟨0x06C, 1, 0x10, 4, .rw, 0x0, 0xFFFFFFFF, false, true, false, 0x7F⟩ -- IP6
  , ⟨0x100, 31, 0x4, 1, .rs, 0x0, 0x0, false, false, false, 0x7F⟩ -- CNT
  , ⟨0x200, 64, 0x4, 1, .rw, 0x0, 0xFFFFFFFF, true, true, false, 0x7F⟩ -- FLT
  ]

/-- Register map of the PRP pages. -/
def prpRows : List RegRow :=
  [ ⟨0x040, 1, 0x4, 1, .rw, 0x51401, 0xFFFF01, true, true, false, 0x7F⟩ -- CTRL
  , ⟨0x044, 1, 0x4, 1, .ro, 0x0, 0x0, false, false, false, 0x7F⟩ -- STAT
  , ⟨0x048, 1, 0x4, 1, .rw, 0x3C0190, 0xFFFFFFFF, true, true, false, 0x7F⟩ -- FORGET
  , ⟨0x04C, 1, 0x4, 1, .ro, 0x0, 0x0, false, false, false, 0x7F⟩ -- SEQ
  , ⟨0x050, 1, 0x4, 1, .wo, 0x0, 0x1, false, false, false, 0x7F⟩ -- CLR
  , ⟨0x054, 1, 0x4, 1, .w1c, 0x0, 0xFFFFFFFF, false, false, false, 0x7F⟩ -- HALF
  , ⟨0x100, 9, 0x4, 1, .rs, 0x0, 0x0, false, false, false, 0x7F⟩ -- CNT
  ]

/-- Register map of the MZ pages. -/
def mzRows : List RegRow :=
  [ ⟨0x040, 1, 0x4, 1, .rw, 0x0, 0x3, true, true, false, 0x7F⟩ -- CTRL
  , ⟨0x044, 1, 0x4, 1, .ro, 0x0, 0x0, false, false, false, 0x7F⟩ -- STAT
  , ⟨0x048, 1, 0x4, 1, .rw, 0x0, 0xFFFFFFFF, true, true, false, 0x7F⟩ -- RING
  , ⟨0x04C, 1, 0x4, 1, .rw, 0x0, 0xFFFFFFFF, true, true, false, 0x7F⟩ -- DOWN
  , ⟨0x050, 1, 0x4, 1, .rw, 0x9C4012C, 0xFFFFFFFF, true, true, false, 0x7F⟩ -- BUDGET
  , ⟨0x054, 1, 0x4, 1, .ro, 0xDC, 0x0, false, false, false, 0x7F⟩ -- FWD_NS
  , ⟨0x058, 1, 0x4, 1, .rw, 0x3E8, 0xFFFF, true, true, false, 0x7F⟩ -- FORGET
  , ⟨0x05C, 1, 0x4, 1, .rw, 0x0, 0xFFFFFFFF, true, true, false, 0x7F⟩ -- WAKE_CODE
  , ⟨0x060, 1, 0x4, 1, .wo, 0x0, 0xFFFF0001, false, false, false, 0x7F⟩ -- WAKE_TX
  , ⟨0x064, 1, 0x4, 1, .wo, 0x0, 0x1, false, false, false, 0x7F⟩ -- CLR
  , ⟨0x068, 1, 0x4, 1, .w1c, 0x0, 0xFFFFFFFF, false, false, false, 0x7F⟩ -- HALF
  , ⟨0x100, 3, 0x4, 1, .rs, 0x0, 0x0, false, false, false, 0x7F⟩ -- CNT
  ]

/-- Register map of the MZP pages. -/
def mzpRows : List RegRow :=
  [ ⟨0x040, 1, 0x4, 1, .rw, 0x1, 0x1, true, true, false, 0x7F⟩ -- CTRL
  , ⟨0x044, 1, 0x4, 1, .ro, 0x0, 0x0, false, false, false, 0x7F⟩ -- STAT
  , ⟨0x048, 1, 0x4, 1, .ro, 0x136, 0x0, false, false, false, 0x7F⟩ -- DELAY
  , ⟨0x04C, 1, 0x4, 1, .rw, 0x10, 0x131, false, true, false, 0x02⟩ -- KEY_CTRL
  , ⟨0x050, 1, 0x8, 2, .rs, 0x0, 0x0, false, false, false, 0x7F⟩ -- TXCNT
  , ⟨0x058, 1, 0x4, 1, .wo, 0x0, 0x1, false, false, false, 0x7F⟩ -- CLR
  , ⟨0x05C, 1, 0x4, 1, .w1c, 0x0, 0xFFFFFFFF, false, false, false, 0x7F⟩ -- HALF
  , ⟨0x080, 1, 0x20, 8, .wo, 0x0, 0xFFFFFFFF, false, false, false, 0x02⟩ -- KEY0
  , ⟨0x0A0, 1, 0x20, 8, .wo, 0x0, 0xFFFFFFFF, false, false, false, 0x02⟩ -- KEY1
  , ⟨0x100, 14, 0x4, 1, .rs, 0x0, 0x0, false, false, false, 0x7F⟩ -- CNT
  ]

/-- Register map of the YOKE pages. -/
def yokeRows : List RegRow :=
  [ ⟨0x040, 1, 0x4, 1, .ro, 0x0, 0x0, false, false, false, 0x7F⟩ -- LEASE
  , ⟨0x044, 1, 0x4, 1, .ro, 0x0, 0x0, false, false, false, 0x7F⟩ -- ROLE
  , ⟨0x048, 1, 0x4, 1, .ro, 0x0, 0x0, false, false, false, 0x7F⟩ -- XLINK
  , ⟨0x04C, 1, 0x4, 1, .ro, 0x0, 0x0, false, false, false, 0x7F⟩ -- CHALLENGE
  , ⟨0x050, 1, 0x4, 1, .rw, 0x3C320100, 0xFFFF0101, true, true, false, 0x7F⟩ -- CTRL
  , ⟨0x054, 1, 0x4, 1, .wo, 0x0, 0xF, false, false, false, 0x7F⟩ -- CMD
  , ⟨0x058, 1, 0x4, 1, .rw, 0x3E8, 0xFFFF, true, true, false, 0x7F⟩ -- WDOG
  , ⟨0x05C, 1, 0x4, 1, .wo, 0x0, 0x1, false, false, false, 0x01⟩ -- WDOG_KICK
  , ⟨0x060, 1, 0x4, 1, .ro, 0x0, 0x0, false, false, false, 0x7F⟩ -- MISMATCH_CNT
  , ⟨0x064, 1, 0x4, 1, .ro, 0x0, 0x0, false, false, false, 0x7F⟩ -- LAST_MISMATCH
  , ⟨0x068, 1, 0x4, 1, .ro, 0x0, 0x0, false, false, false, 0x7F⟩ -- DIVERGE
  , ⟨0x06C, 1, 0x4, 1, .ro, 0x0, 0x0, false, false, false, 0x7F⟩ -- RETIRE_CNT
  , ⟨0x070, 1, 0x4, 1, .rw, 0x40, 0x1FF, true, true, false, 0x7F⟩ -- XFER
  , ⟨0x074, 1, 0x4, 1, .ro, 0x0, 0x0, false, false, false, 0x7F⟩ -- STAT
  ]

/-- Register map of the FOST pages. -/
def fostRows : List RegRow :=
  [ ⟨0x040, 1, 0x4, 1, .rw, 0xA1E0000, 0xFFFF0003, true, true, false, 0x7F⟩ -- CTRL
  , ⟨0x044, 1, 0x4, 1, .rw, 0x0, 0xFFFF, true, true, false, 0x7F⟩ -- FOSTER
  , ⟨0x048, 1, 0x4, 1, .ro, 0x0, 0x0, false, false, false, 0x7F⟩ -- SELF
  , ⟨0x04C, 1, 0x4, 1, .ro, 0x0, 0x0, false, false, false, 0x7F⟩ -- PACK_SEQ
  , ⟨0x050, 1, 0x4, 1, .ro, 0xFFFFFFFF, 0x0, false, false, false, 0x7F⟩ -- PACK_AGE
  , ⟨0x054, 1, 0x8, 2, .rs, 0x0, 0x0, false, false, false, 0x7F⟩ -- SHARED
  , ⟨0x05C, 1, 0x8, 2, .rs, 0x0, 0x0, false, false, false, 0x7F⟩ -- HELD
  , ⟨0x068, 1, 0x4, 1, .rw, 0x0, 0x1, false, false, false, 0x7F⟩ -- SLOT_SEL
  , ⟨0x06C, 1, 0x4, 1, .rw, 0x0, 0xFFFF, true, true, false, 0x7F⟩ -- SLOT_ADDR
  , ⟨0x070, 1, 0x4, 1, .ro, 0x0, 0x0, false, false, false, 0x7F⟩ -- SLOT_STAT
  , ⟨0x074, 1, 0x4, 1, .ro, 0x0, 0x0, false, false, false, 0x7F⟩ -- SLOT_SEQ
  , ⟨0x078, 1, 0x8, 2, .rs, 0x0, 0x0, false, false, false, 0x7F⟩ -- SLOT_BUSES
  , ⟨0x080, 1, 0x4, 1, .rw, 0x0, 0xFFFFFFFF, true, true, false, 0x7F⟩ -- SLOT_PBASE
  , ⟨0x084, 1, 0x8, 2, .rw, 0x0, 0xFFFFFFFF, false, false, false, 0x7F⟩ -- HB_MASK
  , ⟨0x08C, 1, 0x4, 1, .wo, 0x0, 0xF, false, false, false, 0x7F⟩ -- CMD
  , ⟨0x090, 1, 0x4, 1, .ro, 0x0, 0x0, false, false, true, 0x7F⟩ -- CMD_STAT
  ]

/-- Register map of the RTC pages. -/
def rtcRows : List RegRow :=
  [ ⟨0x040, 1, 0x10, 4, .rs, 0x0, 0x0, false, false, false, 0x7F⟩ -- T
  , ⟨0x050, 4, 0x4, 1, .st, 0x0, 0xFFFFFFFF, true, false, false, 0x7F⟩ -- S
  , ⟨0x060, 1, 0x4, 1, .wo, 0x0, 0xF, true, false, false, 0x7F⟩ -- CMD
  , ⟨0x064, 1, 0x4, 1, .ro, 0x1, 0x0, false, false, false, 0x7F⟩ -- STAT
  , ⟨0x068, 1, 0x4, 1, .ro, 0x0, 0x0, false, false, false, 0x7F⟩ -- TEMP
  , ⟨0x06C, 1, 0x4, 1, .ro, 0x0, 0x0, false, false, false, 0x7F⟩ -- COMP_N
  , ⟨0x080, 4, 0x4, 1, .ro, 0x0, 0x0, false, false, false, 0x7F⟩ -- COMP_C
  , ⟨0x090, 4, 0x4, 1, .st, 0x0, 0xFFFFFFFF, true, false, false, 0x7F⟩ -- COMP_S
  , ⟨0x0A0, 4, 0x4, 1, .ro, 0x0, 0x0, false, false, false, 0x7F⟩ -- COMP_F
  , ⟨0x0B0, 1, 0x8, 2, .rs, 0x0, 0x0, false, false, false, 0x7F⟩ -- SWO_TIME
  , ⟨0x0B8, 1, 0x4, 1, .ro, 0x0, 0x0, false, false, false, 0x7F⟩ -- SWO_CNT
  , ⟨0x0BC, 1, 0x4, 1, .rw, 0x0, 0xC001FFFF, false, true, false, 0x7F⟩ -- ALM_IVL
  , ⟨0x0C0, 1, 0x4, 1, .rw, 0x0, 0x807F1F3F, false, true, false, 0x7F⟩ -- ALM_TOD
  ]

/-- Register map of the PTP pages. -/
def ptpRows : List RegRow :=
  [ ⟨0x040, 1, 0x4, 1, .rw, 0x100, 0xC0FF0300, true, true, false, 0x7F⟩ -- CTRL
  , ⟨0x044, 1, 0x4, 1, .rw, 0xF88080, 0xFFFFFF, true, true, false, 0x7F⟩ -- PRIO
  , ⟨0x048, 1, 0x4, 1, .rw, 0x10003, 0xFFFFFF0F, true, true, false, 0x7F⟩ -- INTV
  , ⟨0x04C, 1, 0x4, 1, .rw, 0x3E80258, 0xFFFFFFFF, true, true, false, 0x7F⟩ -- SERVO
  , ⟨0x050, 1, 0x4, 1, .ro, 0x0, 0x0, false, false, false, 0x7F⟩ -- STAT
  , ⟨0x054, 1, 0x4, 1, .ro, 0x0, 0x0, false, false, false, 0x7F⟩ -- OFFSET
  , ⟨0x058, 1, 0x4, 1, .ro, 0x0, 0x0, false, false, false, 0x7F⟩ -- MPD
  , ⟨0x05C, 1, 0x4, 1, .ro, 0x0, 0x0, false, false, false, 0x7F⟩ -- RATE
  , ⟨0x060, 1, 0x8, 2, .rs, 0x0, 0x0, false, false, false, 0x7F⟩ -- GM_ID
  ]

/-- Register map of the GRN pages. -/
def grnRows : List RegRow :=
  [ ⟨0x040, 1, 0x4, 1, .ro, 0x0, 0x0, false, false, false, 0x7F⟩ -- STAT
  , ⟨0x044, 1, 0x4, 1, .rw, 0x20, 0xFFFF, false, false, true, 0x7F⟩ -- PAGE_SEL
  , ⟨0x048, 1, 0x4, 1, .wo, 0x0, 0xFFFFFFFF, false, false, true, 0x7F⟩ -- DATA
  , ⟨0x04C, 1, 0x4, 1, .wo, 0x0, 0x1, false, false, false, 0x7F⟩ -- COMMIT
  , ⟨0x050, 1, 0x4, 1, .ro, 0x0, 0x0, false, false, true, 0x7F⟩ -- COMMIT_STAT
  , ⟨0x054, 1, 0x4, 1, .rw, 0xF, 0x800007FF, true, true, false, 0x7F⟩ -- STORE_CTRL
  , ⟨0x058, 1, 0x4, 1, .ro, 0x0, 0x0, false, false, true, 0x7F⟩ -- STORE_STAT
  , ⟨0x05C, 1, 0x4, 1, .ro, 0x0, 0x0, false, false, false, 0x7F⟩ -- STORE_CNT
  , ⟨0x060, 1, 0x4, 1, .ro, 0x0, 0x0, false, false, false, 0x7F⟩ -- BANK_STAT
  , ⟨0x064, 2, 0x4, 1, .ro, 0x0, 0x0, false, false, false, 0x7F⟩ -- BANK_SEQ
  , ⟨0x06C, 1, 0x4, 1, .rw, 0x0, 0xFF, false, false, false, 0x7F⟩ -- ALLOC_SEL
  , ⟨0x070, 1, 0x4, 1, .ro, 0x0, 0x0, false, false, false, 0x7F⟩ -- ALLOC
  , ⟨0x074, 1, 0x4, 1, .ro, 0x0, 0x0, false, false, false, 0x7F⟩ -- FREE
  , ⟨0x078, 1, 0x4, 1, .ro, 0xFFFFFFFF, 0x0, false, false, false, 0x7F⟩ -- LAST_AGE
  , ⟨0x080, 16, 0x4, 1, .rw, 0x0, 0xFFFFFFFF, false, false, true, 0x7F⟩ -- BUF
  ]

/-- Register map of the PWR pages. -/
def pwrRows : List RegRow :=
  [ ⟨0x040, 1, 0x4, 1, .ro, 0x0, 0x0, false, false, false, 0x7F⟩ -- STATE
  , ⟨0x044, 1, 0x4, 1, .wo, 0x0, 0x7, false, false, false, 0x7F⟩ -- REQ
  , ⟨0x048, 1, 0x4, 1, .ro, 0x0, 0x0, false, false, false, 0x7F⟩ -- STAT
  , ⟨0x04C, 1, 0x4, 1, .rw, 0x0, 0x1F, true, true, false, 0x7F⟩ -- WAKE_EN
  , ⟨0x050, 1, 0x4, 1, .ro, 0x0, 0x0, false, false, false, 0x7F⟩ -- WAKE
  , ⟨0x054, 1, 0x8, 2, .rs, 0x0, 0x0, false, false, false, 0x7F⟩ -- WAKE_T
  , ⟨0x05C, 1, 0x4, 1, .ro, 0x0, 0x0, false, false, false, 0x7F⟩ -- VIN
  , ⟨0x060, 1, 0x4, 1, .ro, 0x0, 0x0, false, false, false, 0x7F⟩ -- HOLDUP
  , ⟨0x064, 1, 0x4, 1, .ro, 0x0, 0x0, false, false, false, 0x7F⟩ -- VCORE
  , ⟨0x068, 1, 0x4, 1, .rw, 0x1E00, 0xFFFF, true, true, false, 0x7F⟩ -- PACE_TGT
  , ⟨0x06C, 1, 0x4, 1, .ro, 0x0, 0x0, false, false, false, 0x7F⟩ -- RET_LOST
  ]

/-- Register map of the MGT pages. -/
def mgtRows : List RegRow :=
  [ ⟨0x040, 1, 0x4, 1, .rw, 0x815A, 0x817F, true, true, false, 0x7F⟩ -- CTRL
  , ⟨0x044, 1, 0x4, 1, .ro, 0x0, 0x0, false, false, false, 0x7F⟩ -- STAT
  ]

/-- Register map of the UPD pages. -/
def updRows : List RegRow :=
  [ ⟨0x040, 1, 0x4, 1, .rw, 0x3C1801, 0xFFFF01, true, true, false, 0x7F⟩ -- CTRL
  , ⟨0x044, 1, 0x4, 1, .ro, 0x0, 0x0, false, false, false, 0x7F⟩ -- STAT
  , ⟨0x048, 1, 0x4, 1, .wo, 0x0, 0xC0000003, false, false, false, 0x08⟩ -- STREAM
  , ⟨0x04C, 1, 0x4, 1, .ro, 0x0, 0x0, false, false, false, 0x7F⟩ -- RX_OFF
  , ⟨0x050, 1, 0x4, 1, .ro, 0x0, 0x0, false, false, false, 0x7F⟩ -- RX_STAT
  , ⟨0x054, 2, 0x4, 1, .ro, 0x0, 0x0, false, false, false, 0x7F⟩ -- SLOT
  , ⟨0x05C, 2, 0x4, 1, .ro, 0x0, 0x0, false, false, false, 0x7F⟩ -- LAST_VER
  , ⟨0x064, 1, 0x4, 1, .rw, 0x0, 0xFFFFFFFF, false, false, false, 0x7F⟩ -- ACT_VER
  , ⟨0x068, 1, 0x4, 1, .wo, 0x0, 0x1010F, false, false, false, 0x7F⟩ -- CMD
  , ⟨0x06C, 1, 0x4, 1, .ro, 0x0, 0x0, false, false, true, 0x7F⟩ -- CMD_STAT
  , ⟨0x070, 1, 0x4, 1, .ro, 0x0, 0x0, false, false, false, 0x7F⟩ -- ARB
  , ⟨0x074, 1, 0x4, 1, .ro, 0x0, 0x0, false, false, false, 0x7F⟩ -- PROB_LEFT
  , ⟨0x400, 256, 0x4, 1, .wo, 0x0, 0xFFFFFFFF, false, false, false, 0x08⟩ -- WIN
  ]

/-- Register map of the SEC pages. -/
def secRows : List RegRow :=
  [ ⟨0x040, 1, 0x4, 1, .ro, 0x0, 0x0, false, false, false, 0x7F⟩ -- STAT
  , ⟨0x044, 1, 0x8, 2, .rs, 0x0, 0x0, false, false, false, 0x7F⟩ -- SERIAL
  , ⟨0x04C, 1, 0x8, 2, .rs, 0x0, 0x0, false, false, false, 0x7F⟩ -- EUI_BASE
  , ⟨0x054, 1, 0x4, 1, .ro, 0x0, 0x0, false, false, false, 0x7F⟩ -- CLASS
  , ⟨0x058, 4, 0x4, 1, .ro, 0x0, 0x0, false, false, false, 0x7F⟩ -- KZ_KEY
  , ⟨0x068, 1, 0x4, 1, .ro, 0x0, 0x0, false, false, false, 0x7F⟩ -- OWNER_ID
  , ⟨0x06C, 1, 0x4, 1, .ro, 0x0, 0x0, false, false, false, 0x7F⟩ -- OWNER_PREV
  , ⟨0x070, 1, 0x4, 1, .rw, 0x0, 0x800000FF, false, true, false, 0x7F⟩ -- JOBQ
  , ⟨0x100, 24, 0x4, 1, .ro, 0x0, 0x0, false, false, false, 0x7F⟩ -- ID_PUB
  , ⟨0x160, 1, 0x60, 24, .wo, 0x0, 0xFFFFFFFF, false, false, false, 0x02⟩ -- OWNER_KEY
  ]

/-- Register map of the EVR pages. -/
def evrRows : List RegRow :=
  [ ⟨0x040, 1, 0x4, 1, .rw, 0x3C, 0xFFF, true, true, false, 0x7F⟩ -- CTRL
  , ⟨0x044, 1, 0x4, 1, .ro, 0x0, 0x0, false, false, false, 0x7F⟩ -- STAT
  , ⟨0x048, 1, 0x4, 1, .ro, 0x1, 0x0, false, false, false, 0x7F⟩ -- OLDEST
  , ⟨0x04C, 1, 0x4, 1, .ro, 0x1, 0x0, false, false, false, 0x7F⟩ -- NEXT
  , ⟨0x050, 1, 0x4, 1, .rw, 0x0, 0xFFFFFFFF, false, false, false, 0x03⟩ -- EXPORT
  , ⟨0x054, 1, 0x4, 1, .ro, 0x0, 0x0, false, false, false, 0x7F⟩ -- OVF
  , ⟨0x058, 1, 0x4, 1, .ro, 0x0, 0x0, false, false, false, 0x7F⟩ -- FRZ_CNT
  , ⟨0x05C, 1, 0x4, 1, .wo, 0x0, 0xF, false, false, false, 0x7F⟩ -- CMD
  , ⟨0x060, 1, 0x4, 1, .rw, 0x0, 0xFFFFFFFF, false, false, false, 0x7F⟩ -- ARG
  , ⟨0x064, 1, 0x4, 1, .ro, 0x0, 0x0, false, false, true, 0x7F⟩ -- CMD_STAT
  , ⟨0x068, 1, 0x4, 1, .rw, 0x0, 0x800000FF, false, true, false, 0x7F⟩ -- QUEUE
  ]

/-- Register map of the HLTH pages. -/
def hlthRows : List RegRow :=
  [ ⟨0x040, 1, 0x4, 1, .ro, 0x0, 0x0, false, false, false, 0x7F⟩ -- TEMP
  , ⟨0x044, 1, 0x4, 1, .ro, 0x0, 0x0, false, false, false, 0x7F⟩ -- TEMP_MAX
  , ⟨0x048, 1, 0x4, 1, .rw, 0x640, 0xFFFF, true, true, false, 0x7F⟩ -- TWARN
  , ⟨0x04C, 1, 0x4, 1, .ro, 0xFFFF, 0x0, false, false, false, 0x7F⟩ -- PACE_MIN
  , ⟨0x050, 1, 0x4, 1, .ro, 0x0, 0x0, false, false, false, 0x7F⟩ -- SC_CORR
  , ⟨0x054, 1, 0x4, 1, .ro, 0x0, 0x0, false, false, false, 0x7F⟩ -- SC_UNCORR
  , ⟨0x058, 1, 0x4, 1, .ro, 0x0, 0x0, false, false, false, 0x7F⟩ -- SC_ADDR
  , ⟨0x05C, 1, 0x4, 1, .ro, 0x0, 0x0, false, false, false, 0x7F⟩ -- SC_SYM
  , ⟨0x060, 1, 0x4, 1, .ro, 0x0, 0x0, false, false, false, 0x7F⟩ -- SCRUB
  , ⟨0x064, 1, 0x4, 1, .ro, 0x0, 0x0, false, false, false, 0x7F⟩ -- FAULT_SRC
  , ⟨0x068, 1, 0x4, 1, .rw, 0x1BB, 0xFFFFFFFF, true, true, false, 0x02⟩ -- FAULT_MASK
  , ⟨0x06C, 1, 0x4, 1, .wo, 0x0, 0x3, false, false, false, 0x7F⟩ -- CLR
  , ⟨0x080, 8, 0x4, 1, .ro, 0x0, 0x0, false, false, false, 0x7F⟩ -- RAIL
  ]

/-- The register map of a block's page. -/
def blkRows : Blk → List RegRow
  | .sys => sysRows
  | .fence => fenceRows
  | .ports => portsRows
  | .sess => sessRows
  | .ptab => ptabRows
  | .shf => shfRows
  | .drl => drlRows
  | .drlc => drlcRows
  | .tlr => tlrRows
  | .nrg => nrgRows
  | .nvs => nvsRows
  | .nci => nciRows
  | .uiog => uiogRows
  | .rfx => rfxRows
  | .can => canRows
  | .ser => serRows
  | .dali => daliRows
  | .mac => macRows
  | .prp => prpRows
  | .mz => mzRows
  | .mzp => mzpRows
  | .yoke => yokeRows
  | .fost => fostRows
  | .rtc => rtcRows
  | .ptp => ptpRows
  | .grn => grnRows
  | .pwr => pwrRows
  | .mgt => mgtRows
  | .upd => updRows
  | .sec => secRows
  | .evr => evrRows
  | .hlth => hlthRows

/-- The registers by key, page × 4096 + offset. On pages with several instances i is the instance (for the Ethernet
pages the page number); n numbers like registers within a page. -/
abbrev rSysId : Nat := 0x40
abbrev rSysHalf : Nat := 0x44
abbrev rSysPace : Nat := 0x48
abbrev rSysTimeNs : Nat := 0x50
abbrev rSysModuleAddr : Nat := 0x58
abbrev rSysRestartCause : Nat := 0x5C
abbrev rSysOfflineWrCnt : Nat := 0x60
abbrev rSysCtrl : Nat := 0x64
abbrev rSysAccStat (n : Nat) : Nat := 0x70 + 0x4 * n
abbrev rSysIrqSum (n : Nat) : Nat := 0x80 + 0x4 * n
abbrev rSysIrqClaim (n : Nat) : Nat := 0xA0 + 0x4 * n
abbrev rSysAccAddr (n : Nat) : Nat := 0xB0 + 0x4 * n
abbrev rSysIrqRoute (n : Nat) : Nat := 0x100 + 0x4 * n
abbrev rFenceCtrl : Nat := 0x10040
abbrev rFenceRefuseCnt : Nat := 0x10044
abbrev rFenceLookupSteps : Nat := 0x10048
abbrev rFenceClr : Nat := 0x1004C
abbrev rFenceTenBind (n : Nat) : Nat := 0x10060 + 0x4 * n
abbrev rFenceRights (n : Nat) : Nat := 0x10080 + 0x4 * n
abbrev rPortsClr : Nat := 0x11040
abbrev rPortsDesc (n : Nat) : Nat := 0x11100 + 0x4 * n
abbrev rPortsRefuse (n : Nat) : Nat := 0x11200 + 0x4 * n
abbrev rSessCtrl : Nat := 0x12040
abbrev rSessLimit : Nat := 0x12044
abbrev rSessCount : Nat := 0x12048
abbrev rSessSel : Nat := 0x1204C
abbrev rSessInfo : Nat := 0x12050
abbrev rSessClose : Nat := 0x12080
abbrev rSessFlushTenant : Nat := 0x12084
abbrev rPtabCtrl : Nat := 0x20040
abbrev rPtabStat : Nat := 0x20044
abbrev rPtabCheckCnt : Nat := 0x20048
abbrev rPtabClr : Nat := 0x2004C
abbrev rPtabWr : Nat := 0x20050
abbrev rPtabWrStat : Nat := 0x2005C
abbrev rPtabSel : Nat := 0x20060
abbrev rPtabCfg : Nat := 0x20064
abbrev rPtabCov : Nat := 0x20068
abbrev rPtabSrcb : Nat := 0x2006C
abbrev rPtabOutb : Nat := 0x20070
abbrev rPtabOcc : Nat := 0x20074
abbrev rPtabCmd : Nat := 0x20078
abbrev rPtabCmdStat : Nat := 0x2007C
abbrev rPtabLvlSel : Nat := 0x20080
abbrev rPtabLvlVal : Nat := 0x20084
abbrev rPtabForceCnt : Nat := 0x20090
abbrev rPtabSubFree : Nat := 0x20094
abbrev rPtabBindSel : Nat := 0x200A0
abbrev rPtabBind : Nat := 0x200A4
abbrev rShfCtrl : Nat := 0x21040
abbrev rShfOpen : Nat := 0x21044
abbrev rShfAdd : Nat := 0x21048
abbrev rShfCommit : Nat := 0x21058
abbrev rShfAbort : Nat := 0x2105C
abbrev rShfStat : Nat := 0x21060
abbrev rShfSeq : Nat := 0x21064
abbrev rShfFail : Nat := 0x21068
abbrev rShfJrnl : Nat := 0x2106C
abbrev rShfLastSeq : Nat := 0x21070
abbrev rShfSlots : Nat := 0x21074
abbrev rShfSlotSel : Nat := 0x21080
abbrev rShfSlotInfo : Nat := 0x21084
abbrev rDrlStat (i : Nat) : Nat := 0x30040 + 0x1000 * i
abbrev rDrlLoad (i : Nat) : Nat := 0x30044 + 0x1000 * i
abbrev rDrlMinIdle (i : Nat) : Nat := 0x30048 + 0x1000 * i
abbrev rDrlClr (i : Nat) : Nat := 0x3004C + 0x1000 * i
abbrev rDrlTasks (i : Nat) : Nat := 0x30050 + 0x1000 * i
abbrev rDrlcCtrl : Nat := 0x38040
abbrev rDrlcStat : Nat := 0x38044
abbrev rDrlcProgId : Nat := 0x38048
abbrev rDrlcShadowId : Nat := 0x3804C
abbrev rDrlcSwap : Nat := 0x38050
abbrev rDrlcSwapStat : Nat := 0x38054
abbrev rDrlcTaskSel : Nat := 0x38058
abbrev rDrlcTaskCfg0 : Nat := 0x3805C
abbrev rDrlcTaskCfg1 : Nat := 0x38060
abbrev rDrlcTaskStat : Nat := 0x38064
abbrev rDrlcTaskOvr : Nat := 0x38068
abbrev rDrlcTaskWcet : Nat := 0x3806C
abbrev rDrlcTaskMaxs : Nat := 0x38070
abbrev rDrlcTaskCmd : Nat := 0x38074
abbrev rDrlcFrcBase : Nat := 0x38080
abbrev rDrlcFrc : Nat := 0x38084
abbrev rDrlcFrcStat : Nat := 0x38090
abbrev rDrlcFrcSel : Nat := 0x38094
abbrev rDrlcFrcInfo : Nat := 0x38098
abbrev rTlrCtrl : Nat := 0x40040
abbrev rTlrStat : Nat := 0x40044
abbrev rTlrLoad : Nat := 0x40048
abbrev rTlrMaxLate : Nat := 0x4004C
abbrev rTlrClr : Nat := 0x40050
abbrev rTlrLoopSel : Nat := 0x40054
abbrev rTlrLoopStat : Nat := 0x40058
abbrev rTlrLoopCnt : Nat := 0x4005C
abbrev rTlrLoopCmd : Nat := 0x40060
abbrev rTlrCmdStat : Nat := 0x40064
abbrev rTlrLastT : Nat := 0x40068
abbrev rTlrDuse (n : Nat) : Nat := 0x40080 + 0x4 * n
abbrev rNrgCtrl : Nat := 0x60040
abbrev rNrgStat : Nat := 0x60044
abbrev rNrgGrnBase : Nat := 0x60048
abbrev rNrgCalApply : Nat := 0x6004C
abbrev rNrgNeut : Nat := 0x60050
abbrev rNrgIq : Nat := 0x60054
abbrev rNrgLoss : Nat := 0x60058
abbrev rNrgMSel : Nat := 0x6005C
abbrev rNrgMCfg : Nat := 0x60060
abbrev rNrgMCmd : Nat := 0x60064
abbrev rNrgMStat : Nat := 0x60068
abbrev rNrgMAcc : Nat := 0x60070
abbrev rNrgMLoad : Nat := 0x600A0
abbrev rNrgMTail : Nat := 0x600C0
abbrev rNrgMDem : Nat := 0x600C4
abbrev rNrgMDemx : Nat := 0x600C8
abbrev rNrgMDempk : Nat := 0x600CC
abbrev rNrgMRes (n : Nat) : Nat := 0x600D0 + 0x4 * n
abbrev rNrgMIrec : Nat := 0x600E0
abbrev rNrgHSel : Nat := 0x60100
abbrev rNrgHMag : Nat := 0x60104
abbrev rNrgHPh : Nat := 0x60108
abbrev rNvsCtrl (i : Nat) : Nat := 0x61040 + 0x1000 * i
abbrev rNvsStat (i : Nat) : Nat := 0x61044 + 0x1000 * i
abbrev rNvsScale (i : Nat) : Nat := 0x61048 + 0x1000 * i
abbrev rNvsGain (i n : Nat) : Nat := 0x61050 + 0x1000 * i + 0x10 * n
abbrev rNvsPhase (i n : Nat) : Nat := 0x61054 + 0x1000 * i + 0x10 * n
abbrev rNvsRaw (i n : Nat) : Nat := 0x61058 + 0x1000 * i + 0x10 * n
abbrev rNvsUrms (i n : Nat) : Nat := 0x6105C + 0x1000 * i + 0x10 * n
abbrev rNvsFreq (i : Nat) : Nat := 0x61090 + 0x1000 * i
abbrev rNvsAng (i n : Nat) : Nat := 0x61094 + 0x1000 * i + 0x4 * n
abbrev rNvsThd (i n : Nat) : Nat := 0x6109C + 0x1000 * i + 0x4 * n
abbrev rNciPair (i : Nat) : Nat := 0x69040 + 0x1000 * i
abbrev rNciInvert (i : Nat) : Nat := 0x69044 + 0x1000 * i
abbrev rNciClip (i : Nat) : Nat := 0x69048 + 0x1000 * i
abbrev rNciScale (i n : Nat) : Nat := 0x69100 + 0x1000 * i + 0x20 * n
abbrev rNciSensor (i n : Nat) : Nat := 0x69104 + 0x1000 * i + 0x20 * n
abbrev rNciGain (i n : Nat) : Nat := 0x69108 + 0x1000 * i + 0x20 * n
abbrev rNciPhase (i n : Nat) : Nat := 0x6910C + 0x1000 * i + 0x20 * n
abbrev rNciRaw (i n : Nat) : Nat := 0x69110 + 0x1000 * i + 0x20 * n
abbrev rNciIrms (i n : Nat) : Nat := 0x69114 + 0x1000 * i + 0x20 * n
abbrev rNciP (i n : Nat) : Nat := 0x69118 + 0x1000 * i + 0x20 * n
abbrev rNciThd (i n : Nat) : Nat := 0x6911C + 0x1000 * i + 0x20 * n
abbrev rUiogCalApply (i : Nat) : Nat := 0x50040 + 0x1000 * i
abbrev rUiogStat (i : Nat) : Nat := 0x50044 + 0x1000 * i
abbrev rUiogFault (i : Nat) : Nat := 0x50048 + 0x1000 * i
abbrev rUiogLevel (i : Nat) : Nat := 0x5004C + 0x1000 * i
abbrev rUiogClr (i : Nat) : Nat := 0x50050 + 0x1000 * i
abbrev rUiogMode (i n : Nat) : Nat := 0x50100 + 0x1000 * i + 0x40 * n
abbrev rUiogTstat (i n : Nat) : Nat := 0x50104 + 0x1000 * i + 0x40 * n
abbrev rUiogVal (i n : Nat) : Nat := 0x50108 + 0x1000 * i + 0x40 * n
abbrev rUiogCnt (i n : Nat) : Nat := 0x50110 + 0x1000 * i + 0x40 * n
abbrev rUiogDrv (i n : Nat) : Nat := 0x50114 + 0x1000 * i + 0x40 * n
abbrev rUiogLimlo (i n : Nat) : Nat := 0x50118 + 0x1000 * i + 0x40 * n
abbrev rUiogLimhi (i n : Nat) : Nat := 0x5011C + 0x1000 * i + 0x40 * n
abbrev rUiogRate (i n : Nat) : Nat := 0x50120 + 0x1000 * i + 0x40 * n
abbrev rUiogGain (i n : Nat) : Nat := 0x50124 + 0x1000 * i + 0x40 * n
abbrev rUiogOffs (i n : Nat) : Nat := 0x50128 + 0x1000 * i + 0x40 * n
abbrev rUiogNtcb (i n : Nat) : Nat := 0x5012C + 0x1000 * i + 0x40 * n
abbrev rRfxCtrl : Nat := 0xE0040
abbrev rRfxStat : Nat := 0xE0044
abbrev rRfxLast : Nat := 0xE0048
abbrev rRfxBindSel : Nat := 0xE0054
abbrev rRfxBindStat : Nat := 0xE0058
abbrev rRfxBind : Nat := 0xE0060
abbrev rRfxFsCtrl : Nat := 0xE0080
abbrev rRfxFsSel : Nat := 0xE0084
abbrev rRfxFsEnt : Nat := 0xE0088
abbrev rRfxFsLo : Nat := 0xE008C
abbrev rRfxFsHi : Nat := 0xE0090
abbrev rRfxFsHit : Nat := 0xE0094
abbrev rRfxFsVal : Nat := 0xE0098
abbrev rCanCtrl (i : Nat) : Nat := 0x70040 + 0x1000 * i
abbrev rCanStat (i : Nat) : Nat := 0x70044 + 0x1000 * i
abbrev rCanErrcnt (i : Nat) : Nat := 0x70048 + 0x1000 * i
abbrev rCanNbt (i : Nat) : Nat := 0x7004C + 0x1000 * i
abbrev rCanDbt (i : Nat) : Nat := 0x70050 + 0x1000 * i
abbrev rCanTdc (i : Nat) : Nat := 0x70054 + 0x1000 * i
abbrev rCanCmd (i : Nat) : Nat := 0x70058 + 0x1000 * i
abbrev rCanTxreq (i : Nat) : Nat := 0x7005C + 0x1000 * i
abbrev rCanTxstat (i : Nat) : Nat := 0x70060 + 0x1000 * i
abbrev rCanTb (i : Nat) : Nat := 0x70064 + 0x1000 * i
abbrev rCanRxq (i : Nat) : Nat := 0x70068 + 0x1000 * i
abbrev rCanAck (i : Nat) : Nat := 0x7006C + 0x1000 * i
abbrev rCanLasterr (i : Nat) : Nat := 0x70070 + 0x1000 * i
abbrev rCanRecov (i : Nat) : Nat := 0x70074 + 0x1000 * i
abbrev rCanClr (i : Nat) : Nat := 0x70078 + 0x1000 * i
abbrev rCanCnt (i n : Nat) : Nat := 0x70080 + 0x1000 * i + 0x4 * n
abbrev rSerCtrl (i : Nat) : Nat := 0x80040 + 0x1000 * i
abbrev rSerStat (i : Nat) : Nat := 0x80044 + 0x1000 * i
abbrev rSerBaud (i : Nat) : Nat := 0x80048 + 0x1000 * i
abbrev rSerAsync (i : Nat) : Nat := 0x8004C + 0x1000 * i
abbrev rSerMstp (i : Nat) : Nat := 0x80050 + 0x1000 * i
abbrev rSerOsdp (i : Nat) : Nat := 0x80054 + 0x1000 * i
abbrev rSerQueue (i : Nat) : Nat := 0x80058 + 0x1000 * i
abbrev rSerClr (i : Nat) : Nat := 0x8005C + 0x1000 * i
abbrev rSerPdEn (i : Nat) : Nat := 0x80060 + 0x1000 * i
abbrev rSerCnt (i n : Nat) : Nat := 0x80080 + 0x1000 * i + 0x4 * n
abbrev rSerPdAddr (i n : Nat) : Nat := 0x800C0 + 0x1000 * i + 0x4 * n
abbrev rSerSlot (i n : Nat) : Nat := 0x80100 + 0x1000 * i + 0x10 * n
abbrev rDaliCtrl (i : Nat) : Nat := 0x90040 + 0x1000 * i
abbrev rDaliStat (i : Nat) : Nat := 0x90044 + 0x1000 * i
abbrev rDaliTx (i : Nat) : Nat := 0x90048 + 0x1000 * i
abbrev rDaliTxStat (i : Nat) : Nat := 0x90050 + 0x1000 * i
abbrev rDaliQueue (i : Nat) : Nat := 0x90054 + 0x1000 * i
abbrev rDaliClr (i : Nat) : Nat := 0x90058 + 0x1000 * i
abbrev rDaliBusv (i : Nat) : Nat := 0x9005C + 0x1000 * i
abbrev rDaliCnt (i n : Nat) : Nat := 0x90080 + 0x1000 * i + 0x4 * n
abbrev rMacCtrl (i : Nat) : Nat := 0x40 + 0x1000 * i
abbrev rMacStat (i : Nat) : Nat := 0x44 + 0x1000 * i
abbrev rMacCmd (i : Nat) : Nat := 0x48 + 0x1000 * i
abbrev rMacAddr (i : Nat) : Nat := 0x4C + 0x1000 * i
abbrev rMacQueue (i : Nat) : Nat := 0x54 + 0x1000 * i
abbrev rMacPlca (i : Nat) : Nat := 0x58 + 0x1000 * i
abbrev rMacT1l (i : Nat) : Nat := 0x5C + 0x1000 * i
abbrev rMacClr (i : Nat) : Nat := 0x60 + 0x1000 * i
abbrev rMacHalf (i : Nat) : Nat := 0x64 + 0x1000 * i
abbrev rMacIp4 (i : Nat) : Nat := 0x68 + 0x1000 * i
abbrev rMacIp6 (i : Nat) : Nat := 0x6C + 0x1000 * i
abbrev rMacCnt (i n : Nat) : Nat := 0x100 + 0x1000 * i + 0x4 * n
abbrev rMacFlt (i n : Nat) : Nat := 0x200 + 0x1000 * i + 0x4 * n
abbrev rPrpCtrl : Nat := 0xA2040
abbrev rPrpStat : Nat := 0xA2044
abbrev rPrpForget : Nat := 0xA2048
abbrev rPrpSeq : Nat := 0xA204C
abbrev rPrpClr : Nat := 0xA2050
abbrev rPrpHalf : Nat := 0xA2054
abbrev rPrpCnt (n : Nat) : Nat := 0xA2100 + 0x4 * n
abbrev rMzCtrl : Nat := 0xC0040
abbrev rMzStat : Nat := 0xC0044
abbrev rMzRing : Nat := 0xC0048
abbrev rMzDown : Nat := 0xC004C
abbrev rMzBudget : Nat := 0xC0050
abbrev rMzFwdNs : Nat := 0xC0054
abbrev rMzForget : Nat := 0xC0058
abbrev rMzWakeCode : Nat := 0xC005C
abbrev rMzWakeTx : Nat := 0xC0060
abbrev rMzClr : Nat := 0xC0064
abbrev rMzHalf : Nat := 0xC0068
abbrev rMzCnt (n : Nat) : Nat := 0xC0100 + 0x4 * n
abbrev rMzpCtrl (i : Nat) : Nat := 0xC1040 + 0x1000 * i
abbrev rMzpStat (i : Nat) : Nat := 0xC1044 + 0x1000 * i
abbrev rMzpDelay (i : Nat) : Nat := 0xC1048 + 0x1000 * i
abbrev rMzpKeyCtrl (i : Nat) : Nat := 0xC104C + 0x1000 * i
abbrev rMzpTxcnt (i : Nat) : Nat := 0xC1050 + 0x1000 * i
abbrev rMzpClr (i : Nat) : Nat := 0xC1058 + 0x1000 * i
abbrev rMzpHalf (i : Nat) : Nat := 0xC105C + 0x1000 * i
abbrev rMzpKey0 (i : Nat) : Nat := 0xC1080 + 0x1000 * i
abbrev rMzpKey1 (i : Nat) : Nat := 0xC10A0 + 0x1000 * i
abbrev rMzpCnt (i n : Nat) : Nat := 0xC1100 + 0x1000 * i + 0x4 * n
abbrev rYokeLease : Nat := 0x1040
abbrev rYokeRole : Nat := 0x1044
abbrev rYokeXlink : Nat := 0x1048
abbrev rYokeChallenge : Nat := 0x104C
abbrev rYokeCtrl : Nat := 0x1050
abbrev rYokeCmd : Nat := 0x1054
abbrev rYokeWdog : Nat := 0x1058
abbrev rYokeWdogKick : Nat := 0x105C
abbrev rYokeMismatchCnt : Nat := 0x1060
abbrev rYokeLastMismatch : Nat := 0x1064
abbrev rYokeDiverge : Nat := 0x1068
abbrev rYokeRetireCnt : Nat := 0x106C
abbrev rYokeXfer : Nat := 0x1070
abbrev rYokeStat : Nat := 0x1074
abbrev rFostCtrl : Nat := 0xF0040
abbrev rFostFoster : Nat := 0xF0044
abbrev rFostSelf : Nat := 0xF0048
abbrev rFostPackSeq : Nat := 0xF004C
abbrev rFostPackAge : Nat := 0xF0050
abbrev rFostShared : Nat := 0xF0054
abbrev rFostHeld : Nat := 0xF005C
abbrev rFostSlotSel : Nat := 0xF0068
abbrev rFostSlotAddr : Nat := 0xF006C
abbrev rFostSlotStat : Nat := 0xF0070
abbrev rFostSlotSeq : Nat := 0xF0074
abbrev rFostSlotBuses : Nat := 0xF0078
abbrev rFostSlotPbase : Nat := 0xF0080
abbrev rFostHbMask : Nat := 0xF0084
abbrev rFostCmd : Nat := 0xF008C
abbrev rFostCmdStat : Nat := 0xF0090
abbrev rRtcT : Nat := 0x3040
abbrev rRtcS (n : Nat) : Nat := 0x3050 + 0x4 * n
abbrev rRtcCmd : Nat := 0x3060
abbrev rRtcStat : Nat := 0x3064
abbrev rRtcTemp : Nat := 0x3068
abbrev rRtcCompN : Nat := 0x306C
abbrev rRtcCompC (n : Nat) : Nat := 0x3080 + 0x4 * n
abbrev rRtcCompS (n : Nat) : Nat := 0x3090 + 0x4 * n
abbrev rRtcCompF (n : Nat) : Nat := 0x30A0 + 0x4 * n
abbrev rRtcSwoTime : Nat := 0x30B0
abbrev rRtcSwoCnt : Nat := 0x30B8
abbrev rRtcAlmIvl : Nat := 0x30BC
abbrev rRtcAlmTod : Nat := 0x30C0
abbrev rPtpCtrl : Nat := 0xC8040
abbrev rPtpPrio : Nat := 0xC8044
abbrev rPtpIntv : Nat := 0xC8048
abbrev rPtpServo : Nat := 0xC804C
abbrev rPtpStat : Nat := 0xC8050
abbrev rPtpOffset : Nat := 0xC8054
abbrev rPtpMpd : Nat := 0xC8058
abbrev rPtpRate : Nat := 0xC805C
abbrev rPtpGmId : Nat := 0xC8060
abbrev rGrnStat : Nat := 0x4040
abbrev rGrnPageSel : Nat := 0x4044
abbrev rGrnData : Nat := 0x4048
abbrev rGrnCommit : Nat := 0x404C
abbrev rGrnCommitStat : Nat := 0x4050
abbrev rGrnStoreCtrl : Nat := 0x4054
abbrev rGrnStoreStat : Nat := 0x4058
abbrev rGrnStoreCnt : Nat := 0x405C
abbrev rGrnBankStat : Nat := 0x4060
abbrev rGrnBankSeq (n : Nat) : Nat := 0x4064 + 0x4 * n
abbrev rGrnAllocSel : Nat := 0x406C
abbrev rGrnAlloc : Nat := 0x4070
abbrev rGrnFree : Nat := 0x4074
abbrev rGrnLastAge : Nat := 0x4078
abbrev rGrnBuf (n : Nat) : Nat := 0x4080 + 0x4 * n
abbrev rPwrState : Nat := 0x2040
abbrev rPwrReq : Nat := 0x2044
abbrev rPwrStat : Nat := 0x2048
abbrev rPwrWakeEn : Nat := 0x204C
abbrev rPwrWake : Nat := 0x2050
abbrev rPwrWakeT : Nat := 0x2054
abbrev rPwrVin : Nat := 0x205C
abbrev rPwrHoldup : Nat := 0x2060
abbrev rPwrVcore : Nat := 0x2064
abbrev rPwrPaceTgt : Nat := 0x2068
abbrev rPwrRetLost : Nat := 0x206C
abbrev rMgtCtrl : Nat := 0xD0040
abbrev rMgtStat : Nat := 0xD0044
abbrev rUpdCtrl : Nat := 0x7040
abbrev rUpdStat : Nat := 0x7044
abbrev rUpdStream : Nat := 0x7048
abbrev rUpdRxOff : Nat := 0x704C
abbrev rUpdRxStat : Nat := 0x7050
abbrev rUpdSlot (n : Nat) : Nat := 0x7054 + 0x4 * n
abbrev rUpdLastVer (n : Nat) : Nat := 0x705C + 0x4 * n
abbrev rUpdActVer : Nat := 0x7064
abbrev rUpdCmd : Nat := 0x7068
abbrev rUpdCmdStat : Nat := 0x706C
abbrev rUpdArb : Nat := 0x7070
abbrev rUpdProbLeft : Nat := 0x7074
abbrev rUpdWin (n : Nat) : Nat := 0x7400 + 0x4 * n
abbrev rSecStat : Nat := 0x8040
abbrev rSecSerial : Nat := 0x8044
abbrev rSecEuiBase : Nat := 0x804C
abbrev rSecClass : Nat := 0x8054
abbrev rSecKzKey (n : Nat) : Nat := 0x8058 + 0x4 * n
abbrev rSecOwnerId : Nat := 0x8068
abbrev rSecOwnerPrev : Nat := 0x806C
abbrev rSecJobq : Nat := 0x8070
abbrev rSecIdPub (n : Nat) : Nat := 0x8100 + 0x4 * n
abbrev rSecOwnerKey : Nat := 0x8160
abbrev rEvrCtrl : Nat := 0x5040
abbrev rEvrStat : Nat := 0x5044
abbrev rEvrOldest : Nat := 0x5048
abbrev rEvrNext : Nat := 0x504C
abbrev rEvrExport : Nat := 0x5050
abbrev rEvrOvf : Nat := 0x5054
abbrev rEvrFrzCnt : Nat := 0x5058
abbrev rEvrCmd : Nat := 0x505C
abbrev rEvrArg : Nat := 0x5060
abbrev rEvrCmdStat : Nat := 0x5064
abbrev rEvrQueue : Nat := 0x5068
abbrev rHlthTemp : Nat := 0x6040
abbrev rHlthTempMax : Nat := 0x6044
abbrev rHlthTwarn : Nat := 0x6048
abbrev rHlthPaceMin : Nat := 0x604C
abbrev rHlthScCorr : Nat := 0x6050
abbrev rHlthScUncorr : Nat := 0x6054
abbrev rHlthScAddr : Nat := 0x6058
abbrev rHlthScSym : Nat := 0x605C
abbrev rHlthScrub : Nat := 0x6060
abbrev rHlthFaultSrc : Nat := 0x6064
abbrev rHlthFaultMask : Nat := 0x6068
abbrev rHlthClr : Nat := 0x606C
abbrev rHlthRail (n : Nat) : Nat := 0x6080 + 0x4 * n

abbrev pgKey (p off : Nat) : Nat := p * 0x1000 + off
abbrev pgId (p : Nat) : Nat := p * 0x1000
abbrev pgStat (p : Nat) : Nat := p * 0x1000 + 0x00C
abbrev pgCtrl (p : Nat) : Nat := p * 0x1000 + 0x008
abbrev pgIrqRaw (p : Nat) : Nat := p * 0x1000 + 0x010
abbrev pgIrqEn (p : Nat) : Nat := p * 0x1000 + 0x014
abbrev pgIrq (p : Nat) : Nat := p * 0x1000 + 0x018
abbrev pgPwrReq (p : Nat) : Nat := p * 0x1000 + 0x01C
abbrev pgPwrRsp (p : Nat) : Nat := p * 0x1000 + 0x020
abbrev pgLock (p : Nat) : Nat := p * 0x1000 + 0x024
abbrev pgAcl (p : Nat) : Nat := p * 0x1000 + 0x028
abbrev pgGen (p : Nat) : Nat := p * 0x1000 + 0x02C
abbrev pgErr (p : Nat) : Nat := p * 0x1000 + 0x030
abbrev pgSnap (p : Nat) : Nat := p * 0x1000 + 0x034

/-- The port class of a port index (Tables 3.1 and 3.2). -/
def portClass (i : Nat) : Nat :=
  if i = 0 then 0 else if i ≤ 2 then 1 else if i = 3 then 3 else if i = 4 then 6 else if i = 5 then 5
  else if i ≤ 7 then 15 else if i ≤ 15 then 2 else 4

/-- Reset value of PORTS.DESCi (Table 3.15). -/
def descReset (i : Nat) : Nat :=
  if i = 6 ∨ i = 7 then 0
  else
    let c := portClass i
    let rate := if c = 1 then 0x10 else if c = 2 ∨ c = 3 then 0x04 else 0
    let open_ := if c = 1 ∨ c = 3 then 1 else 0
    2 ^ 31 + c * 2 ^ 24 + rate * 2 ^ 16 + open_

/-- Reset point rights (Table 3.13). -/
def rightsReset (c : Nat) : Nat :=
  if c ≤ 1 then 0x103E else if c = 2 then 0x8005 else if c = 3 then 0x8006 else if c = 4 then 0x10000
  else if c = 5 then 0x1016 else 0x10000

/-- Reset page masks (Table 3.3). -/
def aclReset (p : Nat) : Nat :=
  if p = 0x007 then 0x0B0B else if p = 0x0D0 ∨ p = 0x002 then 0x434B else 0x030B

/-- The row of a register map at an offset, which of its like registers, and which word of that register. -/
def rowAt (rows : List RegRow) (off : Nat) : Option (RegRow × Nat × Nat) :=
  rows.findSome? (fun r =>
    if r.off ≤ off then
      let i := (off - r.off) / r.stride
      let d := (off - r.off) % r.stride
      if i < r.n ∧ d / 4 < r.words ∧ d % 4 = 0 then some (r, i, d / 4) else none
    else none)

/-- The register at a key (none: unassigned page or reserved offset). -/
def regRow (k : Nat) : Option (RegRow × Nat × Nat) :=
  match pageBlk (k / 4096) with
  | none => none
  | some (blk, _, _) => if k % 4096 < 0x40 then rowAt headerRows (k % 4096) else rowAt (blkRows blk) (k % 4096)

/-- The reset value of the word at a key. -/
def regReset (k : Nat) : Word :=
  let p := k / 4096
  let o := k % 4096
  if o < 0x40 then
    word (if o = 0x008 then (if alwaysOn p then 1 else 0) else if o = 0x028 then aclReset p else 0)
  else if k = rSysModuleAddr then word (0x10000 + Config.addrStrap % 2 ^ 16)
  else if 0x3090 ≤ k ∧ k ≤ 0x309C then Config.compFactory ((k - 0x3090) / 4)
  else if 0x10080 ≤ k ∧ k ≤ 0x10098 then word (rightsReset ((o - 0x80) / 4))
  else if 0x11100 ≤ k ∧ k < 0x11200 then word (descReset ((o - 0x100) / 4))
  else if 0xB0 ≤ p ∧ p ≤ 0xB7 ∧ o = 0x040 then 0
  else match regRow k with
    | some (r, _, 0) => word r.reset
    | _ => 0

/-- PG_ID (R41): TYPE, INSTANCE, LAYOUT 0x01. -/
def pgIdOf (p : Nat) : Word :=
  match pageBlk p with
  | some (_, i, t) => word (t * 2 ^ 16 + i * 2 ^ 8 + 1)
  | none => 0

/-- DOMAIN of a page (Table 2.17). -/
def blkDomain (b : Blk) (p : Nat) : Nat :=
  match b with
  | .upd => 1 | .ports => 1 | .fost => 1 | .sess => 1
  | .drl => 2 | .drlc => 2 | .tlr => 2
  | .nrg => 3 | .nvs => 3 | .nci => 3
  | .uiog => 4 | .rfx => 5 | .can => 6 | .ser => 7 | .dali => 7
  | .prp => 8 | .ptp => 8
  | .mac => if p ≤ 0xA1 then 8 else if p ≤ 0xAF ∨ p = 0xB8 then 9 else 10
  | .mz => 11 | .mzp => 11 | .mgt => 12
  | _ => 0

/-- PG_CAP.BLOCK and PG_CAP.NIRQ, as each block's chapter gives them; 0 where it gives none. -/
def blkCap (b : Blk) (p i : Nat) : Nat × Nat :=
  match b with
  | .ptab => (0x0040, 5) | .shf => (0x0020, 4) | .drl => (i, 3) | .drlc => (0, 3) | .tlr => (0x0200, 5)
  | .nrg => (0x00C0, 6) | .nvs => (0x0004, 0) | .nci => (0x0020, 0) | .uiog => (0x0010, 3) | .rfx => (0x0400, 2)
  | .can => (0x0C00, 6) | .ser => (0x0040, 4) | .dali => (0x0020, 4)
  | .mac => (if p ≤ 0xA1 then 1 else if p ≤ 0xAF then 2 else if p ≤ 0xB7 then 3 else 4, 5)
  | .prp => (0x0400, 2) | .mz => (0x1000, 3) | .mzp => (if i ≤ 1 then 1 else 2, 4)
  | .yoke => (0, 4) | .fost => (0, 4) | .rtc => (0, 4) | .ptp => (0, 4) | .grn => (0x0100, 4)
  | .pwr => (0, 4) | .mgt => (0, 1) | .upd => (0, 3) | .sec => (0, 1) | .evr => (0, 3) | .hlth => (0, 5)
  | _ => (0, 0)

/-- PG_CAP of a page (Table 2.5, R550). -/
def pgCapOf (p : Nat) : Word :=
  match pageBlk p with
  | none => 0
  | some (b, i, _) =>
    let rows := blkRows b
    let staged := rows.any (fun r => r.acc = .st)
    let lockable := rows.any (fun r => r.lock)
    let (blk, nirq) := blkCap b p i
    word (blk * 2 ^ 16 + blkDomain b p * 2 ^ 12 + staged.toNat * 2 ^ 11 + lockable.toNat * 2 ^ 10
      + (!alwaysOn p).toNat * 2 ^ 9 + (!alwaysOn p).toNat * 2 ^ 8 + nirq)

end Sys2Proof.Machine
end

