-- ==== Sys2Proof/Machine/Ops.lean ====
section
/-! DEFINITION. The named operations over registers, accessors, events and interrupts that every block uses. -/
namespace Sys2Proof.Machine

/-- The other half. -/
def other : HalfId → HalfId
  | .a => .b
  | .b => .a

/-- A half's number as parameters of events give it: 0 A, 1 B. -/
def halfNum : HalfId → Nat
  | .a => 0
  | .b => 1

/-- A half of the module. -/
def State.half (s : State) : HalfId → Half
  | .a => s.a
  | .b => s.b

/-- The module with one half replaced. -/
def State.set (s : State) (h : HalfId) (m : Half) : State :=
  match h with
  | .a => { s with a := m }
  | .b => { s with b := m }

/-- The module with one half changed. -/
def State.upd (s : State) (h : HalfId) (f : Half → Half) : State := s.set h (f (s.half h))

/-- The module with both halves changed alike. -/
def State.both (s : State) (f : Half → Half) : State := { s with a := f s.a, b := f s.b }

/-- One half as the Yoke sees it. -/
def State.yh (s : State) : HalfId → YHalf
  | .a => s.yoke.a
  | .b => s.yoke.b

/-- The module with the Yoke's view of one half changed. -/
def State.updY (s : State) (h : HalfId) (f : YHalf → YHalf) : State :=
  match h with
  | .a => { s with yoke := { s.yoke with a := f s.yoke.a } }
  | .b => { s with yoke := { s.yoke with b := f s.yoke.b } }

/-- The role of a half (R382). -/
def State.role (s : State) (h : HalfId) : Role := (s.yh h).role

/-- Table 16.1: the codes of the roles. -/
def roleCode : Role → Nat
  | .booting => 0
  | .inCharge => 1
  | .follower => 2
  | .muted => 3
  | .retired => 4

/-- A half runs unless it is RETIRED (Table 16.1), the module holds both in reset (R453, R524), both are off in Dormant
(R469), it stands in retention in Fallow (R464), or its start-up steps are still to run (Table 16.1). -/
def State.runs (s : State) (h : HalfId) : Bool :=
  decide (s.role h ≠ .retired) && !s.yoke.pwr.held && decide (s.yoke.pwr.state ≠ 3) && !(s.yh h).inRet
    && (s.yh h).boot.isNone

/-- The half computes epochs (Table 16.1). -/
def State.computes (s : State) (h : HalfId) : Bool :=
  decide (s.role h = .inCharge) || decide (s.role h = .follower) || decide (s.role h = .muted)

/-- The half holds a valid lease (R18, R383), or the latch counts as one for it (R391). -/
def State.lease (s : State) (h : HalfId) : Bool := decide (s.yoke.holder = some h)

/-- The half transmits on its own building and ring ports (Table 1.4). -/
def State.speaks (s : State) (h : HalfId) : Bool :=
  decide (s.role h = .inCharge) || decide (s.role h = .follower)

/-- What the Yoke tells a half (R17): its role, whether it holds a valid lease, whether any half does (R18), whether
PFW is asserted, the module's power state (Table 19.3), whether the bypass relays are closed (R362), and whether the half runs the
power-fail sequence, whatever began it (R453, R515, R527), whether no lease has been granted since the start (R525), and whether
the half runs the recovery image (R495), which holds every lease-gated output but SVC harmless and sends nothing on building or ring
ports. -/
structure View where
  role  : Role
  mine  : Bool
  any   : Bool
  pfw   : Bool
  power : Nat
  relay : Bool
  fail  : Bool
  start : Bool
  recov : Bool
  leap  : Nat
  deriving DecidableEq, Repr

/-- What the Yoke tells half h; leap is the TAI−UTC offset that the time block holds (R265). -/
def State.view (s : State) (h : HalfId) : View :=
  ⟨s.role h, s.lease h, s.yoke.holder.isSome && !(s.half h).upd.recovery, s.yoke.pwr.pfw, s.yoke.pwr.state, s.yoke.relay,
    (s.yh h).storing, !s.yoke.granted, (s.half h).upd.recovery, s.yoke.rtc.taiUtc⟩

/-- The half transmits on its own building and ring ports (Table 1.4). -/
def View.speaks (y : View) : Bool := (decide (y.role = .inCharge) || decide (y.role = .follower)) && !y.recov

/-- The half drives the lease-gated ports: it is in charge with a valid lease (Table 1.4, R18). -/
def View.drives (y : View) : Bool := decide (y.role = .inCharge) && y.mine && !y.recov

/-- The half sends on the service port while it runs the recovery image (R495). -/
def View.svc (y : View) : Bool := decide (y.role = .inCharge) && y.mine && y.recov

/-- Registers of pages that lie in the Yoke and read alike from both halves (R428, R473, R474). -/
def sharedKey (k : Nat) : Bool :=
  decide (0x40 ≤ k % 4096) &&
    (decide (k / 4096 = 0x003) || decide (k / 4096 = 0x0D0) || (decide (k / 4096 = 0x001) && decide (k ≠ rYokeWdog))
      || (decide (k / 4096 = 0x002) && decide (k ≠ rPwrVcore) && decide (k ≠ rPwrPaceTgt)))

/-- What a half's register store holds under a key. -/
def Half.rd (m : Half) (k : Nat) : Word := sget (regReset k) m.regs k

/-- The half with a register written. -/
def Half.wr (m : Half) (k : Nat) (v : Word) : Half := { m with regs := sset (regReset k) m.regs k v }

/-- A register as a number. -/
def Half.rdN (m : Half) (k : Nat) : Nat := (m.rd k).toNat

/-- Bits [lo + n − 1 : lo] of a register. -/
def Half.rdF (m : Half) (k lo n : Nat) : Nat := fld (m.rd k) lo n

/-- Bit i of a register. -/
def Half.rdB (m : Half) (k i : Nat) : Bool := flag (m.rd k) i

/-- Writes a number into a register. -/
def Half.wrN (m : Half) (k n : Nat) : Half := m.wr k (word n)

/-- Writes bits [lo + n − 1 : lo] of a register. -/
def Half.wrF (m : Half) (k lo n v : Nat) : Half := m.wr k (putFld (m.rd k) lo n v)

/-- Writes bit i of a register. -/
def Half.wrB (m : Half) (k i : Nat) (b : Bool) : Half := m.wr k (putFlag (m.rd k) i b)

/-- A 64-bit register from its two words. -/
def Half.rdD (m : Half) (k : Nat) : Dword := dword (m.rd k) (m.rd (k + 4))

/-- Writes a 64-bit register as one cell (R56). -/
def Half.wrD (m : Half) (k : Nat) (d : Dword) : Half := (m.wr k (loWord d)).wr (k + 4) (hiWord d)

/-- A diagnostic counter that sticks at 0xFFFF_FFFF (R60). -/
def Half.stick (m : Half) (k n : Nat) : Half := m.wrN k (stickTo 0xFFFFFFFF (m.rdN k) n)

/-- A register of the half's pages or of the Yoke's. -/
def State.rd (s : State) (h : HalfId) (k : Nat) : Word :=
  if sharedKey k then sget (regReset k) s.yoke.regs k else (s.half h).rd k

/-- Writes a register of the half's pages or of the Yoke's. -/
def State.wr (s : State) (h : HalfId) (k : Nat) (v : Word) : State :=
  if sharedKey k then { s with yoke := { s.yoke with regs := sset (regReset k) s.yoke.regs k v } }
  else s.upd h (fun m => m.wr k v)

/-- A register as a number. -/
def State.rdN (s : State) (h : HalfId) (k : Nat) : Nat := (s.rd h k).toNat

/-- Bits of a register. -/
def State.rdF (s : State) (h : HalfId) (k lo n : Nat) : Nat := fld (s.rd h k) lo n

/-- Bit i of a register. -/
def State.rdB (s : State) (h : HalfId) (k i : Nat) : Bool := flag (s.rd h k) i

/-- Writes bits of a register. -/
def State.wrF (s : State) (h : HalfId) (k lo n v : Nat) : State := s.wr h k (putFld (s.rd h k) lo n v)

/-- Sets a source of a page's PG_IRQ_RAW (R44). -/
def Half.irq (m : Half) (page i : Nat) : Half := m.wrB (pgIrqRaw page) i true

/-- An event arises (R506): it joins those that wait for the recorder, with the instant at which it arose. -/
def Half.ev (m : Half) (code p0 p1 p2 p3 : Nat) : Half :=
  { m with evr := { m.evr with arising := m.evr.arising ++ [⟨code, p0, p1, p2, p3, m.tai⟩] } }

/-- An event of one half. -/
def State.ev (s : State) (h : HalfId) (code p0 p1 p2 p3 : Nat) : State := s.upd h (fun m => m.ev code p0 p1 p2 p3)

/-- A change in each half that runs. -/
def State.each (s : State) (f : Half → Half) : State :=
  let s1 := if s.runs .a then s.upd .a f else s
  if s1.runs .b then s1.upd .b f else s1

/-- A module-wide event: each half that runs reports it (R507). -/
def State.evAll (s : State) (code p0 p1 p2 p3 : Nat) : State := s.each (fun m => m.ev code p0 p1 p2 p3)

/-- Sets a source of a page in one half. -/
def State.irq (s : State) (h : HalfId) (page i : Nat) : State := s.upd h (fun m => m.irq page i)

/-- Sets a source of a page in every half that runs. -/
def State.irqAll (s : State) (page i : Nat) : State := s.each (fun m => m.irq page i)

/-- Changes the Yoke. -/
def State.updYk (s : State) (f : Yoke → Yoke) : State := { s with yoke := f s.yoke }

/-- Changes the power sequencer. -/
def State.updPwr (s : State) (f : PwrSt → PwrSt) : State := s.updYk (fun k => { k with pwr := f k.pwr })

/-- PG_PWR_REQ of pages takes a target under one new TAG (R462). -/
def State.pwrReq (s : State) (l : List (HalfId × Nat)) (target : Nat) : State :=
  let t := (s.yoke.pwr.tag + 1) % 256
  l.foldl (fun s e => s.upd e.1 (fun m => m.wrN (e.2 * 4096 + 0x01C) (t * 256 + target))) (s.updPwr (fun p => { p with tag := t }))

/-- PWR.STAT (Table 19.13). -/
def pwrStatWord (busy : Bool) (result reason page target : Nat) : Word :=
  word (busy.toNat * 2 ^ 31 + result * 2 ^ 24 + reason * 2 ^ 16 + page % 256 * 2 ^ 8 + target)

/-- R462: an entry aborts: every page that had accepted is sent TARGET ON, and event 0x0302 records the refusal. -/
def State.entryAbort (s : State) (result page reason : Nat) : State :=
  match s.yoke.pwr.entry with
  | none => s
  | some e =>
    let s1 := (s.pwrReq e.accepted 0).updPwr (fun p => { p with entry := none, stat := pwrStatWord false result reason page e.target })
    (s1.evAll 0x0302 e.target result page reason).irqAll 0x002 3

/-- A role changes (R382): YOKE bit 0, event 0x0201 with its row of Table 16.2, and a power-state entry in progress ends (Table 19.6). -/
def State.setRole (s : State) (h : HalfId) (r : Role) (cause : Nat) : State :=
  let old := s.role h
  if old = r then s
  else
    let s1 := s.updY h (fun y => { y with role := r })
    ((s1.evAll 0x0201 (halfNum h) (roleCode old) (roleCode r) cause).irqAll 0x001 0).entryAbort 2 0 0xFD

/-- A lease goes to a half with the next EPOCH (R383), in one step. -/
def State.moveLease (s : State) (h : HalfId) : State :=
  s.updYk (fun k => { k with holder := some h, epoch := (k.epoch + 1) % 65536, renewAt := k.now, granted := true })

/-- A half is to run its start-up steps, with restart causes to set (Table 22.2). -/
def State.reboot (s : State) (h : HalfId) (causes : Nat) : State :=
  s.updY h (fun y => { y with boot := some causes, ready := none, inRet := false })

/-- R489: a half retires and is rejoined at once, to start from the slot of the activation; the retirement is not counted. -/
def State.updRestart (s : State) (h : HalfId) : State :=
  let s1 := (s.setRole h .retired 12).setRole h .booting 13
  let a := s.yoke.act
  let s2 := s1.upd h (fun m => { m with upd := { m.upd with next := if a.phase = 1 then a.slot else a.was } })
  (s2.reboot h (2 ^ 7 + 2 ^ 6)).updYk (fun k => { k with act := { k.act with who := some h, since := k.now } })

/-- No sheaf of the half is COMMITTED. -/
def Half.noneCommitted (m : Half) : Bool := m.shf.slots.all (fun e => decide (e.2.state ≠ 3))

/-- HANDOVER (R385): a handover that waits moves the lease at the first instant at which no sheaf of either half is COMMITTED. In an
activation the half that hands over restarts from the slot next (R489). -/
def State.handoverStep (s : State) : State :=
  match s.yoke.handover, s.yoke.holder with
  | some st, some h =>
    let o := other h
    if s.role h = .inCharge ∧ s.role o = .follower ∧ s.a.noneCommitted ∧ s.b.noneCommitted then
      let s1 := (((s.updYk (fun k => { k with handover := none })).moveLease o).setRole h .follower 5).setRole o .inCharge 6
      let s2 := s1.evAll 0x020A (halfNum h + 1) (halfNum o + 1) s1.yoke.epoch st.toNat
      if (s.yoke.act.phase = 1 ∨ s.yoke.act.phase = 4) ∧ s.yoke.act.who = some o then s2.updRestart h else s2
    else s
  | _, _ => s

/-- After a half has acted: words that its sheaves have written into the Yoke's pages reach them, and a handover that waits may go on. -/
def State.flush (s : State) (h : HalfId) : State :=
  match (s.half h).shf.toYoke with
  | [] => s.handoverStep
  | l =>
    let regs := l.foldl (fun r e => sset (regReset e.1) r e.1 e.2) s.yoke.regs
    { s.upd h (fun m => { m with shf := { m.shf with toYoke := [] } }) with yoke := { s.yoke with regs := regs } }.handoverStep

/-- The halves that take a distributed input (R19): those that are not held in reset. -/
def State.onInput (s : State) (f : HalfId → State → State) : State :=
  let s1 := if s.runs .a then (f .a s).flush .a else s
  if s1.runs .b then (f .b s1).flush .b else s1

/-- A distributed input that each half's engines handle alone. -/
def State.input (s : State) (f : View → Half → Half) : State :=
  s.onInput (fun h s => s.upd h (f (s.view h)))

/-- A command of one half's own engine, timer or register page: nothing happens in a half held in reset. -/
def State.onHalf (s : State) (h : HalfId) (f : State → State) : State := if s.runs h then (f s).flush h else s

/-- A command of one half's engines alone. -/
def State.local_ (s : State) (h : HalfId) (f : View → Half → Half) : State :=
  s.onHalf h (fun s => s.upd h (f (s.view h)))

/-- A distributed input of a building, tenant or field transceiver: PFW turns them all off (Table 19.2). -/
def State.busInput (s : State) (f : View → Half → Half) : State := if s.yoke.pwr.pfw then s else s.input f

/-- A command of one half's own transceiver or its timer: PFW turns them all off (Table 19.2). -/
def State.busLocal (s : State) (h : HalfId) (f : View → Half → Half) : State := if s.yoke.pwr.pfw then s else s.local_ h f

/-- The transmitter lies behind the lease-gated output stage, and its frames name no half of their own (Table 1.4). -/
def Sent.gated : Sent → Bool
  | .ser .. => true
  | .dali .. => true
  | .can .. => true
  | _ => false

/-- R18, R21: the lease-gated output stage sends what the half in charge hands it, and nothing of another half; n is what the half had
handed its transmitters before. -/
def Half.outputGate (m : Half) (y : View) (n : Nat) : Half :=
  if y.drives then m else { m with sent := m.sent.take n ++ (m.sent.drop n).filter (fun x => !x.gated) }

/-- A distributed input that a CAN, serial or DALI transceiver answers: what both halves compute, the half in charge sends (R19, R21). -/
def State.lineInput (s : State) (f : View → Half → Half) : State := s.busInput (fun y m => (f y m).outputGate y m.sent.length)

/-- A timer of one half's engine at a CAN, serial or DALI transceiver. -/
def State.lineLocal (s : State) (h : HalfId) (f : View → Half → Half) : State :=
  s.busLocal h (fun y m => (f y m).outputGate y m.sent.length)

/-- A 32-bit counter that wraps (R60), and whether it has passed a half-range boundary (R61). -/
def Half.wrapCount (m : Half) (k n : Nat) : Half × Bool :=
  let o := m.rdN k
  let v := o + n
  (m.wrN k v, decide (o / 2 ^ 31 ≠ v / 2 ^ 31))

/-- A traffic counter with a half-range interrupt: bit i of the page's PG_IRQ_RAW. -/
def Half.count (m : Half) (k n page i : Nat) : Half :=
  match m.wrapCount k n with
  | (m, true) => m.irq page i
  | (m, false) => m

/-- A traffic counter with a half-range interrupt that also sets bit j of a HALF register. -/
def Half.countH (m : Half) (k n page i half j : Nat) : Half :=
  match m.wrapCount k n with
  | (m, true) => (m.irq page i).wrB half j true
  | (m, false) => m

/-- PG_GEN counts one configuration change of a page, and wraps (R47). -/
def Half.gen (m : Half) (page : Nat) : Half := m.wrN (pgGen page) (m.rdN (pgGen page) + 1)

/-- The state of a page in the always-on directory: powered and ready unless the sequencer has it otherwise. -/
def dirReset : PageDir := ⟨true, true, false, false, false⟩

/-- The directory's entry of a page that the sequencer powers up to ON; a block that an access is waking is READY when that ends (R58). -/
def PageDir.up (d : PageDir) : PageDir :=
  if d.waking then { d with powered := true } else ⟨true, true, false, false, d.fault⟩

/-- The directory's entry of a page. -/
def Half.page (m : Half) (p : Nat) : PageDir := sget dirReset m.dir p

/-- What an accessor holds at reset: nothing. -/
def accReset : Acc := ⟨[], [], [], [], ⟨0, 0⟩, none, 0⟩

/-- The page whose block holds the words at a key or address: a register page, or the controller of a CAN object. -/
def keyPage (k : Nat) : Nat :=
  if k < 2 ^ 20 then k / 4096 else if 0x54000000 ≤ k ∧ k < 0x543E0000 then 0x070 + (k - 0x54000000) / 0x3E000 else k

/-- R53: an accessor's snapshots of a page are discarded. -/
def Acc.dropPage (a : Acc) (p : Nat) : Acc :=
  { a with snaps := a.snaps.filter (fun e => decide (keyPage e.1 ≠ p)), pageSnaps := a.pageSnaps.filter (fun q => decide (q ≠ p)) }

/-- Writes the directory's entry of a page. A page that is not READY keeps no snapshot (R53). -/
def Half.setPage (m : Half) (p : Nat) (d : PageDir) : Half :=
  let accs := if d.ready then m.accs else (m.accs.map (fun e => (e.1, e.2.dropPage p))).filter (fun e => decide (e.2 ≠ accReset))
  { m with accs := accs, dir := sset dirReset m.dir p d }

/-- What an accessor of the half holds. -/
def Half.acc (m : Half) (n : Nat) : Acc := sget accReset m.accs n

/-- Changes what an accessor holds. -/
def Half.updAcc (m : Half) (n : Nat) (f : Acc → Acc) : Half :=
  { m with accs := sset accReset m.accs n (f (m.acc n)) }

/-- An accessor's view of a per-accessor register. -/
def Half.view (m : Half) (n k : Nat) : Word := sget (regReset k) (m.acc n).view k

/-- Writes an accessor's view of a per-accessor register. -/
def Half.setView (m : Half) (n k : Nat) (v : Word) : Half :=
  m.updAcc n (fun a => { a with view := sset (regReset k) a.view k v })

/-- R52: the number of an accessor: the policy cores 0 to 3, MGT 4, the IPP engine 5. -/
def reqNum : Req → Nat
  | .core c => c.val
  | .mgt => 4
  | .ipp _ => 5

/-- The stamp a requester's accesses carry (R73): the policy cores LOCAL, MGT its class and port index 0x04. -/
def reqStamp : Req → Stamp
  | .core _ => 0x0000
  | .mgt => 0x6004
  | .ipp st => st

/-- The class of a stamp (R73). -/
def stampClass (st : Stamp) : Nat := st.toNat / 2 ^ 12

/-- The tenant of a stamp (R73). -/
def stampTenant (st : Stamp) : Nat := nfld st.toNat 6 6

/-- The port index of a stamp (R73). -/
def stampPort (st : Stamp) : Nat := nfld st.toNat 0 6

/-- A stamp of a class, tenant and port index. -/
def mkStamp (c t p : Nat) : Stamp := BitVec.ofNat 16 (c * 2 ^ 12 + t * 2 ^ 6 + p)

/-- The class of a requester. -/
def reqClass (r : Req) : Nat := stampClass (reqStamp r)

/-- A requester's accesses reach one half, but an IPP request reaches both (R19). In Dormant the Yoke answers MGT (R469). In Fallow
the policy cores are stopped (R459). -/
def State.onReq (s : State) (h : HalfId) (r : Req) (f : HalfId → State → State) : State :=
  match r with
  | .ipp _ => s.onInput f
  | .mgt => if s.yoke.pwr.state = 3 then f h s else s.onHalf h (f h)
  | .core _ => if s.yoke.pwr.state = 2 then s else s.onHalf h (f h)

/-- The module address (R67). -/
def Half.addr (m : Half) : Nat := m.rdF rSysModuleAddr 0 16

/-- What an empty slot holds (Table 20.5). -/
def slotEmpty : UpdSlot := ⟨0, 0, 0, 0, false, 0, 0, [], []⟩

/-- An image slot of the half. -/
def Half.upSlot (m : Half) (i : Nat) : UpdSlot := sget slotEmpty m.upd.slots i

/-- A part of the configuration image of the slot the half runs; an empty configuration part (R531) and the recovery image (R495)
hold none. -/
def Half.cfg (m : Half) (part : Nat) : List (Nat × List Nat) :=
  let img := (m.upSlot m.upd.run).cfg
  if m.upd.recovery || img.isEmpty then [] else Config.cfgPart img part

/-- A foster slot with nothing in it: IDLE. -/
def fostSlotReset : FostSlot := ⟨0, 0, false, false, 0, 0, 0, 0, 0, 0, none, none, [], 0, [], 0⟩

/-- A foster slot (0 and 1), or the return pack's (2). -/
def Half.fslot (m : Half) (k : Nat) : FostSlot := sget fostSlotReset m.fost.slots k

/-- Changes a foster slot. -/
def Half.updFs (m : Half) (k : Nat) (f : FostSlot → FostSlot) : Half :=
  { m with fost := { m.fost with slots := sset fostSlotReset m.fost.slots k (f (m.fslot k)) } }

/-- The instance of a foster slot runs (R398). -/
def FostSlot.runs (x : FostSlot) : Bool := decide (x.st = 3) || decide (x.st = 4)

/-- BASE of SLOT_PBASE. -/
def FostSlot.base (x : FostSlot) : Nat := fld x.pbase 0 16

/-- R398: the foster slot whose instance serves an address. -/
def Half.fostFor (m : Half) (a : Nat) : Option Nat := [0, 1].find? (fun k => (m.fslot k).runs && decide ((m.fslot k).addr = a))

/-- R398: the fostered point at a point index: its slot, the protected module's address, and its index there. -/
def Half.fosteredAt (m : Half) (i : Nat) : Option (Nat × Nat × Nat) :=
  match [0, 1].find? (fun k => (m.fslot k).runs && decide ((m.fslot k).base ≤ i) && decide (i < (m.fslot k).base + (m.fslot k).pts.length)) with
  | none => none
  | some k => some (k, (m.fslot k).addr, (m.fslot k).pts.getD (i - (m.fslot k).base) 0)

/-- R398: the index at which this module serves point i of the module at address a; none for a point it does not serve. -/
def Half.pointHere (m : Half) (a i : Nat) : Option Nat :=
  if a = m.addr then some i
  else match m.fostFor a with
    | none => none
    | some k => ((m.fslot k).pts.findIdx? (fun j => decide (j = i))).map (fun j => (m.fslot k).base + j)

/-- The tasks that are the foster's copies of a protected module's bus tasks, by slot (part 14). -/
def Half.reserveTasks (m : Half) (k : Nat) : List Nat := (sfind (m.cfg 14) (k * 8 + 4)).getD []

end Sys2Proof.Machine
end

