-- ==== Sys2Proof/Machine/Access.lean ====
section
/-! DEFINITION. How a register access is answered (R36 to R38, R46, R48, R50 to R59, R551): the checks of Table 2.12 in
order, staged words, writes that become actions of an open sheaf, and what a refusal records. -/
namespace Sys2Proof.Machine

/-- The address of a register key in the register-page region (Table 2.1). -/
def keyAddr (k : Nat) : Nat := 0x40000000 + k

/-- The port classes that may command an operation, by the value written, where a field's meaning names its classes
(R69, R385, Table 16.15, Table 16.17, R460, Table 20.13, Table 21.9, Table 10.10); bit c for class c. -/
def opClasses (k : Nat) (v : Word) : Nat :=
  let op := fld v 0 4
  if k = rSysCtrl then (if flag v 31 then 0x03 else 0x7F)
  else if k = rYokeCmd then (if op = 1 then 0x03 else if op = 2 then 0x0A else if op = 3 then 0x01 else 0x7F)
  else if k = rFostCmd then (if op = 1 ∨ op = 2 then 0x02 else if op = 3 then 0x03 else 0x7F)
  else if k = rPwrReq then 0x43
  else if k = rUpdCmd then
    (if flag v 8 then 0x02 else if op = 1 ∨ op = 2 then 0x0A else if op = 3 then 0x02
     else if op = 4 ∨ op = 5 then 0x01 else 0x7F)
  else if k = rEvrCmd then (if op = 4 then 0x02 else 0x7F)
  else if k = rNrgMCmd then (if op = 3 then 0x02 else 0x7F)
  else 0x7F

/-- R551, R105: the class may write the register, the field and the command; FENCE takes no write from LOCAL. -/
def classMay (k : Nat) (v : Word) (c : Nat) : Bool :=
  (opClasses k v).testBit c && !(decide (k / 4096 = 0x010) && decide (c = 0)) &&
    (match regRow k with
     | some (row, _, _) => row.cls.testBit c
     | none => true)

/-- R36: the register is Lockable and its page is locked against a class other than OWNER. -/
def Half.lockedFor (m : Half) (k c : Nat) : Bool :=
  decide (c ≠ 1) && m.rdB (pgLock (k / 4096)) 0 &&
    (match regRow k with
     | some (row, _, _) => row.lock
     | none => false)

/-- The page is READY (Table 2.7). -/
def Half.ready (m : Half) (p : Nat) : Bool := (m.page p).ready

/-- The block of a page operates: it is always enabled, or powered with PG_CTRL.EN at 1 (Table 2.6, R42). -/
def Half.on (m : Half) (p : Nat) : Bool := alwaysOn p || (m.ready p && m.rdB (pgCtrl p) 0)

/-- Checks 1, 3 and 4 of Table 2.12 for a read, as a status of Table 3.7 and a code of Table 2.10 (0, 0: passed). -/
def Half.checkRead (m : Half) (c k : Nat) : Nat × Nat :=
  let p := k / 4096
  if (pageBlk p).isNone then (1, 0)
  else if !m.rdB (pgAcl p) c then (3, 1)
  else if !m.ready p && decide (k ≠ pgId p) && decide (k ≠ pgStat p) then (4, 0)
  else (0, 0)

/-- Checks 1, 3, 4 and 5 of Table 2.12 for a write of a word (R57: every write to a page that is not READY is discarded). DESIGN CHOICE
(log entry 78): the lock is tested before the class, so that a write of LOCAL to a Lockable register of FENCE records LOCKED (R36) and
not DENIED (R105) while the page is locked. -/
def Half.checkWrite (m : Half) (c k : Nat) (v : Word) : Nat × Nat :=
  let p := k / 4096
  if (pageBlk p).isNone then (1, 0)
  else if !m.rdB (pgAcl p) (8 + c) then (3, 1)
  else if !m.ready p then (4, 0)
  else if m.lockedFor k c then (3, 2)
  else if !classMay k v c then (3, 1)
  else (0, 0)

/-- R48, Table 2.10: PG_ERR takes the most recent refused access, while the page is READY. -/
def Half.pgError (m : Half) (p code : Nat) (st : Stamp) : Half :=
  if m.ready p && decide (code ≠ 0) then
    m.wrN (pgErr p) (stickTo 0xFF (m.rdF (pgErr p) 24 8) 1 * 2 ^ 24 + st.toNat * 2 ^ 8 + code)
  else m

/-- SYS.ACC_STAT.STATUS (Table 2.16) of a status of Table 3.7. -/
def accStatus (status : Nat) : Nat := if status = 5 then 6 else status

/-- R51: SYS.ACC_STATc and SYS.ACC_ADDRc take a policy core's refused access. -/
def Half.accRecord (m : Half) (r : Req) (addr status : Nat) : Half :=
  match r with
  | .core c =>
    let inPages := decide (0x40000000 ≤ addr) && decide (addr < 0x40100000)
    let off := if inPages then addr % 4096 else 0
    let pg := if inPages then addr / 4096 % 256 else 0
    (m.wrN (rSysAccStat c.val) (stickTo 0xFF (m.rdF (rSysAccStat c.val) 24 8) 1 * 2 ^ 24 + off * 2 ^ 12 + pg * 2 ^ 4
      + status)).wrN (rSysAccAddr c.val) addr
  | _ => m

/-- The accessor's answer. -/
def Half.answer (m : Half) (r : Req) (status : Nat) (value : Dword) : Half :=
  m.updAcc (reqNum r) (fun a => { a with answer := ⟨status, value⟩ })

/-- A refused access: PG_ERR, SYS.OFFLINE_WR_CNT for the words of a write to a page that is not READY (R57), the core's
record (R51), and the answer. -/
def Half.refuseAt (m : Half) (r : Req) (addr words status code : Nat) : Half :=
  let m1 := if status = 4 then m.stick rSysOfflineWrCnt words else m
  let m2 := m1.pgError (addr / 4096 % 1024) code (reqStamp r)
  (m2.accRecord r addr (accStatus status)).answer r status 0

/-- R54: one more access of the accessor to the register-page region. -/
def Half.ageStaged (m : Half) (n : Nat) : Half :=
  m.updAcc n (fun a => { a with staged := a.staged.map (fun e => (e.1, { e.2 with age := e.2.age + 1 })) })

/-- R54: the word an accessor has staged under a key, unless 256 further accesses have passed it. -/
def Half.stagedWord (m : Half) (n k : Nat) : Option Word :=
  match sfind (m.acc n).staged k with
  | some st => if st.age ≤ 256 then some st.word else none
  | none => none

/-- R54: the words of a multi-word register that a write of its low word commits: the word written, then each staged
word, or the word held now where none is staged. -/
def Half.commitWords (m : Half) (n k words : Nat) (v : Word) : List Word :=
  v :: (List.range (words - 1)).map (fun i => (m.stagedWord n (k + 4 * (i + 1))).getD (m.rd (k + 4 * (i + 1))))

/-- Words with their reserved bits zero (R10), from the listed bits of each; a word not listed has none. -/
def maskWords (ms : List Nat) (ws : List Word) : List Word := ws.zipIdx.map (fun e => e.1 &&& word (ms.getD e.2 0xFFFFFFFF))

/-- Drops the accessor's staged words of a multi-word register. -/
def Half.dropStaged (m : Half) (n k words : Nat) : Half :=
  m.updAcc n (fun a => { a with staged := a.staged.filter (fun e => decide (e.1 ≤ k) || decide (k + 4 * words ≤ e.1)) })

/-- Writes consecutive words from a key. -/
def Half.wrWords (m : Half) (k : Nat) (l : List Word) : Half :=
  match l with
  | [] => m
  | v :: l => (m.wr k v).wrWords (k + 4) l

/-- Consecutive words from a key. -/
def Half.rdWords (m : Half) (k n : Nat) : List Word := (List.range n).map (fun i => m.rd (k + 4 * i))

/-- The words of the register at a key, its low key, and whether writes to it are staged (ST). -/
def regShape (k : Nat) : Nat × Nat × Bool :=
  match regRow k with
  | some (row, _, wi) => (k - 4 * wi, row.words, decide (row.acc = .st))
  | none => (k, 1, false)

/-- The register takes writes at all (Table 0.4). -/
def regWritable (k : Nat) : Bool :=
  match regRow k with
  | some (row, _, _) => decide (row.acc ≠ .ro) && decide (row.acc ≠ .rs)
  | none => false

/-- What a free sheaf slot holds. -/
def slotReset : Slot :=
  ⟨0, 0, [], 0, 0, 0, 0, false, false, [], 0, 0, false, 0, none, 0, 0, false, none, 0, 0⟩

/-- A sheaf slot. -/
def Half.slot (m : Half) (i : Nat) : Slot := sget slotReset m.shf.slots i

/-- Writes a sheaf slot. -/
def Half.setSlot (m : Half) (i : Nat) (x : Slot) : Half :=
  { m with shf := { m.shf with slots := sset slotReset m.shf.slots i x } }

/-- SHF.STAT as Table 5.8 lays it out. -/
def shfStatWord (isOpen : Bool) (slot state reason count : Nat) : Word :=
  word (isOpen.toNat * 2 ^ 31 + slot * 2 ^ 24 + state * 2 ^ 20 + reason * 2 ^ 8 + count)

/-- The slot's owner is an accessor, and its SHF registers show this slot's sheaf (R163): it is open there, or it was the
accessor's last and no other has been opened since. -/
def Half.shows (m : Half) (i : Nat) : Option Nat :=
  let o := (m.slot i).owner
  if o ≤ 5 ∧ ((m.acc o).sheaf = some i ∨ ((m.acc o).sheaf = none ∧ fld (m.view o rShfStat) 24 5 = i)) then some o else none

/-- SHF.STAT of the slot's accessor takes the slot's state. -/
def Half.shfShow (m : Half) (i state reason : Nat) : Half :=
  match m.shows i with
  | some o => m.setView o rShfStat (shfStatWord (decide (state = 1)) i state reason (m.slot i).acts.length)
  | none => m

/-- A sheaf that has not passed its commit instant is aborted (Table 5.3): its accessor's SHF.STAT and SHF.FAIL show why,
its slot is free, PG_IRQ_RAW bit 0 is set, and event 0x0901 records reasons other than SOFTWARE (R162). idx is the failing action's number,
0xFF for none. That bit 0 is set for SOFTWARE too is the model's choice (log entry 70): R163 names it ABORTED and makes no exception. -/
def Half.abortSlot (m : Half) (i reason idx status module_ : Nat) : Half :=
  let o := (m.slot i).owner
  let m1 := m.shfShow i 5 reason
  let m2 := match m1.shows i with
    | some a => m1.setView a rShfFail (word (module_ * 2 ^ 16 + status * 2 ^ 8 + idx))
    | none => m1
  let m3 := if o ≤ 5 ∧ (m2.acc o).sheaf = some i then m2.updAcc o (fun a => { a with sheaf := none }) else m2
  let m4 := (m3.setSlot i slotReset).irq 0x021 0
  if reason = 1 then m4 else m4.ev 0x0901 i reason idx module_

/-- The register of an action REG_WRITE (Table 5.1), by its low key. -/
def actKey (a : Act) : Option Nat :=
  if a.kind = 0xA ∧ a.module_ = 0 then some (regShape (a.aux * 4096 + a.target)).1 else none

/-- R55, R142: the register is held as an action of an open sheaf other than slot i. -/
def Half.heldByOther (m : Half) (i : Option Nat) (k : Nat) : Bool :=
  m.shf.slots.any (fun e =>
    decide (some e.1 ≠ i) && (decide (e.2.state = 1) || decide (e.2.state = 2))
      && e.2.acts.any (fun a => decide (actKey a = some (regShape k).1)))

/-- PG_STAT.IN_SHEAF: the block holds staged actions of an open sheaf (Table 2.7). -/
def Half.inSheaf (m : Half) (p : Nat) : Bool :=
  m.shf.slots.any (fun e => decide (e.2.state = 1)
    && e.2.acts.any (fun a => decide (a.kind = 0xA) && decide (a.module_ = 0) && decide (a.aux = p)))

/-- R141, R142: a write to an ST register enters the accessor's open sheaf as REG_WRITE; a failed check aborts the sheaf,
and the write itself is accepted. -/
def Half.sheafReg (m : Half) (n i k : Nat) (v : Word) (st : Stamp) : Half :=
  let sl := m.slot i
  if m.heldByOther (some i) k then m.abortSlot i 2 sl.acts.length 5 0
  else if 64 ≤ sl.acts.length then m.abortSlot i 2 sl.acts.length 5 0
  else
    let a : Act := ⟨0xA, k % 4096, k / 4096, BitVec.ofNat 64 v.toNat, 0, [], st, false⟩
    let m1 := m.setSlot i { sl with acts := sl.acts ++ [a] }
    m1.setView n rShfStat (shfStatWord true i 1 0 (sl.acts.length + 1))

/-- R55: an ST register whose writes become actions while the writer has a sheaf open: every one but SHF.ADD0 to ADD3 and
PTAB.WR0 to WR2. -/
def becomesAction (k : Nat) : Bool :=
  let (low, _, st) := regShape k
  st && decide (low ≠ rShfAdd) && decide (low ≠ rPtabWr)

/-- R58: the access stalls for the block to wake, and joins those that wait. -/
def Half.stallFor (m : Half) (x : Access) : Half :=
  let p := x.addr / 4096 % 1024
  { m.setPage p { m.page p with waking := true } with stalled := m.stalled ++ [x] }

/-- R58, R59: an access from a policy core or MGT to a block that is not READY stalls, where PG_CTRL.WAKE_ON_ACCESS is 1. -/
def Half.mayStall (m : Half) (r : Req) (p : Nat) : Bool :=
  m.rdB (pgCtrl p) 4 && !alwaysOn p &&
    (match r with
     | .ipp _ => false
     | _ => true)

/-- The access as its requester made it, for a word written to a register. -/
def wordAccess (r : Req) (k : Nat) (v : Word) : Access := ⟨r, keyAddr k, 4, true, BitVec.ofNat 64 v.toNat⟩

/-- What admission leaves: the half as the access left it, and whether the register's own rule now decides. -/
abbrev Admitted := Half × Bool

/-- Checks 1 to 5 of Table 2.12, staging (R54) and sheaf entry (R55) of a word written to the register at a key, in an access that
has been counted. The IPP engine keeps no staging between requests (R52, R98). -/
def Half.admitWord (m : Half) (r : Req) (k : Nat) (v : Word) : Admitted :=
  let n := reqNum r
  match m.checkWrite (reqClass r) k v with
  | (0, _) =>
    let (low, words, _) := regShape k
    let sh := (m.acc n).sheaf
    if !regWritable k then (m.answer r 0 0, false)
    else if becomesAction k ∧ sh.isSome then
      ((m.sheafReg n (sh.getD 0) k v (reqStamp r)).answer r 0 0, false)
    else if m.heldByOther sh k then (m.refuseAt r (keyAddr k) 1 5 4, false)
    else if low ≠ k ∧ 1 < words ∧ n = 5 then (m.refuseAt r (keyAddr k) 1 5 8, false)
    else if low ≠ k ∧ 1 < words then
      ((m.updAcc n (fun a => { a with staged := sput a.staged k ⟨v, 0⟩ })).answer r 0 0, false)
    else (m, true)
  | (st, code) => (m.refuseAt r (keyAddr k) 1 st code, false)

/-- A word written to the register at a key, as one access of its accessor (R54); one that stalls for a block to wake (R58) counts
when it completes. -/
def Half.admission (m : Half) (r : Req) (k : Nat) (v : Word) : Admitted :=
  if (m.checkWrite (reqClass r) k v).1 = 4 ∧ m.mayStall r (k / 4096) then (m.stallFor (wordAccess r k v), false)
  else (m.ageStaged (reqNum r)).admitWord r k v

/-- The status of a refused write (Table 3.7) by the code that its register's rule answers: a code of Table 2.10, or 12 where the rule
says FULL (R139, R334). -/
def refusedStatus (code : Nat) : Nat := if code = 1 ∨ code = 2 then 3 else if code = 12 then 12 else 5

/-- The code of Table 2.10 that PG_ERR holds: FULL is a block rule. -/
def refusedCode (code : Nat) : Nat := if code = 12 then 8 else code

/-- The register rule has answered: code 0 accepts; 1 and 2 are DENIED, 12 is FULL, the others REFUSED, with the code in PG_ERR
(Table 2.12). An accepted write commits the staged words of the register; a refused one commits nothing, and they stay
staged (R54). -/
def Half.settle (m : Half) (r : Req) (k code : Nat) : Half :=
  if code = 0 then (m.dropStaged (reqNum r) (regShape k).1 (regShape k).2.1).answer r 0 0
  else m.refuseAt r (keyAddr k) 1 (refusedStatus code) (refusedCode code)

/-- A word written to a register whose effect lies within one half. eff answers the half and the code of Table 2.10. -/
def Half.guard (m : Half) (r : Req) (k : Nat) (v : Word) (eff : Half → Half × Nat) : Half :=
  match m.admission r k v with
  | (m1, false) => m1
  | (m1, true) =>
    let (m2, code) := eff m1
    m2.settle r k code

/-- A word written to a register whose effect reaches beyond one half. -/
def State.guard (s : State) (h : HalfId) (r : Req) (k : Nat) (v : Word) (eff : State → State × Nat) : State :=
  match (s.half h).admission r k v with
  | (m1, false) => s.set h m1
  | (m1, true) =>
    let (s2, code) := eff (s.set h m1)
    s2.upd h (fun m => m.settle r k code)

/-- The second word of an access whose first word has been counted. -/
def State.guardNext (s : State) (h : HalfId) (r : Req) (k : Nat) (v : Word) (eff : State → State × Nat) : State :=
  match (s.half h).admitWord r k v with
  | (m1, false) => s.set h m1
  | (m1, true) =>
    let (s2, code) := eff (s.set h m1)
    s2.upd h (fun m => m.settle r k code)

/-- A command that writes a register of one half (or of both, for a request the IPP engine makes). -/
def State.regCmd (s : State) (h : HalfId) (r : Req) (k : Nat) (v : Word) (eff : Half → Half × Nat) : State :=
  s.onReq h r (fun h s => s.upd h (fun m => m.guard r k v eff))

/-- The same for an effect that depends on what the Yoke tells the half. -/
def State.regCmdV (s : State) (h : HalfId) (r : Req) (k : Nat) (v : Word) (eff : View → Half → Half × Nat) : State :=
  s.onReq h r (fun h s => s.upd h (fun m => m.guard r k v (eff (s.view h))))

/-- A command that writes a register whose effect reaches beyond the half. -/
def State.regCmdS (s : State) (h : HalfId) (r : Req) (k : Nat) (v : Word) (eff : HalfId → State → State × Nat) : State :=
  s.onReq h r (fun h s => s.guard h r k v (eff h))

/-- The value a plain RW, ST, W1C or W1S register takes: reserved bits stay zero (R10). -/
def plainValue (row : RegRow) (old v : Word) : Word :=
  match row.acc with
  | .rw => v &&& word row.mask
  | .st => v &&& word row.mask
  | .w1c => old &&& ~~~ (v &&& word row.mask)
  | .w1s => old ||| (v &&& word row.mask)
  | _ => old

/-- A write to a register with no rule of its own: it takes its value, and PG_GEN counts the change of a configuration
register (R47). -/
def Half.plainWrite (m : Half) (n k : Nat) (v : Word) : Half :=
  match regRow k with
  | none => m
  | some (row, _, _) =>
    let old := if row.perAcc then m.view n k else m.rd k
    let new := plainValue row old v
    let m1 := if row.perAcc then m.setView n k new else m.wr k new
    if 1 < row.words then
      let rest := (m.commitWords n k row.words v).drop 1
      let m2 := m1.wrWords (k + 4) rest
      if row.gen ∧ m2.rdWords k row.words ≠ m.rdWords k row.words then m2.gen (k / 4096) else m2
    else if row.gen ∧ new ≠ old then m1.gen (k / 4096) else m1

/-- R54: discards a staged word that 256 further accesses have passed. -/
def Half.discardStaged (m : Half) (n k : Nat) : Half :=
  match sfind (m.acc n).staged k with
  | some st => if 256 ≤ st.age then m.updAcc n (fun a => { a with staged := sdel a.staged k }) else m
  | none => m

/-- STAGING_WRITE (R54): a word other than the low word of a multi-word register goes to the writer's staging buffer, or
becomes an action of its open sheaf; it takes effect with the low word alone. -/
def execStagingWrite (h : HalfId) (r : Req) (addr : Nat) (value : Word) (s : State) : Host.Outcome State Fault Refusal :=
  .next (s.regCmd h r (addr % 2 ^ 20) value (fun m => (m.plainWrite (reqNum r) (addr % 2 ^ 20) value, 0)))

/-- STAGED_WORD_DISCARD (R54). -/
def execStagedWordDiscard (h : HalfId) (r : Req) (addr : Nat) (s : State) : Host.Outcome State Fault Refusal :=
  .next (s.onReq h r (fun h s => s.upd h (fun m => m.discardStaged (reqNum r) (addr % 2 ^ 20))))

end Sys2Proof.Machine
end

