-- ==== Sys2Proof/Machine/Float.lean ====
section
/-! DEFINITION. IEEE 754 numbers as bit patterns: exact decoding, arithmetic rounded to nearest even, and conversion to and
from integers (Table 4.2, R126, R131, R197, R215). -/
namespace Sys2Proof.Machine

/-- A decoded number: a NaN, an infinity, or (−1)^neg × m × 2^e exactly. -/
inductive Fv where
  | nan
  | inf (neg : Bool)
  | fin (neg : Bool) (m : Nat) (e : Int)
  deriving DecidableEq, Repr

/-- A binary interchange format: exponent bits and fraction bits. -/
structure Fmt where
  eb : Nat
  mb : Nat
  deriving DecidableEq, Repr

/-- binary16. -/
def f16 : Fmt := ⟨5, 10⟩
/-- binary32. -/
def f32 : Fmt := ⟨8, 23⟩
/-- binary64. -/
def f64 : Fmt := ⟨11, 52⟩

/-- The exponent of the last place of a subnormal number. -/
def Fmt.qmin (f : Fmt) : Int := 2 - 2 ^ (f.eb - 1) - f.mb

/-- The pattern of +infinity. -/
def Fmt.infBits (f : Fmt) : Nat := (2 ^ f.eb - 1) * 2 ^ f.mb

/-- The largest finite pattern. -/
def Fmt.maxBits (f : Fmt) : Nat := f.infBits - 1

/-- Decodes a pattern. -/
def fdec (f : Fmt) (x : Nat) : Fv :=
  let s := x.testBit (f.eb + f.mb)
  let ex := nfld x f.mb f.eb
  let fr := nfld x 0 f.mb
  if ex = 2 ^ f.eb - 1 then (if fr = 0 then .inf s else .nan)
  else if ex = 0 then .fin s fr f.qmin
  else .fin s (fr + 2 ^ f.mb) (f.qmin + (ex - 1 : Nat))

/-- A pattern with its sign. -/
def Fmt.signed (f : Fmt) (neg : Bool) (x : Nat) : Nat := if neg then x + 2 ^ (f.eb + f.mb) else x

/-- m × 2^e (or m divided by 2^−e) rounded to a multiple of 2^q, as a count of 2^q, ties to even. -/
def roundTo (m : Nat) (e q : Int) : Nat :=
  if q ≤ e then m * 2 ^ (e - q).toNat
  else
    let d := 2 ^ (q - e).toNat
    let r := m % d
    let n := m / d
    if 2 * r < d then n else if d < 2 * r then n + 1 else if n % 2 = 0 then n else n + 1

/-- Rounds to the nearest pattern of a format, ties to even; a result beyond the largest finite number is an infinity. -/
def fenc (f : Fmt) (v : Fv) : Nat :=
  match v with
  | .nan => f.infBits + 2 ^ (f.mb - 1)
  | .inf s => f.signed s f.infBits
  | .fin s m e =>
    if m = 0 then f.signed s 0
    else
      let top : Int := e + Nat.log2 m
      let q := max (top - f.mb) f.qmin
      let n := roundTo m e q
      let x := if n < 2 ^ f.mb then n else (q - f.qmin).toNat * 2 ^ f.mb + n
      f.signed s (min x f.infBits)

/-- A finite number as a signed multiple of 2^q, where q is not above its exponent. -/
def scaleTo (neg : Bool) (m : Nat) (e q : Int) : Int :=
  let n : Int := (m * 2 ^ (e - q).toNat : Nat)
  if neg then -n else n

/-- A signed integer times 2^e as a decoded number. -/
def ofScaled (n : Int) (e : Int) : Fv := .fin (decide (n < 0)) n.natAbs e

/-- The exact sum. The sum of opposite numbers is +0, and −0 + −0 is −0. -/
def fadd (x y : Fv) : Fv :=
  match x, y with
  | .nan, _ => .nan
  | _, .nan => .nan
  | .inf a, .inf b => if a = b then .inf a else .nan
  | .inf a, .fin _ _ _ => .inf a
  | .fin _ _ _, .inf b => .inf b
  | .fin s1 m1 e1, .fin s2 m2 e2 =>
    if m1 = 0 ∧ m2 = 0 then .fin (s1 && s2) 0 e1
    else
      let q := min e1 e2
      ofScaled (scaleTo s1 m1 e1 q + scaleTo s2 m2 e2 q) q

/-- The number with its sign changed. -/
def fneg (x : Fv) : Fv :=
  match x with
  | .nan => .nan
  | .inf s => .inf (!s)
  | .fin s m e => .fin (!s) m e

/-- The exact difference. -/
def fsub (x y : Fv) : Fv := fadd x (fneg y)

/-- The exact product. -/
def fmul (x y : Fv) : Fv :=
  match x, y with
  | .nan, _ => .nan
  | _, .nan => .nan
  | .inf a, .inf b => .inf (a != b)
  | .inf a, .fin s m _ => if m = 0 then .nan else .inf (a != s)
  | .fin s m _, .inf b => if m = 0 then .nan else .inf (s != b)
  | .fin s1 m1 e1, .fin s2 m2 e2 => .fin (s1 != s2) (m1 * m2) (e1 + e2)

/-- The quotient, correct to 70 bits with a last bit that tells whether more follow, so that it rounds as the exact one. -/
def fdiv (x y : Fv) : Fv :=
  match x, y with
  | .nan, _ => .nan
  | _, .nan => .nan
  | .inf _, .inf _ => .nan
  | .inf a, .fin s _ _ => .inf (a != s)
  | .fin s _ e, .inf b => .fin (s != b) 0 e
  | .fin s1 m1 e1, .fin s2 m2 e2 =>
    if m2 = 0 then (if m1 = 0 then .nan else .inf (s1 != s2))
    else
      let k := 70 + Nat.log2 m2
      let n := m1 * 2 ^ k
      .fin (s1 != s2) (2 * (n / m2) + (if n % m2 = 0 then 0 else 1)) (e1 - e2 - k - 1)

/-- x < y of two numbers neither of which is a NaN. -/
def flt (x y : Fv) : Bool :=
  match x, y with
  | .nan, _ => false
  | _, .nan => false
  | .inf a, .inf b => a && !b
  | .inf a, .fin _ _ _ => a
  | .fin _ _ _, .inf b => !b
  | .fin s1 m1 e1, .fin s2 m2 e2 =>
    let q := min e1 e2
    decide (scaleTo s1 m1 e1 q < scaleTo s2 m2 e2 q)

/-- x = y of two numbers neither of which is a NaN; −0 equals 0. -/
def feq (x y : Fv) : Bool :=
  match x, y with
  | .nan, _ => false
  | _, .nan => false
  | .inf a, .inf b => a == b
  | .inf _, .fin _ _ _ => false
  | .fin _ _ _, .inf _ => false
  | .fin s1 m1 e1, .fin s2 m2 e2 =>
    let q := min e1 e2
    decide (scaleTo s1 m1 e1 q = scaleTo s2 m2 e2 q)

/-- The magnitude of a number. -/
def fabs (x : Fv) : Fv :=
  match x with
  | .nan => .nan
  | .inf _ => .inf false
  | .fin _ m e => .fin false m e

/-- An integer as a decoded number. -/
def fint (n : Int) : Fv := ofScaled n 0

/-- An integer rounded into a format. -/
def fofInt (f : Fmt) (n : Int) : Nat := fenc f (fint n)

/-- Rounds a finite number to the nearest integer, ties away from zero (R131). -/
def roundAway (neg : Bool) (m : Nat) (e : Int) : Int :=
  let n : Nat :=
    if 0 ≤ e then m * 2 ^ e.toNat
    else
      let d := 2 ^ (-e).toNat
      (2 * m + d) / (2 * d)
  if neg then -(n : Int) else n

/-- Rounds a finite number to an integer towards zero. -/
def roundZero (neg : Bool) (m : Nat) (e : Int) : Int :=
  let n : Nat := if 0 ≤ e then m * 2 ^ e.toNat else m / 2 ^ (-e).toNat
  if neg then -(n : Int) else n

/-- Rounds a finite number to the nearest integer, ties to even. -/
def roundEven (neg : Bool) (m : Nat) (e : Int) : Int :=
  let n : Nat := roundTo m e 0
  if neg then -(n : Int) else n

/-- The number is neither a NaN nor an infinity. -/
def fIsFin (x : Fv) : Bool :=
  match x with
  | .fin _ _ _ => true
  | _ => false

/-- A signed integer from the low n bits of a number. -/
def sext (n x : Nat) : Int := if x.testBit (n - 1) then (nfld x 0 n : Int) - 2 ^ n else nfld x 0 n

/-- The low n bits of an integer, as two's complement. -/
def twos (n : Nat) (x : Int) : Nat := (x % 2 ^ n).toNat

/-- An integer held to a range; and whether it had to be. -/
def clampInt (lo hi x : Int) : Int × Bool :=
  if x < lo then (lo, true) else if hi < x then (hi, true) else (x, false)

end Sys2Proof.Machine
end

