-- ==== Sys2Proof/Machine/Crypto.lean ====
section
/-! DEFINITION. The crypto engine's algorithms (R480, R481, R498, R502): SHA-384 (FIPS 180-4), HMAC and HKDF (RFC 5869), AES-256
(FIPS 197) in GCM (SP 800-38D), and ECDSA and ECDH over P-384 (FIPS 186-5, SEC 1). -/
namespace Sys2Proof.Machine

/-- SHA-512 round constants (FIPS 180-4). -/
def shaK0 : List Nat :=
  [0x428A2F98D728AE22, 0x7137449123EF65CD, 0xB5C0FBCFEC4D3B2F, 0xE9B5DBA58189DBBC,
   0x3956C25BF348B538, 0x59F111F1B605D019, 0x923F82A4AF194F9B, 0xAB1C5ED5DA6D8118,
   0xD807AA98A3030242, 0x12835B0145706FBE, 0x243185BE4EE4B28C, 0x550C7DC3D5FFB4E2,
   0x72BE5D74F27B896F, 0x80DEB1FE3B1696B1, 0x9BDC06A725C71235, 0xC19BF174CF692694]

/-- SHA-512 round constants (FIPS 180-4). -/
def shaK1 : List Nat :=
  [0xE49B69C19EF14AD2, 0xEFBE4786384F25E3, 0x0FC19DC68B8CD5B5, 0x240CA1CC77AC9C65,
   0x2DE92C6F592B0275, 0x4A7484AA6EA6E483, 0x5CB0A9DCBD41FBD4, 0x76F988DA831153B5,
   0x983E5152EE66DFAB, 0xA831C66D2DB43210, 0xB00327C898FB213F, 0xBF597FC7BEEF0EE4,
   0xC6E00BF33DA88FC2, 0xD5A79147930AA725, 0x06CA6351E003826F, 0x142929670A0E6E70]

/-- SHA-512 round constants (FIPS 180-4). -/
def shaK2 : List Nat :=
  [0x27B70A8546D22FFC, 0x2E1B21385C26C926, 0x4D2C6DFC5AC42AED, 0x53380D139D95B3DF,
   0x650A73548BAF63DE, 0x766A0ABB3C77B2A8, 0x81C2C92E47EDAEE6, 0x92722C851482353B,
   0xA2BFE8A14CF10364, 0xA81A664BBC423001, 0xC24B8B70D0F89791, 0xC76C51A30654BE30,
   0xD192E819D6EF5218, 0xD69906245565A910, 0xF40E35855771202A, 0x106AA07032BBD1B8]

/-- SHA-512 round constants (FIPS 180-4). -/
def shaK3 : List Nat :=
  [0x19A4C116B8D2D0C8, 0x1E376C085141AB53, 0x2748774CDF8EEB99, 0x34B0BCB5E19B48A8,
   0x391C0CB3C5C95A63, 0x4ED8AA4AE3418ACB, 0x5B9CCA4F7763E373, 0x682E6FF3D6B2B8A3,
   0x748F82EE5DEFB2FC, 0x78A5636F43172F60, 0x84C87814A1F0AB72, 0x8CC702081A6439EC,
   0x90BEFFFA23631E28, 0xA4506CEBDE82BDE9, 0xBEF9A3F7B2C67915, 0xC67178F2E372532B]

/-- SHA-512 round constants (FIPS 180-4). -/
def shaK4 : List Nat :=
  [0xCA273ECEEA26619C, 0xD186B8C721C0C207, 0xEADA7DD6CDE0EB1E, 0xF57D4F7FEE6ED178,
   0x06F067AA72176FBA, 0x0A637DC5A2C898A6, 0x113F9804BEF90DAE, 0x1B710B35131C471B,
   0x28DB77F523047D84, 0x32CAAB7B40C72493, 0x3C9EBE0A15C9BEBC, 0x431D67C49C100D4C,
   0x4CC5D4BECB3E42B6, 0x597F299CFC657E2A, 0x5FCB6FAB3AD6FAEC, 0x6C44198C4A475817]

/-- The eighty round constants. -/
def shaK : List Nat := shaK0 ++ shaK1 ++ shaK2 ++ shaK3 ++ shaK4

/-- The initial hash value of SHA-384. -/
def sha384Init : List Dword :=
  [0xCBBB9D5DC1059ED8, 0x629A292A367CD507, 0x9159015A3070DD17, 0x152FECD8F70E5939, 0x67332667FFC00B31, 0x8EB44A8768581511, 0xDB0C2E0D64F98FA7, 0x47B5481DBEFA4FA4]

/-- σ and Σ functions of SHA-512: two rotations, and a rotation or a shift. -/
def shaRot (x : Dword) (a b c : Nat) (shift : Bool) : Dword :=
  x.rotateRight a ^^^ x.rotateRight b ^^^ (if shift then x >>> c else x.rotateRight c)

/-- The message schedule: the words so far, the newest first, extended by n. -/
def shaSchedule : Nat → List Dword → List Dword
  | 0, w => w
  | n + 1, w =>
    shaSchedule n ((shaRot (w.getD 1 0) 19 61 6 true + w.getD 6 0 + shaRot (w.getD 14 0) 1 8 7 true + w.getD 15 0) :: w)

/-- One round of SHA-512 on the eight working variables. -/
def shaRound (v : List Dword) (kw : Nat × Dword) : List Dword :=
  match v with
  | [a, b, c, d, e, f, g, h] =>
    let t1 := h + shaRot e 14 18 41 false + ((e &&& f) ^^^ (~~~e &&& g)) + BitVec.ofNat 64 kw.1 + kw.2
    let t2 := shaRot a 28 34 39 false + ((a &&& b) ^^^ (a &&& c) ^^^ (b &&& c))
    [t1 + t2, a, b, c, d + t1, e, f, g]
  | v => v

/-- One block of 128 bytes into the hash value. -/
def shaBlock (hv : List Dword) (b : List Byte) : List Dword :=
  let w0 := (List.range 16).map (fun i => (BitVec.ofNat 64 (beAt b (8 * i) 8) : Dword))
  let w := (shaSchedule 64 w0.reverse).reverse
  List.zipWith (· + ·) hv ((List.zip shaK w).foldl shaRound hv)

/-- Whole blocks of n bytes of a list, by fuel. -/
def chunks (n : Nat) : Nat → List Byte → List (List Byte)
  | 0, _ => []
  | k + 1, l => if l.isEmpty then [] else l.take n :: chunks n k (l.drop n)

/-- SHA-384 of bytes: 48 bytes. -/
def sha384 (l : List Byte) : List Byte :=
  let pad := (111 + 128 - l.length % 128) % 128
  let m := l ++ [(0x80 : Byte)] ++ List.replicate pad 0 ++ beBytes 16 (8 * l.length)
  ((chunks 128 (m.length / 128) m).foldl shaBlock sha384Init |>.take 6).flatMap (fun d => beBytes 8 d.toNat)

/-- HMAC-SHA-384 under a key of at most 128 bytes. -/
def hmac384 (key msg : List Byte) : List Byte :=
  let k := (key ++ List.replicate 128 0).take 128
  sha384 (k.map (· ^^^ 0x5C) ++ sha384 (k.map (· ^^^ 0x36) ++ msg))

/-- HKDF with SHA-384, an empty salt, and 32 bytes of output (R480). -/
def hkdf384 (secret info : List Byte) : List Byte :=
  (hmac384 (hmac384 (List.replicate 48 0) secret) (info ++ [1])).take 32

/-- Multiplication in AES's field, reduced by 0x11B: bits of b from the lowest, by fuel. -/
def aesMul : Nat → Nat → Nat → Nat
  | 0, _, _ => 0
  | n + 1, a, b => (if b % 2 = 1 then a else 0) ^^^ aesMul n (if 128 ≤ a then (2 * a) ^^^ 0x11B else 2 * a) (b / 2)

/-- A power in AES's field. -/
def aesPow (a : Nat) : Nat → Nat
  | 0 => 1
  | n + 1 => aesMul 8 (aesPow a n) a

/-- The inverse in AES's field, 0 for 0: the power 254, by an addition chain. -/
def aesInv (x : Nat) : Nat :=
  let m := aesMul 8
  let sq (a : Nat) : Nat := m a a
  let x2 := sq x
  let x3 := m x2 x
  let x12 := sq (sq x3)
  let x15 := m x12 x3
  m (m (sq (sq (sq (sq x15)))) x12) x2

/-- AES's S-box: the inverse, then the affine map. -/
def aesSbox (x : Nat) : Nat :=
  let i := aesInv x
  let r (k : Nat) : Nat := (i * 2 ^ k + i / 2 ^ (8 - k)) % 256
  i ^^^ r 1 ^^^ r 2 ^^^ r 3 ^^^ r 4 ^^^ 0x63

/-- The S-box as a list. -/
def aesTable : List Nat := (List.range 256).map aesSbox

/-- The S-box of a byte, from its table. -/
def aesSub (t : List Nat) (x : Nat) : Nat := t.getD x 0

/-- The key expansion of AES-256: words of four bytes so far, the newest first, extended by n. i: the number of the next word. -/
def aesExpand (t : List Nat) : Nat → Nat → List (List Nat) → List (List Nat)
  | 0, _, w => w
  | n + 1, i, w =>
    let p := w.getD 0 []
    let x := if i % 8 = 0 then
        List.zipWith (· ^^^ ·) (((p.drop 1) ++ p.take 1).map (aesSub t)) [aesPow 2 (i / 8 - 1), 0, 0, 0]
      else if i % 8 = 4 then p.map (aesSub t) else p
    aesExpand t n (i + 1) (List.zipWith (· ^^^ ·) (w.getD 7 []) x :: w)

/-- Round keys of AES-256: fifteen of 16 bytes. -/
def aesKeys (t : List Nat) (key : List Byte) : List (List Nat) :=
  let k := key.map (·.toNat)
  let w := (aesExpand t 52 8 ((List.range 8).map (fun i => (k.drop (4 * i)).take 4)).reverse).reverse
  (List.range 15).map (fun r => ((w.drop (4 * r)).take 4).flatMap id)

/-- ShiftRows on 16 bytes by columns. -/
def aesShift (s : List Nat) : List Nat := (List.range 16).map (fun i => s.getD ((i + 4 * (i % 4)) % 16) 0)

/-- MixColumns on 16 bytes by columns. -/
def aesMix (s : List Nat) : List Nat :=
  (List.range 16).map (fun i =>
    let c := i / 4 * 4
    let x (k : Nat) : Nat := s.getD (c + (i + k) % 4) 0
    aesMul 8 (x 0) 2 ^^^ aesMul 8 (x 1) 3 ^^^ x 2 ^^^ x 3)

/-- One round of AES; the last mixes no columns. -/
def aesRound (t : List Nat) (s : List Nat) (k : List Nat) (last : Bool) : List Nat :=
  let x := aesShift (s.map (aesSub t))
  List.zipWith (· ^^^ ·) (if last then x else aesMix x) k

/-- AES-256 of one block of 16 bytes, under round keys. -/
def aesBlock (t : List Nat) (keys : List (List Nat)) (b : List Byte) : List Byte :=
  let s0 := List.zipWith (· ^^^ ·) (b.map (·.toNat)) (keys.getD 0 [])
  let s := (List.range 13).foldl (fun s i => aesRound t s (keys.getD (i + 1) []) false) s0
  (aesRound t s (keys.getD 14 []) true).map (BitVec.ofNat 8)

/-- Multiplication in GCM's field: bits of x from the highest, by fuel. -/
def gcmMul : Nat → Nat → Nat → Nat → Nat
  | 0, z, _, _ => z
  | n + 1, z, v, x =>
    gcmMul n (if x.testBit n then z ^^^ v else z) (if v % 2 = 1 then v / 2 ^^^ 0xE1 * 2 ^ 120 else v / 2) x

/-- GHASH of whole blocks under a hash key. -/
def ghash (h : Nat) (l : List Byte) : Nat :=
  (chunks 16 (l.length / 16) l).foldl (fun y b => gcmMul 128 0 h (y ^^^ beNat b)) 0

/-- Pads a list of bytes with zeros to whole blocks of 16. -/
def pad16 (l : List Byte) : List Byte := l ++ List.replicate ((16 - l.length % 16) % 16) 0

/-- Counter mode from counter 2 of a nonce of 12 bytes. -/
def gcmStream (t : List Nat) (keys : List (List Nat)) (nonce : List Byte) (l : List Byte) : List Byte :=
  let bs := chunks 16 (l.length / 16 + 1) l
  (List.zip (List.range bs.length) bs).flatMap (fun (i, b) =>
    List.zipWith (· ^^^ ·) b (aesBlock t keys (nonce ++ beBytes 4 (i + 2))))

/-- The GCM tag of ciphertext and additional data. -/
def gcmTag (t : List Nat) (keys : List (List Nat)) (nonce aad ct : List Byte) : List Byte :=
  let h := beNat (aesBlock t keys (List.replicate 16 0))
  let s := ghash h (pad16 aad ++ pad16 ct ++ beBytes 8 (8 * aad.length) ++ beBytes 8 (8 * ct.length))
  beBytes 16 (s ^^^ beNat (aesBlock t keys (nonce ++ beBytes 4 1)))

/-- AES-256-GCM encryption: ciphertext, then the tag. -/
def gcmEncrypt (key nonce aad pt : List Byte) : List Byte :=
  let t := aesTable
  let keys := aesKeys t key
  let ct := gcmStream t keys nonce pt
  ct ++ gcmTag t keys nonce aad ct

/-- AES-256-GCM decryption of ciphertext with its tag: the plaintext if the tag verifies. -/
def gcmDecrypt (key nonce aad ctag : List Byte) : Option (List Byte) :=
  let t := aesTable
  let keys := aesKeys t key
  let ct := ctag.take (ctag.length - 16)
  if gcmTag t keys nonce aad ct = ctag.drop (ctag.length - 16) then some (gcmStream t keys nonce ct) else none

/-- The prime of P-384. -/
def p384P : Nat := 2 ^ 384 - 2 ^ 128 - 2 ^ 96 + 2 ^ 32 - 1
/-- The coefficient b of P-384. -/
def p384B : Nat := 0xB3312FA7E23EE7E4988E056BE3F82D19181D9C6EFE8141120314088F5013875AC656398D8A2ED19D2A85C8EDD3EC2AEF
/-- The order of P-384's base point. -/
def p384N : Nat := 0xFFFFFFFFFFFFFFFFFFFFFFFFFFFFFFFFFFFFFFFFFFFFFFFFC7634D81F4372DDF581A0DB248B0A77AECEC196ACCC52973
/-- The base point of P-384. -/
def p384G : Nat × Nat :=
  (0xAA87CA22BE8B05378EB1C71EF320AD746E1D3B628BA79B9859F741E082542A385502F25DBF55296C3A545E3872760AB7,
   0x3617DE4A96262C6F5D9E98BF9292DC29F8F41DBD289A147CE9DA3113B5F0B8C00A60B1CE1D7E819D7A431D7C90EA0E5F)

/-- A power modulo m, over the n low bits of the exponent. -/
def powMod (m a e : Nat) : Nat → Nat
  | 0 => 1
  | n + 1 =>
    let r := powMod m a (e / 2) n
    let q := r * r % m
    if e % 2 = 1 then q * a % m else q

/-- The inverse modulo a prime of 384 bits. -/
def invMod (m a : Nat) : Nat := powMod m (a % m) (m - 2) 384

/-- A point of P-384: none is the point at infinity. -/
abbrev Pt384 := Option (Nat × Nat)

/-- Addition of points of P-384 (SEC 1). -/
def ptAdd (a b : Pt384) : Pt384 :=
  match a, b with
  | none, b => b
  | a, none => a
  | some (x1, y1), some (x2, y2) =>
    let p := p384P
    if x1 = x2 ∧ (y1 + y2) % p = 0 then none
    else
      let l := if x1 = x2 then (3 * x1 * x1 + (p - 3)) * invMod p (2 * y1) % p
        else (y2 + p - y1) * invMod p (x2 + p - x1) % p
      let x3 := (l * l + 2 * p - x1 - x2) % p
      some (x3, (l * (x1 + p - x3) + p - y1) % p)

/-- Multiplication of a point by the n low bits of a scalar. -/
def ptMul (a : Pt384) (k : Nat) : Nat → Pt384
  | 0 => none
  | n + 1 =>
    let r := ptMul a (k / 2) n
    let d := ptAdd r r
    if k % 2 = 1 then ptAdd d a else d

/-- A point lies on P-384. -/
def onCurve (q : Nat × Nat) : Bool :=
  decide (q.1 < p384P) && decide (q.2 < p384P)
    && decide (q.2 * q.2 % p384P = (q.1 * q.1 * q.1 + (p384P - 3) * q.1 + p384B) % p384P)

/-- The point whose X and Y 96 bytes hold. -/
def ptOf (l : List Byte) : Nat × Nat := (beAt l 0 48, beAt l 48 48)

/-- X and Y of a point in 96 bytes. -/
def ptBytes (q : Pt384) : List Byte :=
  match q with
  | some (x, y) => beBytes 48 x ++ beBytes 48 y
  | none => List.replicate 96 0

/-- ECDSA P-384: a signature r, s of a digest of 48 bytes verifies under a public key. -/
def ecdsaOk (key : Nat × Nat) (digest : List Byte) (r s : Nat) : Bool :=
  let n := p384N
  if !onCurve key || decide (r = 0) || decide (n ≤ r) || decide (s = 0) || decide (n ≤ s) then false
  else
    let w := invMod n s
    match ptAdd (ptMul (some p384G) (beNat digest * w % n) 384) (ptMul (some key) (r * w % n) 384) with
    | some (x, _) => decide (x % n = r)
    | none => false

/-- ECDSA P-384: the signature of a digest under a private key with a nonce. -/
def ecdsaSign (d k : Nat) (digest : List Byte) : List Byte :=
  let n := p384N
  match ptMul (some p384G) k 384 with
  | some (x, _) =>
    let r := x % n
    beBytes 48 r ++ beBytes 48 (invMod n k * (beNat digest + r * d) % n)
  | none => List.replicate 96 0

/-- A private key or nonce of P-384 from a free value: 1 to n − 1. -/
def scalar384 (x : Nat) : Nat := 1 + x % (p384N - 1)

end Sys2Proof.Machine
end

