-- ==== Sys2Proof/Machine/Fence.lean ====
section
/-! DEFINITION. Tenant fences: point rights by class (R81 to R85), how refusals are counted (R84, R105), and the record's
TENANT_CLASS bits they judge by (Table 4.4). -/
namespace Sys2Proof.Machine

/-- TENANT_CLASS.CFG. -/
def tcCfg (tc : BitVec 16) : Bool := tc.getLsbD 15
/-- TENANT_CLASS.CMD. -/
def tcCmd (tc : BitVec 16) : Bool := tc.getLsbD 11
/-- EGRESS, LIFT_FS or LIFE. -/
def tcPriv (tc : BitVec 16) : Bool := tc.getLsbD 10 || tc.getLsbD 9 || tc.getLsbD 8
/-- BILLING. -/
def tcBill (tc : BitVec 16) : Bool := tc.getLsbD 7
/-- SHARED. -/
def tcShared (tc : BitVec 16) : Bool := tc.getLsbD 6
/-- TENANT. -/
def tcTenant (tc : BitVec 16) : Nat := nfld tc.toNat 0 6

/-- FENCE.RIGHTSc. Classes above 6 have no register and no right. -/
def Half.rights (m : Half) (c : Nat) : Word := if c ≤ 6 then m.rd (rFenceRights c) else 0

/-- R81: the point is visible to the stamp. -/
def Half.visible (m : Half) (tc : BitVec 16) (st : Stamp) : Bool :=
  let read := fld (m.rights (stampClass st)) 0 2
  tcCfg tc && (decide (read = 2) || (decide (read = 1) && (decide (tcTenant tc = stampTenant st) || tcShared tc)))

/-- R82: a right (3 FORCE, 4 PRIV, 5 BILL) of a RIGHTS word; a class with read scope OWN has none of the three. -/
def granted (r : Word) (i : Nat) : Bool := flag r i && decide (fld r 0 2 ≠ 1)

/-- R81, R82: the write rights of a stamp over a point of these class bits, at a level. -/
def Half.mayWrite (m : Half) (tc : BitVec 16) (st : Stamp) (level : Nat) : Bool :=
  let r := m.rights (stampClass st)
  flag r 2
    && (if level = 0 then granted r 3 else decide (fld r 12 5 ≤ level))
    && (!tcPriv tc || granted r 4)
    && (!tcBill tc || granted r 5)
    && (decide (fld r 0 2 ≠ 1) || (decide (tcTenant tc = stampTenant st) && !tcShared tc))

/-- R84, R85: the Fence's answer to a read, as a status of Table 3.7. -/
def Half.fenceRead (m : Half) (tc : BitVec 16) (st : Stamp) : Nat := if m.visible tc st then 0 else 6

/-- R84, R85, R121: the Fence's answer to a write or relinquish at a level; level 17 is for LOCAL and OWNER alone. -/
def Half.fenceWrite (m : Half) (tc : BitVec 16) (st : Stamp) (level : Nat) : Nat :=
  if !m.visible tc st then 6
  else if !m.mayWrite tc st level then 3
  else if level = 17 ∧ 1 < stampClass st then 3
  else 0

/-- What a port has recorded at reset. -/
def rateReset : PortRate := ⟨⟨0, 0⟩, none, [], none, 0⟩

/-- One second and one millisecond of the half's free-running counter. -/
def oneSec : Nat := 1000000000
/-- One millisecond. -/
def oneMs : Nat := 1000000

/-- An instant lies at least a span back, or there was none. -/
def Half.passed (m : Half) (since : Option Nat) (span : Nat) : Bool :=
  match since with
  | none => true
  | some t => decide (t + span ≤ m.up)

/-- The instants of a list that lie in the second that ends now. -/
def lastSecond (now : Nat) (l : List Nat) : List Nat := l.filter (fun t => decide (now < t + oneSec))

/-- R104: one more drop at a port: the drops of the last second, and whether the port's event is due. -/
def Half.dropNow (m : Half) (x : PortRate) : PortRate × Bool :=
  let due := m.passed x.rlAt oneSec
  ({ x with rlDrops := lastSecond m.up x.rlDrops ++ [m.up], rlAt := if due then some m.up else x.rlAt }, due)

/-- The event bookkeeping of a port. -/
def Half.rate (m : Half) (i : Nat) : PortRate := sget rateReset m.rates i

/-- Writes the event bookkeeping of a port. -/
def Half.setRate (m : Half) (i : Nat) (x : PortRate) : Half := { m with rates := sset rateReset m.rates i x }

/-- A point address as the parameters of events and the payloads of IPP hold it: module address, then point index. -/
def pointAddr (module_ point : Nat) : Nat := module_ + point * 2 ^ 16

/-- R78, R101: a frame or request dropped at a port is counted there. -/
def Half.portRefused (m : Half) (i : Nat) : Half := m.stick (rPortsRefuse i) 1

/-- R84, R105: a refused point access is counted in FENCE.REFUSE_CNT and at its port, and with REFUSE_EVT set records event
0x0707 once per second and port at most. -/
def Half.fenceRefused (m : Half) (st : Stamp) (addr status : Nat) : Half :=
  let i := stampPort st
  let m1 := (m.stick rFenceRefuseCnt 1).portRefused i
  if m1.rdB rFenceCtrl 0 then
    let x := m1.rate i
    if m1.passed x.refAt oneSec then
      (m1.setRate i { x with refAt := some m1.up, refCnt := 0 }).ev 0x0707 i (x.refCnt + 1) addr status
    else m1.setRate i { x with refCnt := x.refCnt + 1 }
  else m1

end Sys2Proof.Machine
end

