-- ==== Sys2Proof/Machine/Queues.lean ====
section
/-! DEFINITION. Buffers in memory and the descriptor queues between blocks and policy cores (R499 to R503). -/
namespace Sys2Proof.Machine

/-- A byte of the half's memory (LPDDR and the queues-and-buffers SRAM); a byte nothing has written reads as 0. -/
def Half.peek (m : Half) (a : Nat) : Byte := sget 0 m.lpddr a

/-- Bytes of memory from an address. -/
def Half.peekN (m : Half) (a n : Nat) : List Byte := (List.range n).map (fun i => m.peek (a + i))

/-- A byte of memory written. -/
def memSet (mem : Sparse Byte) (a : Nat) (b : Byte) : Sparse Byte := sset 0 mem a b

/-- Bytes of memory written from an address. -/
def memPut (mem : Sparse Byte) (a : Nat) : List Byte → Sparse Byte
  | [] => mem
  | b :: bs => memPut (memSet mem a b) (a + 1) bs

/-- Bytes of the half's memory written from an address. -/
def Half.poke (m : Half) (a : Nat) (bs : List Byte) : Half := { m with lpddr := memPut m.lpddr a bs }

/-- The addresses a queue holds, oldest first. -/
def Half.queue (m : Half) (q : Nat) : List Nat := sget [] m.que.q q

/-- Replaces what a queue holds. -/
def Half.setQueue (m : Half) (q : Nat) (l : List Nat) : Half :=
  { m with que := { m.que with q := sset [] m.que.q q l } }

/-- R499: a queue holds up to 1,024 addresses. Answers whether there was room. -/
def Half.push (m : Half) (q a : Nat) : Half × Bool :=
  if (m.queue q).length < 1024 then (m.setQueue q (m.queue q ++ [a]), true) else (m, false)

/-- The oldest address of a queue. -/
def Half.pop (m : Half) (q : Nat) : Half × Option Nat :=
  match m.queue q with
  | [] => (m, none)
  | a :: l => (m.setQueue q l, some a)

/-- Pads or cuts a list of bytes to n. -/
def padTo (n : Nat) (l : List Byte) : List Byte := (l ++ List.replicate n 0).take n

/-- Table 20.14: the descriptor of an item for a receive queue. -/
def rxHeader (type flags len page : Nat) (time : Dword) (stamp : Stamp) (seq : Word) (detail : List Byte) : List Byte :=
  [BitVec.ofNat 8 type, BitVec.ofNat 8 flags, 0, 0] ++ leBytes 4 len ++ leBytes 8 time.toNat ++ leBytes 2 page
    ++ leBytes 2 stamp.toNat ++ leBytes 4 seq.toNat ++ leBytes 8 0 ++ padTo 32 detail

/-- R499, R500: a block posts an item on receive queue q: a buffer of the free list takes the descriptor and the payload,
cut to 1,984 bytes, and its address goes onto the queue. Answers whether it was posted. -/
def Half.post (m : Half) (q type page : Nat) (time : Dword) (stamp : Stamp) (detail payload : List Byte) : Half × Bool :=
  match m.pop (q + 128) with
  | (_, none) => (m, false)
  | (m1, some a) =>
    if 1024 ≤ (m.queue q).length then (m, false)
    else
      let seq := sget 0 m.que.seq q + 1
      let m2 := m1.poke a (rxHeader type (decide (1984 < payload.length)).toNat (min payload.length 1984) page time stamp seq
        detail ++ payload.take 1984)
      ({ m2 with que := { m2.que with seq := sset 0 m2.que.seq q seq } }.push q a)

/-- R499, R500: a block has finished with a buffer of transmit or job queue q: it writes STATUS, TIME and PAGE and pushes
the buffer's address onto the completion list. -/
def Half.complete (m : Half) (q a page status : Nat) : Half :=
  let m1 := ((m.poke (a + 2) [BitVec.ofNat 8 status]).poke (a + 8) (leBytes 8 m.tai.toNat)).poke (a + 16) (leBytes 2 page)
  (m1.push (q + 128) a).1

/-- The queue fields of a half whose enable bit is 1 (R499): the register, and the queues it names. -/
def Half.queueFields (m : Half) : List (Nat × Nat) :=
  let two (k : Nat) : List (Nat × Nat) := if m.rdB k 31 then [(k, m.rdF k 0 8), (k, m.rdF k 8 8)] else []
  let one (k : Nat) : List (Nat × Nat) := if m.rdB k 31 then [(k, m.rdF k 0 8)] else []
  ((List.range 16).flatMap (fun i => one (rCanRxq i))) ++ ((List.range 16).flatMap (fun i => two (rSerQueue i)))
    ++ ((List.range 8).flatMap (fun i => two (rDaliQueue i)))
    ++ ([0xA0, 0xA1] ++ (List.range 16).map (· + 0xA8) ++ [0xB8]).flatMap (fun p => two (rMacQueue p))
    ++ one rNrgIq ++ one rSecJobq ++ one rEvrQueue

/-- R499: what a write to a register that names queues is refused with: RANGE for a queue above 127, REFUSED for a queue
that another enabled field names. -/
def Half.queueRule (m : Half) (k : Nat) (v : Word) (two : Bool) : Nat :=
  let qs := if two then [fld v 0 8, fld v 8 8] else [fld v 0 8]
  if qs.any (fun q => decide (127 < q)) then 5
  else if flag v 31 && two && decide (fld v 0 8 = fld v 8 8) then 8
  else if flag v 31 && (m.queueFields.any (fun e => decide (e.1 ≠ k) && qs.any (fun q => decide (q = e.2)))) then 8
  else 0

end Sys2Proof.Machine
end

