-- ==== Sys2Proof/Machine/Tx.lean ====
section
/-! DEFINITION. Frames handed to the transmitters: Ethernet transmit queues (R344 to R346), and Merzin frames this module
originates (R367, R368, R374, R376). -/
namespace Sys2Proof.Machine

/-- The half's own record of what it has sent. -/
def Half.log (m : Half) (x : Sent) : Half := { m with sent := m.sent ++ [x] }

/-- What a MAC holds at reset. -/
def macReset : MacSt := ⟨0, 0, false, false, 0, 0, false, [], 0, false, 0, none⟩

/-- A MAC, by its page. -/
def Half.macOf (m : Half) (p : Nat) : MacSt := sget macReset m.mac p

/-- Changes a MAC. -/
def Half.updMac (m : Half) (p : Nat) (f : MacSt → MacSt) : Half :=
  { m with mac := sset macReset m.mac p (f (m.macOf p)) }

/-- The page of the MAC that sends for a port index in this half (Table 1.4, Table 3.2): the building pair leaves on BLD_A
from Half A and on BLD_B from Half B. -/
def Half.txPage (m : Half) (i : Nat) : Option Nat :=
  if i = 1 ∨ i = 2 then some (if m.self = .a then 0xA0 else 0xA1)
  else if i = 3 then some 0xB8
  else if 0x08 ≤ i ∧ i ≤ 0x0F then some (0xA8 + (i - 0x08))
  else if 0x10 ≤ i ∧ i ≤ 0x17 then some (0xB0 + (i - 0x10))
  else none

/-- The port index of a MAC page (Table 3.2). -/
def macPort (p : Nat) : Nat :=
  if p = 0xA0 then 1 else if p = 0xA1 then 2 else if p = 0xB8 then 3
  else if p ≤ 0xAF then 0x08 + (p - 0xA8) else 0x10 + (p - 0xB0)

/-- The grain tag of an Ethernet frame (R342): a CRC-32C over its bytes from the destination address to the last before the FCS, and the
entry stamp. -/
def ethGrain (b : List Byte) (st : Stamp) : Word := word (crc32c (b ++ leBytes 2 st.toNat))

/-- The grain tag of a frame that this module builds: its stamp is LOCAL (R344). Where the frame's bytes are the IP layer's or the PRP
unit's, no buffer of software's holds them. -/
def payGrain : EthPay → Word
  | .raw b => ethGrain b 0
  | .ptp b => ethGrain b 0
  | _ => 0

/-- A frame enters a port's transmit queue. -/
def Half.ethQueue (m : Half) (i : Nat) (pay : EthPay) (sheaf : Option (Nat × Nat))
    (buf : Option (Nat × Nat)) : Half :=
  match m.txPage i with
  | none => m
  | some p => m.updMac p (fun x => { x with txq := x.txq ++ [⟨pay, m.up, payGrain pay, sheaf, buf⟩] })

/-- An IPP datagram leaves on the port of its request or session (R102). -/
def Half.ippSend (m : Half) (d : IppMsg) : Half := m.ethQueue d.port (.ipp d) none none

/-- The page of a Merzin port: 0 MZE, 1 MZW, 2 MZU, 3 MZD. -/
def mzPage (p : Nat) : Nat := 0xC1 + p

/-- What a Merzin port holds at reset. -/
def mzpReset : MzpSt := ⟨0, false, 0, 0, none, none, 0, 0, 0, 0, 0, [], 0, 0, 0, none, [], none, []⟩

/-- A Merzin port. -/
def Half.mzp (m : Half) (p : Nat) : MzpSt := sget mzpReset m.mz.ports p

/-- Changes a Merzin port. -/
def Half.updMzp (m : Half) (p : Nat) (f : MzpSt → MzpSt) : Half :=
  { m with mz := { m.mz with ports := sset mzpReset m.mz.ports p (f (m.mzp p)) } }

/-- A statistics counter of a Merzin port (R381): bit k of MZP.HALF and PG_IRQ_RAW bit 1 at half range. -/
def Half.mzpCount (m : Half) (p k n : Nat) : Half :=
  m.countH (rMzpCnt p k) n (mzPage p) 1 (rMzpHalf p) k

/-- An address within MZ.RING. -/
def Half.inRing (m : Half) (a : Nat) : Bool := decide (m.rdF rMzRing 0 16 ≤ a) && decide (a ≤ m.rdF rMzRing 16 16)

/-- An address within MZ.DOWN, while DOWN_EN is 1. -/
def Half.inDown (m : Half) (a : Nat) : Bool :=
  m.rdB rMzCtrl 1 && decide (m.rdF rMzDown 0 16 ≤ a) && decide (a ≤ m.rdF rMzDown 16 16)

/-- R376: the starting hop budget for a destination. -/
def Half.budgetFor (m : Half) (dest : Nat) : Nat :=
  if dest ≠ 0xFFFF ∧ m.inRing dest then m.rdF rMzBudget 0 16 else m.rdF rMzBudget 16 16

/-- A broadcast that crosses tree ports (Table 15.3). -/
def mzBuilding (f : MzFrame) : Bool := decide (f.dest = 0xFFFF) && f.flags.testBit 0

/-- Table 15.6, for a frame that arrived on a ring port or that this module originates: it leaves on MZU. -/
def Half.toUp (m : Half) (f : MzFrame) : Bool :=
  decide (f.kind ≠ 0x03) && (if f.dest = 0xFFFF then mzBuilding f else !m.inRing f.dest && m.rdB rMzCtrl 0)

/-- Table 15.6: it leaves on MZD. -/
def Half.toDown (m : Half) (f : MzFrame) : Bool :=
  decide (f.kind ≠ 0x03) && (if f.dest = 0xFFFF then mzBuilding f else m.inDown f.dest)

/-- The port carries the frame now (Table 15.1, R370): every frame in UP, LINK and WAKE frames in UNKEYED. -/
def Half.mzCarries (m : Half) (p kind : Nat) : Bool :=
  decide ((m.mzp p).link = 4) || (decide ((m.mzp p).link = 3) && (decide (kind = 1) || decide (kind = 2)))

/-- The ports this half sends on (Table 1.4, R368): MZE from Half A and MZW from Half B while it is in charge or follower, and the tree
ports under a valid lease; of those the lease-gated stage passes what the half in charge sends. -/
def Half.mzMaySend (m : Half) (y : View) (p : Nat) : Bool :=
  if p = 0 then decide (m.self = .a) && y.speaks
  else if p = 1 then decide (m.self = .b) && y.speaks
  else y.speaks && y.any

/-- A header of a frame as Table 15.3 lays it out, without HCHECK. -/
def mzHeaderBytes (f : MzFrame) : List Byte :=
  leBytes 2 f.dest ++ leBytes 2 f.src ++ leBytes 1 f.stream ++ leBytes 4 f.seq.toNat ++ leBytes 2 f.budget ++ leBytes 1 f.kind
    ++ leBytes 2 f.stamp.toNat ++ leBytes 1 f.flags

/-- One byte into a CRC-8 of polynomial 0x07. -/
def crc8Byte (c : Nat) (b : Byte) : Nat :=
  (List.range 8).foldl (fun c _ => if c.testBit 7 then (2 * c % 256) ^^^ 7 else 2 * c) (c ^^^ b.toNat)

/-- HCHECK (Table 15.3): a CRC-8 over header bytes 0 to 14, initial 0. -/
def mzHcheck (f : MzFrame) : Byte := BitVec.ofNat 8 ((mzHeaderBytes f).foldl crc8Byte 0)

/-- The grain tag (R366): a CRC-32C over header bytes 0 to 8 and 11 to 13 and the payload, of which a PTP message's correction field is
left out. BUDGET, FLAGS and HCHECK have no part in it, so it does not change from hop to hop. -/
def mzGrain (f : MzFrame) : Word :=
  let h := mzHeaderBytes f
  let pay := if f.kind = 0x40 then f.payload.take 8 ++ f.payload.drop 16 else f.payload
  word (crc32c (h.take 9 ++ (h.drop 11).take 3 ++ pay))

/-- The key of a slot of a port. -/
def MzpSt.key (x : MzpSt) (slot : Nat) : Option (List Word) := if slot = 0 then x.key0 else x.key1

/-- The key that a slot's tags are computed with: all zero while AUTH is 0 (R370). -/
def Half.mzKey (m : Half) (p slot : Nat) : List Word :=
  if m.rdB (rMzpKeyCtrl p) 8 then ((m.mzp p).key slot).getD (List.replicate 8 0) else List.replicate 8 0

/-- The bytes of a frame on a link, from header byte 0 to the last grain-tag byte. -/
def mzLinkBytes (f : MzFrame) (hcheck : Byte) (grain : Word) : List Byte :=
  mzHeaderBytes f ++ [hcheck] ++ f.payload ++ leBytes 4 grain.toNat

/-- The link tag (R369): AES-256-GCM with the frame's bytes as additional data, an empty plaintext, and a nonce of the sender's address and
port, the key slot and the link counter; its first 64 bits, the first byte lowest. -/
def mzLinkTag (key : List Word) (sender port slot cnt : Nat) (data : List Byte) : Dword :=
  let nonce := leBytes 2 sender ++ leBytes 1 port ++ leBytes 1 slot ++ leBytes 8 cnt
  BitVec.ofNat 64 (leNat ((gcmTag aesTable (aesKeys aesTable (key.flatMap (fun w => leBytes 4 w.toNat))) nonce data []).take 8))

/-- A frame as it leaves on a port now: its HCHECK, a grain tag, and the link tag under the sending slot and its counter; that of a stomped
frame is complemented (R369, R375). -/
def Half.mzWire (m : Half) (p : Nat) (f : MzFrame) (grain : Word) (good : Bool) : MzRx :=
  let slot := m.rdF (rMzpKeyCtrl p) 0 1
  let cnt := if slot = 0 then (m.mzp p).txCnt0 else (m.mzp p).txCnt1
  let tag := mzLinkTag (m.mzKey p slot) m.addr p slot cnt (mzLinkBytes f (mzHcheck f) grain)
  ⟨f, mzHcheck f, good, grain, if good then tag else ~~~tag, Fin.ofNat 2 slot, cnt % 2 ^ 23⟩

/-- A frame leaves a port: it is counted, under the next link counter of the sending slot, and recorded. What the half that is not in charge
sends on a tree port, the lease-gated stage does not pass (Table 1.4). -/
def Half.mzLeave (m : Half) (y : View) (p : Nat) (f : MzFrame) (grain : Word) (good : Bool) : Half :=
  let m1 := (m.mzpCount p 2 1).mzpCount p 3 (28 + f.payload.length)
  let m2 := m1.updMzp p (fun x =>
    if m.rdB (rMzpKeyCtrl p) 0 then { x with txCnt1 := x.txCnt1 + 1 } else { x with txCnt0 := x.txCnt0 + 1 })
  if p < 2 ∨ y.drives then m2.log (.mz p (m.mzWire p f grain good)) else m2

/-- One frame leaves on a port, if the port carries it. Before the first lease grant of a start it is held for that grant (R525). -/
def Half.mzEmit (m : Half) (y : View) (p : Nat) (f : MzFrame) : Half :=
  if y.start then (if f.kind = 1 ∨ f.kind = 3 ∨ f.src ≠ m.addr then m else { m with mz := { m.mz with hold := m.mz.hold ++ [(p, f)] } })
  else if m.on (mzPage p) && m.mzMaySend y p && m.mzCarries p f.kind then
    m.mzLeave y p f (mzGrain f) true
  else m

/-- The key of a duplicate-table entry (R373). -/
def dupKey (src stream : Nat) : Nat := src * 256 + stream

/-- R373: a frame this module sends enters its own duplicate table. -/
def Half.dupOwn (m : Half) (src stream : Nat) (seq : Word) : Half :=
  let k := dupKey src stream
  let hist := match sfind m.mz.dups k with
    | some e => (e.hist * 2 + 1) % 2 ^ 64
    | none => 0
  if (sfind m.mz.dups k).isNone ∧ 4096 ≤ m.mz.dups.length then m
  else { m with mz := { m.mz with dups := sput m.mz.dups k ⟨seq, hist, m.up⟩ } }

/-- The ports a frame of this module's own leaves on (Table 15.6). -/
def Half.mzOwnPorts (m : Half) (f : MzFrame) : List Nat :=
  [0, 1] ++ (if m.toUp f then [2] else []) ++ (if m.toDown f then [3] else [])

/-- A frame leaves on a list of ports. -/
def Half.mzEmitAll (m : Half) (y : View) (f : MzFrame) : List Nat → Half
  | [] => m
  | p :: ps => (m.mzEmit y p f).mzEmitAll y f ps

/-- R365, R367, R374, R376: a frame leaves under a source address, of which base tells the streams apart: the next sequence of its
stream, RESYNC on the first 16 after a restart, the budget of its destination, its own entry in the duplicate table, and every port
Table 15.6 gives. -/
def Half.mzSendFrom (m : Half) (y : View) (src base dest stream kind : Nat) (stamp : Stamp) (flags : Nat) (payload : List Byte) : Half :=
  if m.on 0x0C0 then
    let seq := sget 0 m.mz.seqs (base + stream) + 1
    let n := sget 0 m.mz.early (base + stream)
    let f : MzFrame := ⟨dest, src, stream, seq, m.budgetFor dest, kind, stamp, flags + (if n < 16 then 2 else 0), payload⟩
    let m1 := { m with mz := { m.mz with
      seqs := sset 0 m.mz.seqs (base + stream) seq, early := sset 0 m.mz.early (base + stream) (min (n + 1) 16) } }
    let m2 := (m1.dupOwn src stream seq).countH (rMzCnt 2) 1 0x0C0 1 rMzHalf 2
    m2.mzEmitAll y f (m.mzOwnPorts f)
  else m

/-- This module originates a frame. -/
def Half.mzSend (m : Half) (y : View) (dest stream kind : Nat) (stamp : Stamp) (flags : Nat) (payload : List Byte) : Half :=
  m.mzSendFrom y m.addr 0 dest stream kind stamp flags payload

/-- R398: a frame for a point: one of a fostered point carries the protected module's address as SRC, on streams of its own. -/
def Half.mzSendPoint (m : Half) (y : View) (i dest stream kind : Nat) (stamp : Stamp) (payload : List Byte) : Half :=
  match m.fosteredAt i with
  | some (k, a, _) => m.mzSendFrom y a (256 * (k + 1)) dest stream kind stamp 0 payload
  | none => m.mzSend y dest stream kind stamp 0 payload

/-- The stamp of frames this module originates (R74): PEER, tenant 0, port index 0x05. -/
def peerStamp : Stamp := 0x5005

end Sys2Proof.Machine
end

