-- ==== Sys2Proof/Machine/PointBase.lean ====
section
/-! DEFINITION. Point records (R109 to R118), the priority array (R119, R120), the force table, quality, change of value
(R126, R127), subscriptions and notifications (R103, R128, R129). -/
namespace Sys2Proof.Machine

/-- One byte into the CRC-16 of R118 (polynomial 0x1021, no reflection). -/
def crc16Byte (c : Nat) (b : Byte) : Nat :=
  (List.range 8).foldl (fun c _ => if c.testBit 15 then (c * 2 ^^^ 0x1021) % 2 ^ 16 else c * 2 % 2 ^ 16)
    (c ^^^ (b.toNat * 2 ^ 8))

/-- CRC-16 with initial value 0xFFFF (R118). -/
def crc16 (l : List Byte) : Nat := l.foldl crc16Byte 0xFFFF

/-- R109: the record of a point that is not configured: zero, with the check of thirty zero bytes. -/
def recReset : PointRec := ⟨0, 0, 0, 0, 0, 0, 0, 0, 0, 0x2A45⟩

/-- Bytes 0 to 29 of a record (Table 4.1). -/
def recBytes (r : PointRec) : List Byte :=
  leBytes 8 r.value.toNat ++ leBytes 8 r.time.toNat ++ leBytes 2 r.typeUnit.toNat ++ [r.quality, r.level]
    ++ leBytes 2 r.tc.toNat ++ leBytes 2 r.srcBind.toNat ++ leBytes 4 r.cov.toNat ++ leBytes 2 r.seq.toNat

/-- The 32 bytes of a record (Table 4.1). -/
def recAll (r : PointRec) : List Byte := recBytes r ++ leBytes 2 r.check.toNat

/-- R118: the record's CHECK. -/
def recCheck (r : PointRec) : BitVec 16 := BitVec.ofNat 16 (crc16 (recBytes r))

/-- A record. -/
def Half.pt (m : Half) (i : Nat) : PointRec := sget recReset m.ptab.recs i

/-- Changes the point-table engine's private state. -/
def Half.updP (m : Half) (f : PtabSt → PtabSt) : Half := { m with ptab := f m.ptab }

/-- Stores a record with its CHECK as it stands. -/
def Half.putRaw (m : Half) (i : Nat) (r : PointRec) : Half :=
  m.updP (fun p => { p with recs := sset recReset p.recs i r })

/-- The engine writes a record with a new CHECK (R118). -/
def Half.putRec (m : Half) (i : Nat) (r : PointRec) : Half := m.putRaw i { r with check := recCheck r }

/-- The point is configured (R116), and its index is not 0xFFFF (R8). -/
def Half.configured (m : Half) (i : Nat) : Bool := decide (i < 0xFFFF) && tcCfg (m.pt i).tc

/-- TENANT_CLASS of a point as the Fence sees it: zero for index 0xFFFF and beyond (R84). -/
def Half.tcOf (m : Half) (i : Nat) : BitVec 16 := if i < 0xFFFF then (m.pt i).tc else 0

/-- R119: the point is commandable. -/
def Half.commandable (m : Half) (i : Nat) : Bool := decide (i < 0x4000) && tcCmd (m.pt i).tc

/-- TYPE of a record. -/
def recType (r : PointRec) : Nat := r.typeUnit.toNat / 2 ^ 12

/-- A priority-array slot at reset: no level occupied, no output binding. -/
def prioReset : PrioSlot := ⟨[], [], 0xFFFF⟩

/-- The priority-array slot of a point. -/
def Half.prio (m : Half) (i : Nat) : PrioSlot := sget prioReset m.ptab.prio i

/-- Writes a priority-array slot. -/
def Half.setPrio (m : Half) (i : Nat) (x : PrioSlot) : Half :=
  m.updP (fun p => { p with prio := sset prioReset p.prio i x })

/-- The force entry of a point, with its number (R123). -/
def Half.forceOf (m : Half) (i : Nat) : Option (Nat × Force) :=
  m.ptab.forces.find? (fun e => decide (e.2.kind = 3) && decide (e.2.addr = i))

/-- R120: the level that rules a commandable point. -/
def Half.activeLevel (m : Half) (i : Nat) : Nat :=
  match m.forceOf i with
  | some _ => 0
  | none => ((m.prio i).occ.head?).getD 17

/-- R120: the value held at a level. -/
def Half.valueAt (m : Half) (i l : Nat) : Dword :=
  if l = 0 then (match m.forceOf i with | some (_, f) => f.value | none => 0) else sget 0 (m.prio i).vals l

/-- PTAB.LVL_VAL: the value held at a level, zero where the point has none there (R119, R122). -/
def Half.levelValue (m : Half) (i l : Nat) : Dword := if l = 0 ∨ m.commandable i then m.valueAt i l else 0

/-- R115: GOOD follows the other flags. -/
def fixGood (q : Nat) : Byte :=
  let bad := q.testBit 1 || q.testBit 3 || q.testBit 4 || q.testBit 5 || q.testBit 7
  BitVec.ofNat 8 (if bad then q &&& 0xFE else q ||| 1)

/-- Sets or clears a quality flag (Table 4.3). -/
def qSet (q : Byte) (i : Nat) (b : Bool) : Byte :=
  fixGood (if b then q.toNat ||| 2 ^ i else q.toNat &&& (0xFF - 2 ^ i))

/-- R113: a value normalised by type, or none where the type refuses it. -/
def normalise (type : Nat) (v : Dword) : Option Dword :=
  let lo := v.toNat % 2 ^ 32
  if type = 0 then some (if v = 0 then 0 else 1)
  else if type = 1 then (if lo = 0 then none else some (BitVec.ofNat 64 lo))
  else if type = 2 then some (BitVec.ofNat 64 (twos 64 (sext 32 lo)))
  else if type = 3 then some (BitVec.ofNat 64 lo)
  else if type = 6 then (if fIsFin (fdec f32 lo) then some (BitVec.ofNat 64 lo) else none)
  else if type = 7 then (if fIsFin (fdec f64 v.toNat) then some v else none)
  else some v

/-- A value as a number (Table 4.2): two's complement for INT32 and INT64, unsigned for the others. -/
def valueFv (type : Nat) (v : Dword) : Fv :=
  if type = 2 ∨ type = 4 then fint v.toInt
  else if type = 6 then fdec f32 (v.toNat % 2 ^ 32)
  else if type = 7 then fdec f64 v.toNat
  else fint v.toNat

/-- R127: the value has moved from the reference by at least the increment, or differs where every change counts (R126). -/
def covMoved (type inc : Nat) (ref v : Dword) : Bool :=
  if type = 0 ∨ type = 1 ∨ type = 8 ∨ type = 9 ∨ inc = 0 then decide (v ≠ ref)
  else
    let d := fabs (fsub (valueFv type v) (valueFv type ref))
    let c := if type = 6 ∨ type = 7 then fabs (fdec f16 inc) else fint inc
    !flt d c

/-- A subscription entry. -/
def Half.sub? (m : Half) (e : Nat) : Option Sub := sfind m.ptab.subs e

/-- Changes a subscription entry. -/
def Half.setSub (m : Half) (e : Nat) (x : Sub) : Half := m.updP (fun p => { p with subs := sput p.subs e x })

/-- The subscription entries from a link on, in chain order. -/
def Half.chainFrom (m : Half) : Nat → Nat → List Nat
  | 0, _ => []
  | n + 1, e =>
    match m.sub? e with
    | none => []
    | some x => e :: m.chainFrom n x.link

/-- R126: the chain of a point's subscription entries, from COV [31:16]; a point that is not configured has none (R109). -/
def Half.chain (m : Half) (i : Nat) : List Nat :=
  if m.configured i then m.chainFrom 16384 ((m.pt i).cov.toNat / 2 ^ 16) else []

/-- A point entry of a response or notification (R95): point address, status, level, quality, value, time, type and unit. -/
def pointEntry (addr status : Nat) (r : PointRec) : List Byte :=
  leBytes 4 addr ++ [BitVec.ofNat 8 status, r.level, r.quality, 0] ++ leBytes 8 r.value.toNat ++ leBytes 8 r.time.toNat
    ++ leBytes 4 r.typeUnit.toNat

/-- R84: the entry of a point that is not visible has every value field zero. -/
def emptyEntry (addr status : Nat) : List Byte :=
  leBytes 4 addr ++ [BitVec.ofNat 8 status] ++ List.replicate 23 0

/-- What an IPP session holds before its first use. -/
def sessReset : Session := ⟨0, false, 0, 0, 0, 0, 0, 0, 0, 0⟩

/-- A session by its index. -/
def Half.ses (m : Half) (i : Nat) : Session := sget sessReset m.sess i

/-- Writes a session. -/
def Half.setSes (m : Half) (i : Nat) (x : Session) : Half := { m with sess := sset sessReset m.sess i x }

/-- R89: the ID of a session. -/
def sessId (i : Nat) (x : Session) : Nat := x.gen * 2 ^ 9 + i

/-- R398: the module address and index under which a point is known. -/
def Half.pointSeen (m : Half) (i : Nat) : Nat × Nat :=
  match m.fosteredAt i with
  | some (_, a, j) => (a, j)
  | none => (m.addr, i)

/-- R103: a NOTIFY to a session, under its next notification sequence. -/
def Half.notifySession (m : Half) (si i : Nat) (r : PointRec) : Half :=
  let x := m.ses si
  let x' := { x with nseq := x.nseq + 1 }
  (m.setSes si x').ippSend ⟨stampPort x.stamp, x.ip, x.udp, 0x05, 1, sessId si x, x'.nseq, 0,
    leBytes 2 1 ++ leBytes 2 0 ++ pointEntry (pointAddr (m.pointSeen i).1 (m.pointSeen i).2) 0 r⟩

/-- NOTIFY (R103, R129): one send of a subscription entry with the record as it stands. A session that no longer sees the
point is sent nothing (R86). -/
def Half.sendSub (m : Half) (y : View) (e : Nat) : Half :=
  match m.sub? e with
  | none => m
  | some x =>
    let r := m.pt x.point
    let m1 := m.setSub e { x with lastAt := some m.up, held := false }
    if x.kind = 0 then
      let si := x.dest % 512
      if (m.ses si).isOpen ∧ sessId si (m.ses si) = x.dest ∧ m.visible r.tc (m.ses si).stamp
      then m1.notifySession si x.point r
      else m1
    else if x.kind = 1 then
      m1.mzSendPoint y x.point x.dest 0x12 0x12 peerStamp (leBytes 2 (m.pointSeen x.point).2 ++ leBytes 2 0 ++ recAll r)
    else (m1.post x.dest 0x0A 0x020 m.tai 0 (leBytes 2 x.point ++ leBytes 2 e) (recAll r)).1

/-- R128: a firing reaches an entry: sent if its minimum interval has passed since its previous send, held otherwise. -/
def Half.fireSub (m : Half) (y : View) (e : Nat) : Half :=
  match m.sub? e with
  | none => m
  | some x =>
    if m.passed x.lastAt x.minNs then m.sendSub y e else m.setSub e { x with held := true }

/-- A firing reaches a list of entries. -/
def Half.fireSubs (m : Half) (y : View) : List Nat → Half
  | [] => m
  | e :: es => (m.fireSub y e).fireSubs y es

/-- PTAB.CTRL.COV_EN. -/
def Half.covEn (m : Half) : Bool := m.rdB rPtabCtrl 0

/-- CHANGE_OF_VALUE (R127): the point fires when its value has moved, or its quality or level has changed; the reference
takes the value, and every entry of its chain is told. DESIGN CHOICE (log entry 68): a write that changes QUALITY alone fires too, as R127
says and R121 does not. -/
def Half.changeOfValue (m : Half) (y : View) (i : Nat) (old new : PointRec) : Half :=
  match sfind m.ptab.covRef i with
  | none => m
  | some ref =>
    if m.covEn && (covMoved (recType new) (new.cov.toNat % 2 ^ 16) ref new.value || decide (old.quality ≠ new.quality)
        || decide (old.level ≠ new.level)) then
      (m.updP (fun p => { p with covRef := sput p.covRef i new.value })).fireSubs y (m.chain i)
    else m

/-- A change of quality that no applied write makes (R117): SEQ advances, and the point fires. -/
def Half.qualityChange (m : Half) (y : View) (i : Nat) (q : Byte) : Half :=
  let r := m.pt i
  if r.quality = q ∨ !m.configured i then m
  else
    let r' := { r with quality := q, seq := r.seq + 1 }
    (m.putRec i r').changeOfValue y i r ((m.putRec i r').pt i)

/-- R123: a quality flag is also that of the underlying value a force holds for a point that is not commandable. -/
def Half.underFlag (m : Half) (i bit : Nat) (b : Bool) : Half :=
  match m.forceOf i with
  | none => m
  | some (k, f) =>
    if m.commandable i then m
    else m.updP (fun p => { p with forces := sput p.forces k { f with uQual := qSet f.uQual bit b } })

/-- Sets or clears a quality flag of a point as a change of quality. -/
def Half.pointFlag (m : Half) (y : View) (i bit : Nat) (b : Bool) : Half :=
  (m.underFlag i bit b).qualityChange y i (qSet (m.pt i).quality bit b)

/-- Sets a quality flag on a list of points. -/
def Half.pointFlags (m : Half) (y : View) (bit : Nat) (b : Bool) : List Nat → Half
  | [] => m
  | i :: is => (m.pointFlag y i bit b).pointFlags y bit b is

/-- PTAB.SUB_FREE and the SUB_POOL_LOW source (R136) after the pool has changed. -/
def Half.subPool (m : Half) : Half :=
  let free := 16384 - m.ptab.subs.length
  let m1 := m.wrN rPtabSubFree free
  if free < 512 then m1.irq 0x020 3 else m1

/-- R129: creates an entry at the head of the point's chain; none when the pool is empty, which event 0x0808 records. -/
def Half.addSub (m : Half) (kind i dest minNs : Nat) (st : Stamp) : Half × Option Nat :=
  match sfree m.ptab.subs 16384 with
  | none => (m.ev 0x0808 i kind st.toNat 0, none)
  | some e =>
    let r := m.pt i
    let x : Sub := ⟨kind, i, dest, minNs, none, false, r.cov.toNat / 2 ^ 16⟩
    let m1 := (m.setSub e x).putRec i { r with cov := putFld r.cov 16 16 e }
    let m2 := match sfind m1.ptab.covRef i with
      | some _ => m1
      | none => m1.updP (fun p => { p with covRef := sput p.covRef i r.value })
    (m2.subPool, some e)

/-- R128: the first notification of a new entry. -/
def Half.firstSend (m : Half) (y : View) (e : Nat) : Half := if m.covEn then m.sendSub y e else m

/-- R129: an entry is freed: the chain closes over it, and a session's count falls. -/
def Half.freeSub (m : Half) (e : Nat) : Half :=
  match m.sub? e with
  | none => m
  | some x =>
    let r := m.pt x.point
    let m1 :=
      if r.cov.toNat / 2 ^ 16 = e then m.putRec x.point { r with cov := putFld r.cov 16 16 x.link }
      else
        match (m.chain x.point).find? (fun f => match m.sub? f with | some z => decide (z.link = e) | none => false) with
        | some f => (match m.sub? f with | some z => m.setSub f { z with link := x.link } | none => m)
        | none => m
    let m2 := m1.updP (fun p => { p with subs := sdel p.subs e })
    let m3 := if (m2.chain x.point).isEmpty then m2.updP (fun p => { p with covRef := sdel p.covRef x.point }) else m2
    let m4 := if x.kind = 0 then
        let si := x.dest % 512
        m3.setSes si { m3.ses si with subs := (m3.ses si).subs - 1 }
      else m3
    m4.subPool

/-- Frees a list of entries. -/
def Half.freeSubs (m : Half) : List Nat → Half
  | [] => m
  | e :: es => (m.freeSub e).freeSubs es

/-- The entries of an IPP session. -/
def Half.sessSubs (m : Half) (id : Nat) : List Nat :=
  (m.ptab.subs.filter (fun e => decide (e.2.kind = 0) && decide (e.2.dest = id))).map (·.1)

/-- PTAB.FORCE_CNT after the force table has changed, and the FORCE_CHANGE source (R136). -/
def Half.forceChanged (m : Half) : Half := (m.wrN rPtabForceCnt m.ptab.forces.length).irq 0x020 1

/-- R178: the lowest-numbered free entry of the force table's 256. -/
def Half.freeForce (m : Half) : Option Nat := sfree m.ptab.forces 256

/-- The duration of a force in seconds. -/
def Half.forcedFor (m : Half) (f : Force) : Nat := (m.up - f.setAt) / oneSec

end Sys2Proof.Machine
end

