-- ==== Sys2Proof/Machine/Bind.lean ====
section
/-! DEFINITION. Binding descriptors (Table 4.5, R130, R552), conversion between raw fields and point values (R131), and the
writes that source bindings present to the point-table engine. -/
namespace Sys2Proof.Machine

/-- Byte i of a descriptor. -/
def bByte (d : List Word) (i : Nat) : Nat := fld (d.getD (i / 4) 0) (8 * (i % 4)) 8

/-- Bytes i and i + 1 of a descriptor. -/
def bHalf (d : List Word) (i : Nat) : Nat := bByte d i + 256 * bByte d (i + 1)

/-- KIND. -/
def bKind (d : List Word) : Nat := bByte d 0
/-- FLAGS.EN. -/
def bEn (d : List Word) : Bool := (bByte d 1).testBit 0
/-- FLAGS.INVERT. -/
def bInvert (d : List Word) : Bool := (bByte d 1).testBit 1
/-- FLAGS.LINEAR. -/
def bLinear (d : List Word) : Bool := (bByte d 1).testBit 2
/-- FLAGS.SIGNED. -/
def bSigned (d : List Word) : Bool := (bByte d 1).testBit 3
/-- POINT. -/
def bPoint (d : List Word) : Nat := bHalf d 2
/-- LEVEL. -/
def bLevel (d : List Word) : Nat := bByte d 4
/-- TIMING. -/
def bTiming (d : List Word) : Nat := bHalf d 6
/-- FIELD: bit offset. -/
def bOff (d : List Word) : Nat := bByte d 24
/-- FIELD: width. -/
def bWidth (d : List Word) : Nat := bByte d 25
/-- SCALE, a binary32. -/
def bScale (d : List Word) : Fv := fdec f32 (d.getD 4 0).toNat
/-- OFFSET, a binary32. -/
def bOffset (d : List Word) : Fv := fdec f32 (d.getD 5 0).toNat

/-- A source binding's descriptor; nothing for a free one. -/
def Half.srcDesc (m : Half) (b : Nat) : List Word := sget [] m.ptab.srcB b

/-- An output binding's descriptor; nothing for a free one. -/
def Half.outDesc (m : Half) (b : Nat) : List Word := sget [] m.ptab.outB b

/-- The enabled source bindings whose descriptor meets a condition, by number. -/
def Half.sources (m : Half) (p : List Word → Bool) : List Nat :=
  (m.ptab.srcB.filter (fun e => bEn e.2 && p e.2)).map (·.1)

/-- The points of the enabled source bindings whose descriptor meets a condition. -/
def Half.sourcePoints (m : Half) (p : List Word → Bool) : List Nat :=
  (m.ptab.srcB.filter (fun e => bEn e.2 && p e.2)).map (fun e => bPoint e.2)

/-- A number rounded to binary64. -/
def r64 (x : Fv) : Fv := fdec f64 (fenc f64 x)

/-- The smallest and largest value of an integer type (Table 4.2). -/
def typeLimits (type : Nat) : Int × Int :=
  if type = 1 then (1, 2 ^ 32 - 1)
  else if type = 2 then (-(2 ^ 31), 2 ^ 31 - 1)
  else if type = 3 then (0, 2 ^ 32 - 1)
  else if type = 4 then (-(2 ^ 63), 2 ^ 63 - 1)
  else (0, 2 ^ 64 - 1)

/-- A number rounded into a binary format and held to its largest finite value, and whether it had to be. -/
def toFloat (f : Fmt) (x : Fv) : Nat × Bool :=
  let n := fenc f x
  let mag := n % 2 ^ (f.eb + f.mb)
  if f.infBits ≤ mag then (f.signed (n.testBit (f.eb + f.mb)) f.maxBits, true) else (n, false)

/-- R131: a result converted to the target type: the value and RANGE; none for a NaN. -/
def toType (type : Nat) (x : Fv) : Option (Dword × Bool) :=
  match x with
  | .nan => none
  | .inf neg =>
    if type = 0 then some (1, false)
    else if type = 6 then some (BitVec.ofNat 64 (f32.signed neg f32.maxBits), true)
    else if type = 7 then some (BitVec.ofNat 64 (f64.signed neg f64.maxBits), true)
    else
      let (lo, hi) := typeLimits type
      some (BitVec.ofInt 64 (if neg then lo else hi), true)
  | .fin neg m e =>
    if type = 6 then (let (n, r) := toFloat f32 x; some (BitVec.ofNat 64 n, r))
    else if type = 7 then (let (n, r) := toFloat f64 x; some (BitVec.ofNat 64 n, r))
    else
      let n := roundAway neg m e
      if type = 0 then some (if n = 0 then 0 else 1, false)
      else
        let (lo, hi) := typeLimits type
        let (c, r) := clampInt lo hi n
        some (BitVec.ofInt 64 c, r)

/-- R131: the raw number of a source: the field of the item's bits, signed or unsigned, INVERT applied to width 1. -/
def rawOf (d : List Word) (bits : Nat) : Int :=
  let w := bWidth d
  let x := nfld bits (bOff d) w
  let x := if bInvert d ∧ w = 1 then 1 - x else x
  if bSigned d then sext w x else x

/-- R131: × SCALE + OFFSET in binary64, with LINEAR; an output binding takes the same step on its way from VALUE to the field. -/
def linear (d : List Word) (x : Fv) : Fv :=
  if bLinear d then r64 (fadd (r64 (fmul (r64 x) (bScale d))) (bOffset d)) else x

/-- R131 in reverse: the destination field of a value, and RANGE. A NaN gives 0. -/
def toField (d : List Word) (type : Nat) (v : Dword) : Nat × Bool :=
  let w := bWidth d
  let top : Int := 2 ^ w - 1
  let (n, r) : Int × Bool :=
    match linear d (valueFv type v) with
    | .nan => (0, true)
    | .inf neg => (if neg then 0 else top, true)
    | .fin neg m e => clampInt 0 top (roundAway neg m e)
  (if bInvert d ∧ w = 1 then 1 - n.toNat else n.toNat, r)

/-- R552: a field written into a payload of bytes; the bits beyond the payload are not written. -/
def fieldInto (d : List Word) (x : Nat) (l : List Byte) : List Byte :=
  let bits := 8 * l.length
  let w := min (bWidth d) (bits - bOff d)
  leBytes l.length (putBits (leNat l) (bOff d) w x)

/-- The writes that the engine's queue holds (R125): 1,024 at most. -/
def Half.inQueue (m : Half) : List PWrite := m.ptab.queue.take 1024

/-- The writes of writers that have found the queue full and wait for a free entry (R125). -/
def Half.inWait (m : Half) : List PWrite := m.ptab.queue.drop 1024

/-- A write joins the engine's queue, or waits for a free entry of it, behind those that wait already (R125). -/
def Half.enqueue (m : Half) (w : PWrite) : Half := m.updP (fun p => { p with queue := p.queue ++ [w] })

/-- The stamp of hardware sources: LOCAL (R73). -/
def localStamp : Stamp := 0

/-- The level at which a source binding writes: its LEVEL for a commandable target; none for another (Table 4.5). -/
def Half.sourceLevel (m : Half) (d : List Word) : Nat := if m.commandable (bPoint d) then bLevel d else 16

/-- SOURCE_BINDING_WRITE (R131): source binding b presents a number, with the instant its source reports and further quality
bits. A NaN writes no value and sets RANGE as a change of quality. -/
def Half.presentFv (m : Half) (y : View) (b : Nat) (x : Fv) (time : Dword) (extra : Byte) : Half :=
  let d := m.srcDesc b
  if !bEn d then m
  else
    match toType (recType (m.pt (bPoint d))) x with
    | none => m.pointFlag y (bPoint d) 4 true
    | some (v, r) =>
      (m.updP (fun p => { p with srcLast := sput p.srcLast b m.up })).enqueue
        ⟨bPoint d, m.sourceLevel d, false, false, v, some time, localStamp, .source b r extra⟩

/-- SOURCE_BINDING_WRITE (R131) of the bits of a source item. -/
def Half.present (m : Half) (y : View) (b bits : Nat) (time : Dword) : Half :=
  m.presentFv y b (linear (m.srcDesc b) (fint (rawOf (m.srcDesc b) bits))) time 0

/-- Each of a list of source bindings presents the bits of an item. -/
def Half.presentAll (m : Half) (y : View) (bits : Nat) (time : Dword) : List Nat → Half
  | [] => m
  | b :: bs => (m.present y b bits time).presentAll y bits time bs

end Sys2Proof.Machine
end

