-- ==== Sys2Proof/Machine/Drive.lean ====
section
/-! DEFINITION. What drives the outside world: the UIO output stages (R284, R290, R291), CAN requests (R313), serial slots
(R329), DALI transactions (R333 to R335), Ethernet and Merzin templates (R137, R353), and the output bindings that call
them (R25, R125, R131). -/
namespace Sys2Proof.Machine

/-- What a terminal holds at reset. -/
def termReset : Term := ⟨false, 0, none, none, none, 0, none, 0, 0, false, 0x400000, 0, none, 0, none, none, none, none⟩

/-- A terminal, 0 to 255. -/
def Half.term (m : Half) (t : Nat) : Term := sget termReset m.uio.terms t

/-- Changes a terminal. -/
def Half.updTerm (m : Half) (t : Nat) (f : Term → Term) : Half :=
  { m with uio := { m.uio with terms := sset termReset m.uio.terms t (f (m.term t)) } }

/-- MODE of a terminal (Table 11.1). -/
def Half.uioMode (m : Half) (t : Nat) : Nat := m.rdF (rUiogMode (t / 16) (t % 16)) 0 4

/-- The terminal is in an output mode and past its settling. -/
def Half.isOutput (m : Half) (t : Nat) : Bool :=
  let k := m.uioMode t
  (decide (k = 8) || decide (k = 9) || decide (k = 10)) && !(m.term t).settling

/-- The highest drive code of a mode (R290). -/
def modeTop (mode : Nat) : Nat := if mode = 8 then 10500 else if mode = 9 then 24000 else if mode = 10 then 1 else 0

/-- R290: the code that the stage held when the present millisecond began. -/
def Half.slewFrom (m : Half) (t : Nat) : Nat :=
  match (m.term t).slew with
  | some (ms, c) => if ms = m.up / oneMs then c else m.rdN (rUiogDrv (t / 16) (t % 16))
  | none => m.rdN (rUiogDrv (t / 16) (t % 16))

/-- R290: the code as the output stage applies it, and whether any clamp acted: to LIMLO and LIMHI, then to RATE code units of change in
a millisecond, then to the mode's range. -/
def Half.limitDrive (m : Half) (t code : Nat) : Nat × Bool :=
  let g := t / 16
  let n := t % 16
  let old := m.slewFrom t
  let a := min (max code (m.rdN (rUiogLimlo g n))) (m.rdN (rUiogLimhi g n))
  let rate := m.rdN (rUiogRate g n)
  let b := if rate = 0 then a else if old ≤ a then min a (old + rate) else max a (old - rate)
  let c := min b (modeTop (m.uioMode t))
  (c, decide (a ≠ code) || decide (b ≠ a) || decide (c ≠ b))

/-- The enabled source bindings of a terminal's quantity (R289). -/
def Half.uioSources (m : Half) (t q : Nat) : List Nat :=
  m.sources (fun d => decide (bKind d = 1) && decide (bByte d 8 = t) && decide (bByte d 9 = q))

/-- STAT.FAULT of a terminal. -/
def Half.uioFault (m : Half) (t : Nat) : Nat := m.rdF (rUiogTstat (t / 16) (t % 16)) 4 4

/-- TERMINAL_FAULT (R288): a fault begins, or another takes its place; or it clears, which the next sample records. -/
def Half.setFault (m : Half) (y : View) (t code : Nat) : Half :=
  let g := t / 16
  let n := t % 16
  let old := m.uioFault t
  let m1 := (m.wrF (rUiogTstat g n) 4 4 code).wrB (rUiogFault g) n (decide (code ≠ 0))
  if code ≠ 0 ∧ code ≠ old then
    let m2 := ((m1.updTerm t (fun x => { x with faultAt := m.up, healed := none })).irq (0x050 + g) 0).ev 0x0D01 t code (m.uioMode t)
      (m.rdN (rUiogVal g n))
    m2.pointFlags y 5 true (m2.sourcePoints (fun d => decide (bKind d = 1) && decide (bByte d 8 = t)))
  else if old ≠ 0 ∧ code = 0 then m1.updTerm t (fun x => { x with healed := some (old, (m.up - x.faultAt) / oneMs) })
  else m1

/-- R288: the first sample after a fault has cleared records event 0x0D02. -/
def Half.recordHealed (m : Half) (t : Nat) : Half :=
  match (m.term t).healed with
  | some (code, ms) => (m.updTerm t (fun x => { x with healed := none })).ev 0x0D02 t code ms 0
  | none => m

/-- The applied code of a terminal, with its primary value (Table 11.1). -/
def Half.setDrv (m : Half) (t code : Nat) : Half :=
  ((m.updTerm t (fun x => { x with slew := some (m.up / oneMs, m.slewFrom t) })).wrN (rUiogDrv (t / 16) (t % 16)) code).wrN (rUiogVal (t / 16) (t % 16)) code

/-- R290, R291: the output stage takes a drive code: it replaces a pulse, is limited and applied, and a clamp sets RANGE on
its point. A pulse width other than 0 starts a STRIKE_PULSE, which carries its pair; a pulse with the pair of the terminal's last one is a
repeat, and dropped (R150). A drive of 0 ends the trips of an OD switch. Before the first lease grant of a start drives are held for that
grant (R525), under owner 32. -/
def Half.driveNow (m : Half) (y : View) (t : Nat) (code : Word) (width : Nat) (point : Option Nat) (range : Bool)
    (pair : Option (Word × Nat)) : Half :=
  if !m.isOutput t then m
  else if y.start then { m with uio := { m.uio with held := m.uio.held ++ [⟨t, code, width, 32, point, range, pair⟩] } }
  else if pair.isSome ∧ (m.term t).pair = pair then m
  else
    let (c, clamp) := m.limitDrive t code.toNat
    let m1 := (m.updTerm t (fun x =>
      { x with cmd := code, src := point, pulse := (if width = 0 then none else some (m.up, width)), pair := pair.or x.pair })).setDrv t c
    let m2 := if c = 0 ∧ m.uioMode t = 10 then
        (m1.updTerm t (fun x => { x with trips := 0, offAt := none })).setFault y t 0
      else m1
    match point with
    | some i => m2.pointFlag y i 4 (range || clamp)
    | none => m2

/-- R148, R297: a drive that a sheaf holds waits for the release instant, in place of an earlier one for its terminal;
any other is applied at once. -/
def Half.uioDrive (m : Half) (y : View) (t : Nat) (code : Word) (width : Nat) (point : Option Nat) (range : Bool)
    (pair : Option (Word × Nat)) : Half :=
  match m.uio.hold with
  | some o =>
    { m with uio := { m.uio with held := m.uio.held ++ [⟨t, code, width, o, point, range, pair⟩] } }
  | none => m.driveNow y t code width point range pair

/-- Applies a list of held drives in order. -/
def Half.driveAll (m : Half) (y : View) : List Held → Half
  | [] => m
  | x :: xs => (m.driveNow y x.term x.code x.pulse x.point x.range x.pair).driveAll y xs

/-- R148: the release instant: every drive held by an owner is released, in action order. -/
def Half.releaseHeld (m : Half) (y : View) (owner : Nat) : Half :=
  let go := m.uio.held.filter (fun x => decide (x.owner = owner))
  let stay := m.uio.held.filter (fun x => decide (x.owner ≠ owner))
  ({ m with uio := { m.uio with held := stay, hold := none } }).driveAll y go

/-- The KIND of a slot's output records (YOKE.LAST_MISMATCH): a Drill period, a Tiller sample, or another sheaf. -/
def Slot.recKind (x : Slot) : Nat := if 8 ≤ x.owner ∧ x.owner ≤ 15 then 1 else if x.owner = 16 then 2 else 3

/-- R20, R151: the half produces output records: they wait for the output stage's comparison. -/
def Half.produce (m : Half) (l : List OutRec) : Half := { m with outRecs := m.outRecs ++ l }

/-- R151: the release records of slot i: the drives it holds, by terminal, for the epoch of its sheaf sequence. -/
def Half.releaseRecs (m : Half) (i : Nat) (seq : Word) : List OutRec :=
  (m.uio.held.filter (fun x => decide (x.owner = i))).map (fun x =>
    ⟨seq.toNat, (m.slot i).recKind, false, x.term, dword x.code (word x.pulse)⟩)

/-- R151: the outcome record of slot i in the epoch of a sheaf sequence: 3 COMMITTED, or 5 ABORTED with its reason above it. It names no
terminal, and carries 0xFFFF in a terminal's place (DESIGN CHOICE, log entry 69). -/
def Half.outcomeRec (m : Half) (i : Nat) (seq value : Nat) : OutRec := ⟨seq, (m.slot i).recKind, false, 0xFFFF, BitVec.ofNat 64 value⟩

/-- A CAN controller at reset. -/
def canReset : CanSt := ⟨[], [], 0, 0, 0, false, false, 0, 0, 0, false, none, 0, [], [], false⟩

/-- A CAN controller. -/
def Half.canOf (m : Half) (c : Nat) : CanSt := sget canReset m.can c

/-- Changes a CAN controller. -/
def Half.updCan (m : Half) (c : Nat) (f : CanSt → CanSt) : Half :=
  { m with can := sset canReset m.can c (f (m.canOf c)) }

/-- Reset value of word w of object o (Table 12.1), at index o × 20 + w. -/
def canWordReset (i : Nat) : Word :=
  let o := i / 20
  if i % 20 = 0 then (if 2048 ≤ o then 0x02000000 else 0)
  else if i % 20 = 1 then word o
  else 0

/-- Word w of object o. -/
def CanSt.obj (x : CanSt) (o w : Nat) : Word := sget (canWordReset (o * 20 + w)) x.objs (o * 20 + w)

/-- Writes word w of object o. -/
def CanSt.setWord (x : CanSt) (o w : Nat) (v : Word) : CanSt :=
  { x with objs := sset (canWordReset (o * 20 + w)) x.objs (o * 20 + w) v }

/-- Data bytes 0 to 63 of an object. -/
def CanSt.data (x : CanSt) (o : Nat) : List Byte := (List.range 16).flatMap (fun i => leBytes 4 (x.obj o (4 + i)).toNat)

/-- Writes the data words of an object from its first byte. -/
def CanSt.putData (x : CanSt) (o w : Nat) : List Byte → CanSt
  | a :: b :: c :: d :: l => (x.setWord o w (word (leNat [a, b, c, d]))).putData o (w + 1) l
  | _ => x

/-- Writes bytes into an object's data from an offset; other bytes keep their value. -/
def CanSt.pokeData (x : CanSt) (o off : Nat) (bs : List Byte) : CanSt :=
  let old := x.data o
  x.putData o 4 ((old.take off ++ bs ++ old.drop (off + bs.length)).take 64)

/-- EN of an object. -/
def CanSt.en (x : CanSt) (o : Nat) : Bool := flag (x.obj o 0) 31
/-- DIR of an object: transmit. -/
def CanSt.isTx (x : CanSt) (o : Nat) : Bool := flag (x.obj o 0) 30
/-- TX_PEND of an object. -/
def CanSt.pend (x : CanSt) (o : Nat) : Bool := flag (x.obj o 2) 29

/-- The data length of a DLC (ISO 11898-1): up to 8 bytes in a classical frame. -/
def dlcLen (fd : Bool) (dlc : Nat) : Nat :=
  if dlc ≤ 8 then dlc else if !fd then 8
  else if dlc = 9 then 12 else if dlc = 10 then 16 else if dlc = 11 then 20 else if dlc = 12 then 24
  else if dlc = 13 then 32 else if dlc = 14 then 48 else 64

/-- The frame length of a transmit object. -/
def CanSt.txLen (x : CanSt) (o : Nat) : Nat := dlcLen (flag (x.obj o 0) 29) (fld (x.obj o 0) 16 4)

/-- R313, R314: a transmit request. It is refused for an object that is not an enabled transmit object; to a pending one
it adds nothing. -/
def Half.canRequest (m : Half) (c o : Nat) : Half × Nat :=
  let x := m.canOf c
  if !x.en o || !x.isTx o then (m, 5)
  else if x.pend o then (m, 0)
  else
    let w := putFld (putFlag (putFlag (x.obj o 2) 29 true) 28 false) 0 4 0
    (m.updCan c (fun x => x.setWord o 2 w), 0)

/-- R313: a CAN output binding writes its field into the object's data and requests. -/
def Half.canOut (m : Half) (d : List Word) (x : Nat) : Half :=
  let c := bByte d 8
  let o := bHalf d 9 % 4096
  let s := m.canOf c
  let bs := fieldInto d x ((s.data o).take (s.txLen o))
  ((m.updCan c (fun s => s.pokeData o 0 bs)).canRequest c o).1

/-- The bits of a serial slot, word 0 first (R329). -/
def Half.slotBits (m : Half) (e s : Nat) : Nat :=
  (m.rdN (rSerSlot e s)) + (m.rdN (rSerSlot e s + 4)) * 2 ^ 32 + (m.rdN (rSerSlot e s + 8)) * 2 ^ 64
    + (m.rdN (rSerSlot e s + 12)) * 2 ^ 96

/-- R329: a slot is committed: its four words, and each source binding of the slot presents it. -/
def Half.slotCommit (m : Half) (y : View) (e s : Nat) (ws : List Word) : Half :=
  let m1 := m.wrWords (rSerSlot e s) ws
  m1.presentAll y (m1.slotBits e s) m1.tai
    (m1.sources (fun d => decide (bKind d = 3) && decide (bByte d 8 = e) && decide (bByte d 9 = s)))

/-- R503: a descriptor posted on a serial engine's receive queue; a loss counts in SER.STAT_OVERRUN. -/
def Half.serPost (m : Half) (e type : Nat) (detail payload : List Byte) : Half :=
  if m.rdB (rSerQueue e) 31 then
    match m.post (m.rdF (rSerQueue e) 0 8) type (0x080 + e) m.tai (mkStamp 4 0 (0x28 + e)) detail payload with
    | (m1, true) => m1.irq (0x080 + e) 0
    | (m1, false) => m1.count (rSerCnt e 4) 1 (0x080 + e) 3
  else m

/-- R329: a SER output binding writes its field into the slot, commits it and posts a SER_SLOT descriptor. -/
def Half.serOut (m : Half) (y : View) (b : Nat) (d : List Word) (x : Nat) : Half :=
  let e := bByte d 8
  let s := bByte d 9
  let n := putBits (m.slotBits e s) (bOff d) (min (bWidth d) (128 - bOff d)) x
  let ws := (List.range 4).map (fun i => word (n / 2 ^ (32 * i)))
  (m.slotCommit y e s ws).serPost e 0x06 [BitVec.ofNat 8 e, BitVec.ofNat 8 s, BitVec.ofNat 8 b, BitVec.ofNat 8 (b / 256)] []

/-- A DALI line at reset. -/
def daliReset : DaliSt := ⟨0, [], 0, none, false, 0, false, 0, none, [], false⟩

/-- A DALI line. -/
def Half.daliOf (m : Half) (l : Nat) : DaliSt := sget daliReset m.dali l

/-- Changes a DALI line. -/
def Half.updDali (m : Half) (l : Nat) (f : DaliSt → DaliSt) : Half :=
  { m with dali := sset daliReset m.dali l (f (m.daliOf l)) }

/-- R333: a transaction joins the line's queue of 32, after those of its priority that came before it. -/
def Half.daliPush (m : Half) (l : Nat) (t : DaliTx) : Half × Bool :=
  let x := m.daliOf l
  if 32 ≤ x.q.length then (m, false)
  else
    let last := if t.src = 0 then sput x.last t.who x.order else x.last
    (m.updDali l (fun x => { x with q := x.q ++ [{ t with order := x.order }], order := x.order + 1, last := last }), true)

/-- R335: a DALI output binding writes its field into the template and queues the frame at priority 2, or replaces the data
of its queued frame that has not started. -/
def Half.daliOut (m : Half) (b : Nat) (d : List Word) (x : Nat) : Half :=
  let l := bByte d 8
  let long := decide (bByte d 9 = 1)
  let n := if long then 3 else 2
  let frame := leNat (fieldInto d x [BitVec.ofNat 8 (bByte d 10), BitVec.ofNat 8 (bByte d 11), BitVec.ofNat 8 (bByte d 12)]
    |>.take n)
  let s := m.daliOf l
  if s.q.any (fun t => decide (t.src = 2) && decide (t.who = b)) then
    m.updDali l (fun s => { s with q := s.q.map (fun t => if t.src = 2 ∧ t.who = b then { t with frame := frame } else t) })
  else (m.daliPush l ⟨frame, long, false, (bByte d 13).testBit 0, 2, 0, 2, b, 0⟩).1

/-- A frame template (R137). -/
def Half.template (m : Half) (i : Nat) : Template := sget ⟨[], 0, none, 0, 0, 0⟩ m.tmpl i

/-- Bytes put into a list from an offset, within its length. -/
def bytesInto (off : Nat) (bs l : List Byte) : List Byte := (l.take off ++ bs ++ l.drop (off + bs.length)).take l.length

/-- A template's bytes with its 8 variable bytes and, where it names a place, the sheaf pair (R137, R150). -/
def Template.fill (t : Template) (value : Dword) (seq : Word) (idx : Nat) : List Byte :=
  let l := bytesInto t.varAt (leBytes 8 value.toNat) t.bytes
  match t.pairAt with
  | some o => bytesInto o (leBytes 4 seq.toNat ++ [BitVec.ofNat 8 idx]) l
  | none => l

/-- R353: a FLD output binding sends the template with its field written. -/
def Half.fldOut (m : Half) (d : List Word) (x : Nat) : Half :=
  let t := m.template (bHalf d 9 % 1024)
  let off := bHalf d 11
  let bs := t.bytes.take off ++ fieldInto d x (t.bytes.drop off)
  m.ethQueue (0x10 + bByte d 8 % 8) (.raw bs) none none

/-- A MERZIN_WRITE output binding sends a POINT_WRITE frame at its LEVEL to its module and point (Table 4.5, Table 15.4). -/
def Half.mzOut (m : Half) (y : View) (d : List Word) (v : Dword) : Half :=
  m.mzSendPoint y (bPoint d) (bHalf d 8) 0x13 0x13 peerStamp
    (leBytes 2 (bHalf d 10) ++ [BitVec.ofNat 8 (bLevel d), 0] ++ leBytes 8 v.toNat)

/-- What an output binding has issued at reset: nothing. -/
def outReset : OutState := ⟨none, 0, false⟩

/-- What an output binding has issued. -/
def Half.outOf (m : Half) (b : Nat) : OutState := sget outReset m.ptab.out b

/-- Writes what an output binding has issued. -/
def Half.setOut (m : Half) (b : Nat) (x : OutState) : Half := m.updP (fun p => { p with out := sset outReset p.out b x })

/-- The 64-bit value a MERZIN_WRITE carries: the destination field of the point's value in its place (R131). -/
def mzValue (d : List Word) (type : Nat) (v : Dword) : Dword × Bool :=
  let (x, r) := toField d type v
  (BitVec.ofNat 64 (putBits 0 (bOff d) (bWidth d) x), r)

/-- OUTPUT_BINDING_DRIVE (R25, R125): output binding b issues its drive or send with the resolved value of its point as it
stands. A CAN frame that a reflex has just sent for the binding is not sent a second time (R296). -/
def Half.outIssue (m : Half) (y : View) (b : Nat) : Half :=
  let d := m.outDesc b
  let i := bPoint d
  let r := m.pt i
  let (x, rng) := toField d (recType r) r.value
  let m0 := m.setOut b ⟨some r.value, m.up, false⟩
  if bKind d = 1 then m0.uioDrive y (bByte d 8) (word (nfld (putBits 0 (bOff d) (bWidth d) x) 0 24)) 0 (some i) rng none
  else if bKind d = 2 then
    if sfind m.uio.rfxSent b = some (word x) then
      { m0 with uio := { m0.uio with rfxSent := sdel m0.uio.rfxSent b } }
    else
      let m1 := { m0 with uio := { m0.uio with rfxSent := sdel m0.uio.rfxSent b } }
      (m1.canOut d x).pointFlag y i 4 rng
  else if bKind d = 3 then (m0.serOut y b d x).pointFlag y i 4 rng
  else if bKind d = 4 then (m0.daliOut b d x).pointFlag y i 4 rng
  else if bKind d = 5 then (m0.fldOut d x).pointFlag y i 4 rng
  else if bKind d = 6 then
    let (v, rng) := mzValue d (recType r) r.value
    (m0.mzOut y d v).pointFlag y i 4 rng
  else m

/-- R25, R125: the resolved value or level of a point has changed: its enabled output binding issues, or waits for the end
of its repeat interval. -/
def Half.outEvaluate (m : Half) (y : View) (i : Nat) : Half :=
  let b := (m.prio i).outb
  if !m.commandable i || decide (b = 0xFFFF) || !bEn (m.outDesc b) then m
  else
    let o := m.outOf b
    let span := bTiming (m.outDesc b) * oneMs
    if span ≠ 0 ∧ o.lastRaw.isSome ∧ m.up < o.lastAt + span then m.setOut b { o with wait := true }
    else m.outIssue y b

/-- R125: at the end of the repeat interval a waiting binding issues once, unless the resolved value is the one last issued. -/
def Half.outIntervalEnd (m : Half) (y : View) (b : Nat) : Half :=
  let o := m.outOf b
  if !o.wait ∨ m.up < o.lastAt + bTiming (m.outDesc b) * oneMs then m
  else if o.lastRaw = some (m.pt (bPoint (m.outDesc b))).value then m.setOut b { o with wait := false }
  else m.outIssue y b

end Sys2Proof.Machine
end

