-- ==== Sys2Proof/Machine/GrnBase.lean ====
section
/-! DEFINITION. Pages of the granary's volatile array (R430), internal commits of the blocks (R434, R435), and the force
region (R180). -/
namespace Sys2Proof.Machine

/-- The bytes of a granary page (R430). -/
def Half.gPage (m : Half) (p : Nat) : List Byte := (List.range 64).map (fun i => sget 0 m.grn.array (p * 64 + i))

/-- Writes bytes of the volatile array from a byte offset. -/
def Half.gPut (m : Half) (off : Nat) (bs : List Byte) : Half :=
  { m with grn := { m.grn with array := memPut m.grn.array off bs } }

/-- Several pages written by one commit (R435): all of them in one step. -/
def Half.gPutPages (m : Half) : List (Nat × List Byte) → Half
  | [] => m
  | (p, bs) :: l => (m.gPut (p * 64) bs).gPutPages l

/-- OWNER of a page in the configured allocation map (R431). -/
def Half.gOwner (m : Half) (p : Nat) : Nat := (sget 0 m.grn.cfgMap p).toNat % 16

/-- CLASS of a page in the configured allocation map (R431). -/
def Half.gClass (m : Half) (p : Nat) : Nat := (sget 0 m.grn.cfgMap p).toNat / 16

/-- R434: an internal commit of a block with an owner code may write a user page: it is allocated to that owner, and the
granary is not frozen. -/
def Half.gMay (m : Half) (owner p : Nat) : Bool :=
  !m.grn.frozen && decide (32 ≤ p) && decide (p < 256) && decide (m.gClass p ≠ 0) && decide (m.gOwner p = owner)

/-- R180: the twelve bytes of a force entry: key word and forced value; KIND 0 for a free entry. -/
def forceBytes (f : Option Force) : List Byte :=
  match f with
  | none => List.replicate 12 0
  | some f =>
    leBytes 4 (f.kind * 2 ^ 30 + f.persist.toNat * 2 ^ 29 + f.bit * 2 ^ 16 + f.addr) ++ leBytes 8 f.value.toNat

/-- R180: the granary page of force entry k. -/
def Half.forcePage (m : Half) (k : Nat) : Nat := m.rdF rDrlcFrcBase 0 8 + k / 5

/-- R180, R434: the granary would take a commit of force entry k's page. -/
def Half.forceMay (m : Half) (k : Nat) : Bool := m.gMay 3 (m.forcePage k)

/-- R180: force entry k is set or freed, with its granary page; none where the granary refuses the commit. -/
def Half.putForce (m : Half) (k : Nat) (f : Option Force) : Option Half :=
  if m.forceMay k then
    let m1 := m.gPut (m.forcePage k * 64 + k % 5 * 12) (forceBytes f)
    some (m1.updP (fun p => { p with forces := match f with | some x => sput p.forces k x | none => sdel p.forces k }))
  else none

end Sys2Proof.Machine
end

