-- ==== Sys2Proof/Machine/Sram.lean ====
section
/-! DEFINITION. SRAM under its symbol code (R15, R518): lines that hold an uncorrectable error, what meets one, and the policy cores' state
(R475). -/
namespace Sys2Proof.Machine

/-- Changes the health monitors. -/
def Half.updH (m : Half) (f : HlthSt → HlthSt) : Half := { m with hlth := f m.hlth }

/-- A policy core at reset: the manual names RV64IMAC with machine and supervisor modes and gives no reset values. (PRESUMED, log
entry 77: RISC-V starts in machine mode; the reset address is 0 by choice.) -/
def coreReset : PolicyCore := ⟨0, false, [], []⟩

/-- A policy core. -/
def Half.core (m : Half) (c : Nat) : PolicyCore := sget coreReset m.cores c

/-- Changes a policy core. -/
def Half.updCore (m : Half) (c : Nat) (f : PolicyCore → PolicyCore) : Half :=
  { m with cores := sset coreReset m.cores c (f (m.core c)) }

/-- A control and status register of a core. -/
def PolicyCore.get (x : PolicyCore) (k : Nat) : Dword := sget 0 x.csr k

/-- An integer register: x0 reads 0. -/
def PolicyCore.reg (x : PolicyCore) (r : Nat) : Dword := if r = 0 then 0 else sget 0 x.x r

/-- Writes control and status registers of a core. -/
def PolicyCore.put (x : PolicyCore) (l : List (Nat × Dword)) : PolicyCore := { x with csr := l.foldl (fun a e => sset 0 a e.1 e.2) x.csr }

/-- A core takes a synchronous exception (PRESUMED, log entry 77: the RISC-V privileged architecture, which R475 names): in machine mode
mepc, mcause, mtval and mstatus take the pc, the cause, the address, and MPP, MPIE and MIE, and the pc goes to mtvec; an exception of
supervisor mode that medeleg delegates goes to sepc, scause, stval and stvec. -/
def PolicyCore.trap (x : PolicyCore) (cause : Nat) (tval : Dword) : PolicyCore :=
  let st := (x.get 0x300).toNat
  let bit (n : Nat) : Nat := nfld st n 1
  let vec (k : Nat) : Dword := x.get k - BitVec.ofNat 64 (nfld (x.get k).toNat 0 2)
  if x.sup ∧ (x.get 0x302).toNat.testBit cause then
    let st1 := putBits (putBits (putBits st 8 1 1) 5 1 (bit 1)) 1 1 0
    { x.put [(0x141, x.pc), (0x142, BitVec.ofNat 64 cause), (0x143, tval), (0x300, BitVec.ofNat 64 st1)] with pc := vec 0x105 }
  else
    let st1 := putBits (putBits (putBits st 11 2 (if x.sup then 1 else 3)) 7 1 (bit 3)) 3 1 0
    { x.put [(0x341, x.pc), (0x342, BitVec.ofNat 64 cause), (0x343, tval), (0x300, BitVec.ofNat 64 st1)] with
      pc := vec 0x305, sup := false }

/-- A line's error is gone: its data have been corrected or written anew. -/
def Half.scHealed (m : Half) (line : Nat) : Half := m.updH (fun x => { x with bad := sdel x.bad line })

/-- An uncorrectable symbol-code error is met at a line (R518): it stays there, and PG_STAT.FAULT of HLTH becomes 1. -/
def Half.scUncorrectable (m : Half) (line symbol : Nat) : Half :=
  let m1 := ((m.stick rHlthScUncorr 1).wrN rHlthScAddr (2 ^ 31 + line * 16)).wrN rHlthScSym (symbol % 64)
  let m2 := m1.setPage 0x006 { m1.page 0x006 with fault := true }
  ((m2.updH (fun x => { x with uncorr := true, bad := sput x.bad line (symbol % 64) })).irq 0x006 3).ev 0x1304 (halfNum m.self) (line * 16)
    (symbol % 64) (m1.rdN rHlthScUncorr)

/-- The address lies in a region of Table 2.1 that SRAM holds (Table 1.3). -/
def sramAddr (addr : Nat) : Bool :=
  [(0x50000000, 0x50200000), (0x52000000, 0x52100000), (0x54000000, 0x543E0000), (0x58000000, 0x58080000), (0x58100000, 0x58180000),
   (0x5E000000, 0x5E200000)].any (fun e => decide (e.1 ≤ addr) && decide (addr < e.2))

/-- The line at an address that holds an uncorrectable error, with its first bad symbol. -/
def Half.badLine (m : Half) (addr : Nat) : Option (Nat × Nat) :=
  if m.hlth.bad.isEmpty || !sramAddr addr then none
  else (sfind m.hlth.bad (Config.sramLine addr)).map (fun y => (Config.sramLine addr, y))

/-- R118, R518: a record verifies: CHECK is right, and neither line of it holds an uncorrectable error. -/
def Half.recOk (m : Half) (i : Nat) : Bool :=
  decide ((m.pt i).check = recCheck (m.pt i)) && (m.badLine (0x50000000 + 32 * i)).isNone && (m.badLine (0x50000010 + 32 * i)).isNone

/-- R518: a hardware reader meets the lines of a record; the record will be written anew, which puts good data into them. -/
def Half.recMeet (m : Half) (i : Nat) : Half :=
  ((m.badLine (0x50000000 + 32 * i)).toList ++ (m.badLine (0x50000010 + 32 * i)).toList).foldl
    (fun m e => (m.scUncorrectable e.1 e.2).scHealed e.1) m

/-- R518: a policy-core load that meets an uncorrectable error takes a load access fault (RISC-V cause 5). -/
def Half.loadFault (m : Half) (c addr : Nat) (e : Nat × Nat) : Half :=
  (m.scUncorrectable e.1 e.2).updCore c (fun x => x.trap 5 (BitVec.ofNat 64 addr))

end Sys2Proof.Machine
end

