-- ==== Sys2Proof/Machine/Points.lean ====
section
/-! DEFINITION. The point-table engine: applied writes (R113 to R123), submissions (R124), the write queue (R125), and the
commands of the PTAB page (R128, R131, R132, R134, R136). -/
namespace Sys2Proof.Machine

/-- QUALITY after an applied write (Table 4.3): INIT clears, SUBST follows the write, FORCED follows the level, and a source
write clears STALE and COMM_LOST and sets RANGE where its conversion saturated. -/
def writeQuality (q : Byte) (w : PWrite) (level : Nat) : Byte :=
  let q1 := qSet (qSet (qSet q 7 false) 3 w.subst) 2 (decide (level = 0))
  match w.src with
  | .source _ r x => fixGood ((qSet (qSet (qSet q1 1 false) 5 false) 4 r).toNat ||| x.toNat)
  | _ => q1

/-- A record takes its new value, level, time and quality in one step (R120); the point fires, and its output binding
re-evaluates when value or level has changed (R25). -/
def Half.applied (m : Half) (y : View) (i : Nat) (value : Dword) (level : Nat) (time : Dword) (q : Byte) : Half :=
  let r := m.pt i
  let r' := { r with value := value, level := BitVec.ofNat 8 level, time := time, quality := q, seq := r.seq + 1 }
  let m1 := m.putRec i r'
  let m2 := m1.changeOfValue y i r (m1.pt i)
  if r.value ≠ value ∨ r.level ≠ r'.level then m2.outEvaluate y i else m2

/-- PRIORITY_RESOLVE (R120, R114): a commandable point resolves after its priority array or force has changed. DESIGN CHOICE (log
entry 68): a source's write to a commandable point takes the instant of the resolve as its TIME, as R114's second bullet has it, and not the
instant its source reports. -/
def Half.resolve (m : Half) (y : View) (i : Nat) (q : Byte) : Half :=
  let r := m.pt i
  let l := m.activeLevel i
  let v := m.valueAt i l
  m.applied y i v l (if r.value = v ∧ r.level = BitVec.ofNat 8 l then r.time else m.tai) q

/-- A value held at a level of the priority array, which becomes occupied (R121); 17 is the relinquish default. -/
def Half.setLevel (m : Half) (i l : Nat) (v : Dword) : Half :=
  let p := m.prio i
  m.setPrio i { p with vals := sset 0 p.vals l v, occ := if l = 17 then p.occ else insNat p.occ l }

/-- A level becomes unoccupied (R121). -/
def Half.clearLevel (m : Half) (i l : Nat) : Half :=
  let p := m.prio i
  m.setPrio i { p with vals := sset 0 p.vals l 0, occ := p.occ.filter (fun x => decide (x ≠ l)) }

/-- FORCE_ENTER (R123): a write at level 0. -/
def Half.forceEnter (m : Half) (y : View) (w : PWrite) (v : Dword) : Half × Nat :=
  let i := w.point
  let r := m.pt i
  let go (k : Nat) (f : Force) : Half × Nat :=
    match m.putForce k (some f) with
    | none => (m, 5)
    | some m1 =>
      let q := writeQuality r.quality w 0
      let m2 := (m1.forceChanged).ev 0x0804 i w.stamp.toNat (v.toNat % 2 ^ 32) (v.toNat / 2 ^ 32)
      (if m2.commandable i then m2.resolve y i q else m2.applied y i v 0 m2.tai q, 0)
  match m.forceOf i with
  | some (k, f) => go k { f with value := v, stamp := w.stamp }
  | none =>
    match m.freeForce with
    | none => (m.ev 0x0806 i w.stamp.toNat 256 0, 12)
    | some k => go k ⟨3, false, 0, i, v, w.stamp, m.up, r.value, r.time, qSet r.quality 7 false⟩

/-- R123: a relinquish at level 0 releases the force: a commandable point resolves again, another takes the underlying
value with its time and quality. -/
def Half.forceLeave (m : Half) (y : View) (w : PWrite) : Half × Nat :=
  let i := w.point
  match m.forceOf i with
  | none => (m, 0)
  | some (k, f) =>
    match m.putForce k none with
    | none => (m, 5)
    | some m1 =>
      let m2 := (m1.forceChanged).ev 0x0805 i w.stamp.toNat (m.forcedFor f) 0
      let r := m2.pt i
      (if m2.commandable i then m2.resolve y i (writeQuality r.quality w (m2.activeLevel i))
       else m2.applied y i f.uValue 17 f.uTime (qSet (qSet f.uQual 2 false) 7 false), 0)

/-- A write or relinquish of a commandable point at levels 1 to 17 (R121). -/
def Half.writeCmd (m : Half) (y : View) (w : PWrite) (v : Dword) : Half × Nat :=
  let i := w.point
  if w.relinq then
    if w.level = 17 then (m, 5)
    else if w.level ∉ (m.prio i).occ then (m, 0)
    else
      let m1 := m.clearLevel i w.level
      (m1.resolve y i (writeQuality (m.pt i).quality w (m1.activeLevel i)), 0)
  else
    let m1 := m.setLevel i w.level v
    (m1.resolve y i (writeQuality (m.pt i).quality w (m1.activeLevel i)), 0)

/-- The write comes from the point's own source binding. -/
def PWrite.fromSource (w : PWrite) : Bool :=
  match w.src with
  | .source _ _ _ => true
  | _ => false

/-- The record of a forced point when a write goes to its underlying value (R123): the write is applied (R117), INIT clears,
and a source write clears STALE and COMM_LOST (Table 4.3). -/
def Half.underApplied (m : Half) (y : View) (i : Nat) (source : Bool) : Half :=
  let r := m.pt i
  let q := qSet r.quality 7 false
  let m1 := m.putRec i { r with quality := if source then qSet (qSet q 1 false) 5 false else q, seq := r.seq + 1 }
  m1.changeOfValue y i r (m1.pt i)

/-- A write of a point that is not commandable, at levels 1 to 17 (R122); while the point is forced it goes to the
underlying value (R123). -/
def Half.writePlain (m : Half) (y : View) (w : PWrite) (v : Dword) : Half × Nat :=
  let i := w.point
  let r := m.pt i
  if w.relinq ∨ w.level = 17 then (m, 5)
  else if !w.fromSource ∧ r.srcBind ≠ 0xFFFF then (m, 5)
  else
    let t := w.time.getD m.tai
    match m.forceOf i with
    | some (k, f) =>
      let f' : Force := { f with uValue := v, uTime := t, uQual := writeQuality f.uQual w 17 }
      ((m.updP (fun p => { p with forces := sput p.forces k f' })).underApplied y i w.fromSource, 0)
    | none => (m.applied y i v 17 t (writeQuality r.quality w 17), 0)

/-- POINT_WRITE_APPLY (R113, R120 to R123): one write, after the Fence; the status of Table 3.7. -/
def Half.applyWrite (m : Half) (y : View) (w : PWrite) : Half × Nat :=
  let i := w.point
  let r := m.pt i
  if !m.configured i then (m, 6)
  else if 17 < w.level then (m, 5)
  else
    match (if w.relinq then some 0 else normalise (recType r) w.value) with
    | none => (m, 5)
    | some v =>
      if w.level = 0 then (if w.relinq then m.forceLeave y w else m.forceEnter y w v)
      else if m.commandable i then m.writeCmd y w v
      else m.writePlain y w v

/-- The Fence's answer to a queued write (R81 to R85, R124): a policy core's submission is checked as LOCAL, and a frame of
Merzin or a forwarded request with its own stamp; hardware sources are not checked value by value (R83). -/
def Half.queuedFence (m : Half) (w : PWrite) : Nat :=
  match w.src with
  | .acc _ _ => m.fenceWrite (m.tcOf w.point) w.stamp w.level
  | .merzin => m.fenceWrite (m.tcOf w.point) w.stamp w.level
  | _ => 0

/-- R124: the outcome of an accessor's last submission appears in its own PTAB.WR_STAT. -/
def Half.wrOutcome (m : Half) (w : PWrite) (status : Nat) : Half :=
  match w.src with
  | .acc a n =>
    if (m.acc a).wrSeq = n then
      m.setView a rPtabWrStat (word ((m.pt w.point).seq.toNat * 2 ^ 16 + status))
    else m
  | _ => m

/-- One queued write: the Fence, the engine, and the submitter's status. -/
def Half.runWrite (m : Half) (y : View) (w : PWrite) : Half × Nat :=
  let f := m.queuedFence w
  if f ≠ 0 then
    (((match w.src with
      | .acc _ _ => m.fenceRefused w.stamp (pointAddr m.addr w.point) f
      | .merzin => m.fenceRefused w.stamp (pointAddr m.addr w.point) f
      | _ => m).wrOutcome w f), f)
  else
    let (m1, st) := m.applyWrite y w
    (m1.wrOutcome w st, st)

/-- POINT_WRITE_APPLY (R125): the engine applies the oldest queued write. -/
def Half.applyNext (m : Half) (y : View) : Half :=
  match m.ptab.queue with
  | [] => m
  | w :: ws => ((m.updP (fun p => { p with queue := ws })).runWrite y w).1

/-- Applies the n oldest queued writes in order (R22). -/
def Half.applyMany (m : Half) (y : View) : Nat → Half
  | 0 => m
  | n + 1 => (m.applyNext y).applyMany y n

/-- R22: every write that has reached the engine before now is applied. -/
def Half.drain (m : Half) (y : View) : Half := m.applyMany y m.ptab.queue.length

/-- R118: a record that does not verify: it is counted, and copied from the other half or rewritten as INIT, a change of quality that SEQ
counts (R117). The record as it then stands may fire change of value (R127), and its output binding re-evaluates where value or level has
changed (R25). -/
def Half.mendRec (m : Half) (y : View) (i : Nat) (copy : Option PointRec) : Half :=
  let r := m.pt i
  let m1 := (m.stick rPtabCheckCnt 1).irq 0x020 0
  let m2 := if !m1.rdB rPtabCtrl 1 || m1.passed m1.ptab.checkAt oneSec then
      (m1.updP (fun p => { p with checkAt := some m1.up })).ev 0x0803 i copy.isSome.toNat (m1.rdN rPtabCheckCnt) 0
    else m1
  let m3 := match copy with
    | some c => m2.putRaw i c
    | none => m2.putRec i { r with value := 0, time := 0, quality := 0x80, seq := if r.quality = 0x80 then r.seq else r.seq + 1 }
  let n := m3.pt i
  let m4 := m3.changeOfValue y i r n
  if r.value ≠ n.value ∨ r.level ≠ n.level then m4.outEvaluate y i else m4

/-- RECORD_CHECK_MISMATCH (R118): a reader verifies a record; a mismatch is mended from the other half when it is in charge or
follower and the cross-link is up. -/
def State.mend (s : State) (h : HalfId) (i : Nat) : State :=
  if (s.half h).recOk i then s
  else
    let o := other h
    let copy := if (s.role o = .inCharge ∨ s.role o = .follower) ∧ s.yoke.xup ∧ (s.half o).recOk i then some ((s.half o).pt i) else none
    s.upd h (fun m => (m.recMeet i).mendRec (s.view h) i copy)

/-- Several records are verified. -/
def State.mendAll (s : State) (h : HalfId) : List Nat → State
  | [] => s
  | i :: is => (s.mend h i).mendAll h is

/-- POINT_WRITE_APPLY (R125): the point-table engine verifies the record of the oldest queued write and applies the write. -/
def execPointWriteApply (h : HalfId) (s : State) : Host.Outcome State Fault Refusal :=
  .next (s.onHalf h (fun s =>
    let s1 := match (s.half h).ptab.queue with
      | [] => s
      | w :: _ => s.mend h w.point
    s1.upd h (fun m => m.applyNext (s1.view h))))

/-- REPEAT_INTERVAL_END (R125), with the record it reads verified (R118). -/
def execRepeatIntervalEnd (h : HalfId) (b : Nat) (s : State) : Host.Outcome State Fault Refusal :=
  .next (s.onHalf h (fun s =>
    let s1 := s.mend h (bPoint ((s.half h).outDesc b))
    s1.upd h (fun m => m.outIntervalEnd (s1.view h) b)))

/-- R128: a held notification is sent at the end of its entry's minimum interval. -/
def Half.notifyIntervalEnd (m : Half) (y : View) (e : Nat) : Half :=
  match m.sub? e with
  | some x => if x.held && m.covEn && m.passed x.lastAt x.minNs then m.sendSub y e else m
  | none => m

/-- NOTIFY_INTERVAL_END (R128), with the record it sends verified (R118). -/
def execNotifyIntervalEnd (h : HalfId) (e : Nat) (s : State) : Host.Outcome State Fault Refusal :=
  .next (s.onHalf h (fun s =>
    let s1 := match (s.half h).sub? e with
      | some x => s.mend h x.point
      | none => s
    s1.upd h (fun m => m.notifyIntervalEnd (s1.view h) e)))

/-- Discards every held notification (Table 4.9). -/
def Half.unhold (m : Half) : Half :=
  m.updP (fun p => { p with subs := p.subs.map (fun e => (e.1, { e.2 with held := false })) })

/-- R128: PTAB.CTRL is written. COV_EN going to 0 discards held notifications; going to 1, each reference takes its point's
value and every entry sends one notification, no sooner than its minimum interval after its previous send. -/
def Half.ptabCtrlEff (m : Half) (y : View) (n : Nat) (v : Word) : Half × Nat :=
  let old := m.covEn
  let m1 := m.plainWrite n rPtabCtrl v
  if old && !m1.covEn then (m1.unhold, 0)
  else if !old && m1.covEn then
    let m2 := m1.updP (fun p => { p with covRef := p.covRef.map (fun e => (e.1, (m1.pt e.1).value)) })
    (m2.fireSubs y (m2.ptab.subs.map (·.1)), 0)
  else (m1, 0)

/-- COV_EN_WRITE (R128). -/
def execCovEnWrite (h : HalfId) (r : Req) (v : Word) (s : State) : Host.Outcome State Fault Refusal :=
  .next (s.regCmdV h r rPtabCtrl v (fun y m => m.ptabCtrlEff y (reqNum r) v))

/-- SOURCE_STALE (R131): the stale timeout of a source binding passes without a source write: STALE is set on its point. -/
def Half.sourceStale (m : Half) (y : View) (b : Nat) : Half :=
  let d := m.srcDesc b
  if !bEn d || decide (bTiming d = 0) || (m.pt (bPoint d)).quality.getLsbD 1 then m
  else ((m.pointFlag y (bPoint d) 1 true).irq 0x020 2).ev 0x0807 (bPoint d) b (bTiming d) 0

/-- SOURCE_STALE (R131). -/
def execSourceStale (h : HalfId) (b : Nat) (s : State) : Host.Outcome State Fault Refusal :=
  .next (s.local_ h (fun y m => m.sourceStale y b))

/-- PTAB.STAT (Table 4.9) moves by one configured and, where the point is commandable, one commandable point. -/
def Half.cfgCount (m : Half) (tc : BitVec 16) (i : Nat) (add : Bool) : Half :=
  let c := m.rdF rPtabStat 0 17
  let d := m.rdF rPtabStat 17 15
  let k := if tcCmd tc ∧ i < 0x4000 then 1 else 0
  if add then m.wrN rPtabStat ((d + k) * 2 ^ 17 + (c + 1)) else m.wrN rPtabStat ((d - k) * 2 ^ 17 + (c - 1))

/-- The point PTAB.SEL names. -/
def Half.selPoint (m : Half) : Nat := m.rdF rPtabSel 0 16

/-- PTAB.CMD_STAT takes a command's status, and the code the register write answers: REFUSED and RANGE refuse the write;
NOPOINT is reported in CMD_STAT alone. -/
def Half.cmdStat (m : Half) (status code : Nat) : Half × Nat := (m.wrN rPtabCmdStat status, code)

/-- CONFIGURE (R134). Levels 1 to 16 are cleared; the relinquish default, which no relinquish clears (R121), stays. DESIGN CHOICE (log
entry 68): a force of the point stays, with its value and FORCED, and its underlying value starts again; SEQ is kept for a point that was
configured and counts its change of QUALITY, and a point that was not starts from its zero record (R109) with SEQ counting the change to
INIT (R117). -/
def Half.configure (m : Half) (y : View) (n : Nat) (st : Stamp) : Half × Nat :=
  let i := m.selPoint
  let v := m.view n rPtabCfg
  let tu : BitVec 16 := BitVec.ofNat 16 (fld v 16 16)
  let tc : BitVec 16 := BitVec.ofNat 16 (fld v 0 16 ||| 0x8000)
  let old := m.pt i
  let was := m.configured i
  if 0xFFFF ≤ i then m.cmdStat 6 0
  else if 0xA ≤ fld v 28 4 ∨ (tcCmd tc ∧ 0x4000 ≤ i) then m.cmdStat 5 5
  else if was ∧ !tcCmd tc ∧ (m.prio i).outb ≠ 0xFFFF then m.cmdStat 5 8
  else
    let m0 := m.setPrio i { m.prio i with vals := (m.prio i).vals.filter (fun e => decide (e.1 = 17)), occ := [] }
    let m1 := match m0.forceOf i with
      | none => m0
      | some (k, f) => m0.updP (fun p => { p with forces := sput p.forces k { f with uValue := 0, uTime := 0, uQual := 0x80 } })
    let r : PointRec :=
      { old with
        value := if (m1.forceOf i).isSome then old.value else if tcCmd tc then m1.valueAt i 17 else 0
        time := 0
        typeUnit := tu
        tc := tc
        quality := fixGood (if (m1.forceOf i).isSome then 0x84 else 0x80)
        level := if (m1.forceOf i).isSome then 0 else 17
        srcBind := if was then old.srcBind else 0xFFFF
        cov := if was then old.cov else 0xFFFF0000
        seq := if old.quality ≠ fixGood (if (m1.forceOf i).isSome then 0x84 else 0x80) then old.seq + 1 else old.seq }
    let m2 := m1.putRec i r
    let m3 := if was then (m2.cfgCount old.tc i false).cfgCount tc i true else m2.cfgCount tc i true
    let m4 := m3.changeOfValue y i old (m3.pt i)
    let m5 := if old.value ≠ r.value ∨ old.level ≠ r.level then m4.outEvaluate y i else m4
    (m5.ev 0x0801 i tc.toNat tu.toNat st.toNat).cmdStat 0 0

/-- A reflex binding that is enabled targets the point (R134, R295). -/
def Half.reflexOn (m : Half) (i : Nat) : Bool :=
  m.uio.rfx.any (fun e => flag (e.2.words.getD 0 0) 31 && decide (fld (e.2.words.getD 1 0) 0 16 = i))

/-- DECONFIGURE (R134). -/
def Half.deconfigure (m : Half) (st : Stamp) : Half × Nat :=
  let i := m.selPoint
  let r := m.pt i
  if !m.configured i then m.cmdStat 6 0
  else if r.srcBind ≠ 0xFFFF ∨ (m.prio i).outb ≠ 0xFFFF ∨ (m.forceOf i).isSome ∨ m.reflexOn i then m.cmdStat 5 8
  else
    let m1 := m.freeSubs (m.chain i)
    let m2 := (m1.putRaw i recReset).setPrio i prioReset
    let m3 := m2.updP (fun p => { p with covRef := sdel p.covRef i })
    ((m3.cfgCount r.tc i false).ev 0x0802 i r.tc.toNat st.toNat 0).cmdStat 0 0

/-- RELINQUISH_ALL (R134): levels 1 to 16 are cleared in one write. -/
def Half.relinquishAll (m : Half) (y : View) : Half × Nat :=
  let i := m.selPoint
  if !m.configured i then m.cmdStat 6 0
  else if !m.commandable i then m.cmdStat 5 8
  else
    let p := m.prio i
    if p.occ.isEmpty then m.cmdStat 0 0
    else
      let m1 := m.setPrio i { p with vals := p.vals.filter (fun e => decide (e.1 = 17)), occ := [] }
      (m1.resolve y i (qSet (qSet (qSet (m.pt i).quality 7 false) 3 false) 2 (decide (m1.activeLevel i = 0)))).cmdStat 0 0

/-- PTAB.CMD (Table 4.9). -/
def Half.ptabCmdEff (m : Half) (y : View) (n : Nat) (st : Stamp) (v : Word) : Half × Nat :=
  if fld v 0 4 = 1 then m.configure y n st
  else if fld v 0 4 = 2 then m.deconfigure st
  else if fld v 0 4 = 3 then m.relinquishAll y
  else (m, 5)

/-- CONFIGURE (R134). -/
def execConfigure (h : HalfId) (r : Req) (s : State) : Host.Outcome State Fault Refusal :=
  .next (s.regCmdV h r rPtabCmd 1 (fun y m => m.configure y (reqNum r) (reqStamp r)))

/-- DECONFIGURE (R134). -/
def execDeconfigure (h : HalfId) (r : Req) (s : State) : Host.Outcome State Fault Refusal :=
  .next (s.regCmd h r rPtabCmd 2 (fun m => m.deconfigure (reqStamp r)))

/-- RELINQUISH_ALL (R134). -/
def execRelinquishAll (h : HalfId) (r : Req) (s : State) : Host.Outcome State Fault Refusal :=
  .next (s.regCmdV h r rPtabCmd 3 (fun y m => m.relinquishAll y))

/-- PTAB.CFG is written (R134): the accessor's configuration value, and for a configured point its tenant and class bits. -/
def Half.ptabCfgEff (m : Half) (n : Nat) (st : Stamp) (v : Word) : Half × Nat :=
  let new := v &&& 0xFFFF0FFF
  let m1 := m.setView n rPtabCfg new
  let changed := decide (m.view n rPtabCfg ≠ new)
  let i := m.selPoint
  if !m.configured i then (if changed then m1.gen 0x020 else m1, 0)
  else
    let r := m1.pt i
    let tc : BitVec 16 := (r.tc &&& 0xF800) ||| (BitVec.ofNat 16 (fld v 0 16) &&& 0x07FF)
    let m2 := m1.putRec i { r with tc := tc }
    let m3 := m2.ev 0x0809 i r.tc.toNat tc.toNat st.toNat
    (if changed || decide (r.tc ≠ tc) then m3.gen 0x020 else m3, 0)

/-- PTAB_CFG_WRITE (R134). -/
def execPtabCfgWrite (h : HalfId) (r : Req) (v : Word) (s : State) : Host.Outcome State Fault Refusal :=
  .next (s.regCmd h r rPtabCfg v (fun m => m.ptabCfgEff (reqNum r) (reqStamp r) v))

/-- PTAB.COV is written (R126, R134): the increment of a configured point; refused for another. -/
def Half.ptabCovEff (m : Half) (v : Word) : Half × Nat :=
  let i := m.selPoint
  if !m.configured i then (m, 8)
  else
    let r := m.pt i
    let c := putFld r.cov 0 16 (fld v 0 16)
    let m1 := m.putRec i { r with cov := c }
    (if c ≠ r.cov then m1.gen 0x020 else m1, 0)

/-- PTAB_COV_WRITE (R134). -/
def execPtabCovWrite (h : HalfId) (r : Req) (v : Word) (s : State) : Host.Outcome State Fault Refusal :=
  .next (s.regCmd h r rPtabCov v (fun m => m.ptabCovEff v))

/-- PTAB.CLR (Table 4.8). -/
def Half.ptabClrEff (m : Half) (v : Word) : Half × Nat := (if flag v 0 then m.wrN rPtabCheckCnt 0 else m, 0)

/-- PTAB_CLR (R136). -/
def execPtabClr (h : HalfId) (r : Req) (v : Word) (s : State) : Host.Outcome State Fault Refusal :=
  .next (s.regCmd h r rPtabClr v (fun m => m.ptabClrEff v))

end Sys2Proof.Machine
end

