-- ==== Sys2Proof/Machine/Binding.lean ====
section
/-! DEFINITION. Commits of binding descriptors (R130 to R132, R552) and of reflex bindings (R295, R299), and the writes that
policy cores submit (R124). -/
namespace Sys2Proof.Machine

/-- R132: the class that a source kind is checked against: FIELD, PEER or LOCAL. -/
def sourceClass (kind : Nat) : Nat := if kind = 6 then 5 else if kind = 1 ∨ kind = 7 then 0 else 4

/-- R83: the write rights of a class over a point at a level. -/
def Half.bindMay (m : Half) (cls : Nat) (tc : BitVec 16) (level : Nat) : Bool := m.mayWrite tc (mkStamp cls 0 0) level

/-- SRC_BIND of a point, or its output binding, is set to a descriptor's number. -/
def Half.attach (m : Half) (out : Bool) (i b : Nat) : Half :=
  if out then m.setPrio i { m.prio i with outb := b }
  else m.putRec i { m.pt i with srcBind := BitVec.ofNat 16 b }

/-- The descriptor of a binding. -/
def Half.bindDesc (m : Half) (out : Bool) (b : Nat) : List Word := if out then m.outDesc b else m.srcDesc b

/-- Writes the descriptor of a binding; an empty one is free. -/
def Half.setBindDesc (m : Half) (out : Bool) (b : Nat) (d : List Word) : Half :=
  m.updP (fun p =>
    if out then { p with outB := sset [] p.outB b d, out := sdel p.out b }
    else { p with srcB := sset [] p.srcB b d, srcLast := sdel p.srcLast b })

/-- R130 to R132, R289, R552: the checks of a binding commit: the code of Table 2.10 and the source class that event 0x080A
gives, 0xFF where the Fence check was not reached. DESIGN CHOICE (log entry 46): RANGE for a KIND outside Table 4.5 (R130) and for a
LEVEL that Table 4.5 does not allow, REFUSED for a target point that is not configured. -/
def Half.bindCheck (m : Half) (out : Bool) (b : Nat) (d : List Word) : Nat × Nat :=
  let i := bPoint d
  let cmd := m.commandable i
  let attached := if out then (m.prio i).outb else (m.pt i).srcBind.toNat
  let levelOk := if out then (if bKind d = 6 then decide (1 ≤ bLevel d) && decide (bLevel d ≤ 16) else decide (bLevel d = 0))
    else if cmd then decide (1 ≤ bLevel d) && decide (bLevel d ≤ 16) else decide (bLevel d = 0)
  if bKind d = 0 then (0, 0xFF)
  else if (if out then 6 else 7) < bKind d then (5, 0xFF)
  else if bWidth d = 0 ∨ 64 < bWidth d ∨ 256 < bOff d + bWidth d then (5, 0xFF)
  else if !out ∧ bKind d = 1 ∧ 3 < bByte d 9 then (5, 0xFF)
  else if out ∧ !cmd then (5, 0xFF)
  else if !m.configured i then (8, 0xFF)
  else if !levelOk then (5, 0xFF)
  else if attached ≠ 0xFFFF ∧ attached ≠ b then (8, 0xFF)
  else if out then (0, 0xFF)
  else
    let c := sourceClass (bKind d)
    if m.bindMay c (m.pt i).tc (if cmd then bLevel d else 16) then (0, c) else (8, c)

/-- What a reflex binding holds at reset. -/
def reflexReset : Reflex := ⟨[], none⟩

/-- A reflex binding. -/
def Half.reflex (m : Half) (k : Nat) : Reflex := sget reflexReset m.uio.rfx k

/-- Writes a reflex binding. -/
def Half.setReflex (m : Half) (k : Nat) (x : Reflex) : Half :=
  { m with uio := { m.uio with rfx := sset reflexReset m.uio.rfx k x } }

/-- EN of a reflex binding. -/
def rEn (w : List Word) : Bool := flag (w.getD 0 0) 31
/-- FOLLOW. -/
def rFollow (w : List Word) : Bool := flag (w.getD 0 0) 30
/-- EDGE. -/
def rEdge (w : List Word) : Nat := fld (w.getD 0 0) 28 2
/-- SRC_KIND. -/
def rKind (w : List Word) : Nat := fld (w.getD 0 0) 24 4
/-- LEVEL. -/
def rLevel (w : List Word) : Nat := fld (w.getD 0 0) 16 5
/-- SOURCE. -/
def rSource (w : List Word) : Nat := fld (w.getD 0 0) 0 16
/-- POINT. -/
def rPoint (w : List Word) : Nat := fld (w.getD 1 0) 0 16
/-- VALUE. -/
def rValue (w : List Word) : Dword := dword (w.getD 2 0) (w.getD 3 0)

/-- The output binding of a point, where it is of KIND UIO or CAN (R295). -/
def Half.reflexOut (m : Half) (i : Nat) : Option (List Word) :=
  let b := (m.prio i).outb
  let d := m.outDesc b
  if m.commandable i ∧ b ≠ 0xFFFF ∧ (bKind d = 1 ∨ bKind d = 2) then some d else none

/-- R295: TARGET and DRIVE that VALUE gives through the target point's output binding. -/
def Half.reflexDrive (m : Half) (w : List Word) (d : List Word) : Word × Word :=
  let t := recType (m.pt (rPoint w))
  let x := (toField d t ((normalise t (rValue w)).getD 0)).1
  if bKind d = 1 then (word (bByte d 8), word (nfld (putBits 0 (bOff d) (bWidth d) x) 0 24))
  else
    let c := bByte d 8 % 16
    let o := bHalf d 9 % 4096
    let s := m.canOf c
    (word (2 ^ 31 + c * 2 ^ 12 + o), word (leNat ((fieldInto d x ((s.data o).take (s.txLen o))).take 4)))

/-- R299: the checks of a reflex binding, as the fault code of RFX.BIND_STAT. EDGE 0 of a UIO source is refused with EDGE's
other fault. -/
def Half.reflexCheck (m : Half) (k : Nat) (w : List Word) : Nat :=
  let i := rPoint w
  let src := rSource w
  let srcOk :=
    if rKind w = 1 then decide (src < 256) && (decide (m.uioMode src = 5) || decide (m.uioMode src = 6))
    else if rKind w = 2 then
      (let x := m.canOf (src / 4096); x.en (src % 4096) && !x.isTx (src % 4096))
    else false
  let same := (m.uio.rfx.filter (fun e => decide (e.1 ≠ k) && rEn e.2.words && decide (rKind e.2.words = rKind w)
    && decide (rSource e.2.words = src))).length
  if !srcOk then 1
  else if (m.reflexOut i).isNone then 2
  else if rLevel w = 0 ∨ 16 < rLevel w ∨ (rEdge w = 3 ∧ rFollow w) ∨ (rKind w = 1 ∧ rEdge w = 0) then 3
  else if 16 ≤ same then 4
  else if !m.bindMay 0 (m.pt i).tc (rLevel w) then 5
  else if (normalise (recType (m.pt i)) (rValue w)).isNone then 6
  else 0

/-- A reflex binding with its TARGET and DRIVE computed (R295). -/
def Half.reflexAim (m : Half) (w : List Word) : List Word :=
  match m.reflexOut (rPoint w) with
  | some d => (let (t, v) := m.reflexDrive w d; w.take 6 ++ [t, v])
  | none => w.take 6 ++ [0, 0]

/-- RFX.STAT: bindings enabled. -/
def Half.reflexCount (m : Half) : Half := m.wrN rRfxStat (m.uio.rfx.filter (fun e => rEn e.2.words)).length

/-- R295: the target point's output binding has been committed: the matrix recomputes TARGET and DRIVE, or clears EN where the binding
is no longer of KIND UIO or CAN. -/
def Half.reflexRebound (m : Half) (st : Stamp) (i : Nat) : Half :=
  ((m.uio.rfx.filter (fun e => decide (rPoint e.2.words = i))).foldl (fun m e =>
    if (m.reflexOut i).isSome then m.setReflex e.1 { e.2 with words := m.reflexAim e.2.words }
    else if !rEn e.2.words then m
    else
      ((m.setReflex e.1 { e.2 with words := putFlag (e.2.words.getD 0 0) 31 false :: e.2.words.drop 1 }).irq 0x0E0 1).ev 0x0D09
        e.1 2 i st.toNat) m).reflexCount

/-- A commit is refused: event 0x080A and its source (R132). -/
def Half.bindRefused (m : Half) (out : Bool) (b : Nat) (d : List Word) (cls code : Nat) : Half × Nat :=
  ((m.irq 0x020 4).ev 0x080A (b + (if out then 0x8000 else 0)) (bPoint d) cls (bLevel d + 5 * 2 ^ 16), code)

/-- The bits of a descriptor's words that Table 4.5 names. -/
def bindBits (out : Bool) : List Nat :=
  [if out then 0xFFFF07FF else 0xFFFF0FFF, 0xFFFF00FF, 0xFFFFFFFF, 0xFFFFFFFF, 0xFFFFFFFF, 0xFFFFFFFF, 0xFFFF, 0]

/-- BINDING_COMMIT (R132, R552): PTAB.BIND0 is written with the words of a descriptor. -/
def Half.bindEff (m : Half) (st : Stamp) (ws : List Word) : Half × Nat :=
  let out := m.rdB rPtabBindSel 15
  let b := m.rdF rPtabBindSel 0 15
  let d := maskWords (bindBits out) (ws.take 8)
  let old := m.bindDesc out b
  if out ∧ 16384 ≤ b then m.bindRefused out b d 0xFF 5
  else
    match m.bindCheck out b d with
    | (0, _) =>
      let m1 := if old.isEmpty then m else m.attach out (bPoint old) 0xFFFF
      let m2 := if bKind d = 0 then m1.setBindDesc out b []
        else (m1.setBindDesc out b d).attach out (bPoint d) b
      let m3 := if out then (if old.isEmpty then m2 else m2.reflexRebound st (bPoint old)) else m2
      let m4 := if out ∧ bKind d ≠ 0 then m3.reflexRebound st (bPoint d) else m3
      (if (if bKind d = 0 then [] else d) = old then m4 else m4.gen 0x020, 0)
    | (code, cls) => m.bindRefused out b d cls code

/-- BINDING_COMMIT (R132): the low word of PTAB.BIND commits the accessor's staged words. -/
def execBindingCommit (h : HalfId) (r : Req) (v : Word) (s : State) : Host.Outcome State Fault Refusal :=
  .next (s.regCmd h r rPtabBind v (fun m =>
    let old := m.bindDesc (m.rdB rPtabBindSel 15) (m.rdF rPtabBindSel 0 15)
    m.bindEff (reqStamp r) (v :: (List.range 7).map (fun i =>
      (m.stagedWord (reqNum r) (rPtabBind + 4 * (i + 1))).getD (old.getD (i + 1) 0)))))

/-- REFLEX_BIND_COMMIT (R295, R299): RFX.BIND0 is written with the words of a binding; every commit is checked, whatever its EN. -/
def Half.rfxEff (m : Half) (n : Nat) (st : Stamp) (ws : List Word) : Half × Nat :=
  let k := m.rdF rRfxBindSel 0 10
  let w := maskWords [0xFF1FFFFF, 0xFFFF] (ws.take 6)
  let f := m.reflexCheck k w
  let m1 := m.setView n rRfxBindStat (word (f * 2 ^ 16 + (if f = 0 then 0 else 5)))
  if f ≠ 0 then ((m1.irq 0x0E0 1).ev 0x0D09 k f (rPoint w) st.toNat, 8)
  else
    let old := (m.reflex k).words
    let m2 := (m1.setReflex k { m.reflex k with words := m.reflexAim w }).reflexCount
    (if old.take 6 = w then m2 else m2.gen 0x0E0, 0)

/-- REFLEX_BIND_COMMIT (R295). -/
def execReflexBindCommit (h : HalfId) (r : Req) (v : Word) (s : State) : Host.Outcome State Fault Refusal :=
  .next (s.regCmd h r rRfxBind v (fun m =>
    let old := (m.reflex (m.rdF rRfxBindSel 0 10)).words
    m.rfxEff (reqNum r) (reqStamp r) (v :: (List.range 5).map (fun i =>
      (m.stagedWord (reqNum r) (rRfxBind + 4 * (i + 1))).getD (old.getD (i + 1) 0)))))

/-- The write that words of PTAB.WR command (Table 4.10). -/
def wrOf (n seq : Nat) (st : Stamp) (ws : List Word) : PWrite :=
  let c := ws.getD 0 0
  ⟨fld c 0 16, fld c 16 5, flag c 24, flag c 25, dword (ws.getD 1 0) (ws.getD 2 0), none, st, .acc n seq⟩

/-- The bits of PTAB.WR0 (Table 4.10). -/
def wrBits : List Nat := [0x031FFFFF]

/-- PTAB_WRITE_SUBMIT (R124): PTAB.WR0 submits a write; a level above 17 is refused with RANGE. -/
def Half.wrEff (m : Half) (n : Nat) (st : Stamp) (ws : List Word) : Half × Nat :=
  if 17 < fld (ws.getD 0 0) 16 5 then (m, 5)
  else
    let seq := (m.acc n).wrSeq + 1
    ((((m.updAcc n (fun a => { a with wrSeq := seq })).setView n rPtabWrStat 0xFFFF).wrWords rPtabWr (maskWords wrBits ws)).enqueue
      (wrOf n seq st ws), 0)

end Sys2Proof.Machine
end

