-- ==== Sys2Proof/Machine/DrillBase.lean ====
section
/-! DEFINITION. Drill tasks, shared markers, timers and counters, Drill forces (R178 to R180), the scheduler (R166), misses and
safe states (R172, R173), and what the end of a Drill sheaf does. -/
namespace Sys2Proof.Machine

/-- No program. -/
def programReset : Program := ⟨false, 0, 0, 0, false, 0, [], [], [], [], [], [], [], [], []⟩

/-- A task's parameters at reset. -/
def taskCfgReset : TaskCfg := ⟨0, 0, 0, 0, 0, 0, [], [], [], [], 0, [], 0, 0⟩

/-- A task at reset: STOPPED. -/
def taskReset : Task :=
  ⟨0, false, false, 0, 0, 0, 0, 0, 0, false, false, none, [], [], [], 0, false, 0, false, false, false, [], [], [], 0, [], 0⟩

/-- A timer at its initial value. -/
def timerReset : Timer := ⟨0, 0, false, 0, false, 0, false, false⟩

/-- A counter at its initial value, before the bank's data. -/
def counterReset : Counter := ⟨0, 0, false, false, false⟩

/-- A task's run-time state. -/
def Half.task (m : Half) (t : Nat) : Task := sget taskReset m.drl.tasks t

/-- Changes a task. -/
def Half.updTask (m : Half) (t : Nat) (f : Task → Task) : Half :=
  { m with drl := { m.drl with tasks := sset taskReset m.drl.tasks t (f (m.task t)) } }

/-- A task of the active program. -/
def Half.taskCfg (m : Half) (t : Nat) : TaskCfg := sget taskCfgReset m.drl.active.tasks t

/-- The active program has the task. -/
def Half.hasTask (m : Half) (t : Nat) : Bool := (sfind m.drl.active.tasks t).isSome

/-- The tasks of the active program. -/
def Half.taskList (m : Half) : List Nat := m.drl.active.tasks.map (·.1)

/-- The tasks of an engine. -/
def Half.engineTasks (m : Half) (e : Nat) : List Nat :=
  (m.drl.active.tasks.filter (fun x => decide (x.2.engine = e))).map (·.1)

/-- The force of a marker (R179). -/
def Half.markerForce (m : Half) (a : Nat) : Option Bool :=
  (m.ptab.forces.find? (fun e => decide (e.2.kind = 1) && decide (e.2.addr = a))).map (fun e => e.2.value.getLsbD 0)

/-- A marker as it stands in memory. -/
def Half.markerRaw (m : Half) (a : Nat) : Bool := sget false m.drl.markers a

/-- A marker as it reads (R179). -/
def Half.marker (m : Half) (a : Nat) : Bool := (m.markerForce a).getD (m.markerRaw a)

/-- A marker is written; a forced marker discards the write (R179). -/
def Half.setMarker (m : Half) (a : Nat) (b : Bool) : Half :=
  if (m.markerForce a).isSome then m
  else { m with drl := { m.drl with markers := sset false m.drl.markers a b } }

/-- Several markers are written from an address, lowest bit first (R204). -/
def Half.setMarkers (m : Half) (a v : Nat) : Nat → Half
  | 0 => m
  | n + 1 => (m.setMarkers a v n).setMarker (a + n) (v.testBit n)

/-- Several markers as a number. -/
def Half.markers (m : Half) (a n : Nat) : Nat := maskOf ((List.range n).filter (fun i => m.marker (a + i)))

/-- A timer. -/
def Half.timer (m : Half) (a : Nat) : Timer := sget timerReset m.drl.timers a

/-- Writes a timer. -/
def Half.setTimer (m : Half) (a : Nat) (x : Timer) : Half :=
  { m with drl := { m.drl with timers := sset timerReset m.drl.timers a x } }

/-- A counter. -/
def Half.counter (m : Half) (a : Nat) : Counter := sget counterReset m.drl.counters a

/-- Writes a counter. -/
def Half.setCounter (m : Half) (a : Nat) (x : Counter) : Half :=
  { m with drl := { m.drl with counters := sset counterReset m.drl.counters a x } }

/-- A value with the POINT_BIT forces of its point (R179). -/
def Half.forceBits (m : Half) (point : Nat) (v : Dword) : Dword :=
  m.ptab.forces.foldl (fun v e =>
    if e.2.kind = 2 ∧ e.2.addr = point then
      BitVec.ofNat 64 (v.toNat - nfld v.toNat e.2.bit 1 * 2 ^ e.2.bit + (e.2.value.getLsbD 0).toNat * 2 ^ e.2.bit)
    else v) v

/-- A retained timer as its page holds it: ET, PT, remainder, the Drill time of its last evaluation, and its flags. -/
def timerBytes (x : Timer) : List Byte :=
  leBytes 4 x.et ++ leBytes 4 x.pt ++ leBytes 2 x.rem
    ++ leBytes 1 (x.dn.toNat + x.run.toNat * 2 + x.inLast.toNat * 4 + x.armed.toNat * 8)

/-- A retained counter as its page holds it (R200). -/
def counterBytes (x : Counter) : List Byte :=
  leBytes 4 x.cv.toNat ++ leBytes 4 x.pv.toNat ++ leBytes 1 (x.q.toNat + x.edgeU.toNat * 2 + x.edgeD.toNat * 4)

/-- One retained variable put into a page (R175). -/
def Half.retPut (m : Half) (v : RetVar) (l : List Byte) : List Byte :=
  if v.kind = 0 then
    let b := (l.getD v.byte 0).toNat
    bytesInto v.byte [BitVec.ofNat 8 (b - nfld b v.bit 1 * 2 ^ v.bit + (m.markerRaw v.addr).toNat * 2 ^ v.bit)] l
  else if v.kind = 1 then bytesInto v.byte (timerBytes (m.timer v.addr)) l
  else bytesInto v.byte (counterBytes (m.counter v.addr)) l

/-- R175: the contents of retained page j of a task. -/
def Half.retPage (m : Half) (t j : Nat) : List Byte :=
  let c := m.taskCfg t
  let l0 := List.replicate 64 (0 : Byte)
  let l1 := if j = 0 then bytesInto 0 (leBytes 4 c.retHash.toNat) l0 else l0
  (c.retVars.filter (fun v => decide (v.page = j))).foldl (fun l v => m.retPut v l) l1

/-- One retained variable taken from its page (R176, R177). -/
def Half.retTake (m : Half) (v : RetVar) (l : List Byte) : Half :=
  if v.kind = 0 then
    { m with drl := { m.drl with markers := sset false m.drl.markers v.addr ((l.getD v.byte 0).getLsbD v.bit) } }
  else if v.kind = 1 then
    let f := leAt l (v.byte + 10) 1
    m.setTimer v.addr ⟨leAt l v.byte 4, leAt l (v.byte + 4) 4, f.testBit 0, leAt l (v.byte + 8) 2, f.testBit 1,
      (m.timer v.addr).last, f.testBit 2, f.testBit 3⟩
  else
    let f := leAt l (v.byte + 8) 1
    m.setCounter v.addr ⟨word (leAt l v.byte 4), word (leAt l (v.byte + 4) 4), f.testBit 0, f.testBit 1, f.testBit 2⟩

/-- The FAULTED task mask (R180). -/
def Half.faultMask (m : Half) : Nat := maskOf ((m.drl.tasks.filter (fun e => decide (e.2.st = 6))).map (·.1))

/-- R180: the FAULTED mask in bytes 60 to 63 of pages 0 and 1 of the force region; none where the granary refuses. -/
def Half.putFaults (m : Half) : Option Half :=
  let p := m.rdF rDrlcFrcBase 0 8
  if m.gMay 3 p && m.gMay 3 (p + 1) then
    some ((m.gPut (p * 64 + 60) (leBytes 4 m.faultMask)).gPut ((p + 1) * 64 + 60) (leBytes 4 (m.faultMask / 2 ^ 32)))
  else none

/-- The task that its engine runs: RUNNING, and not given up for its safe state. -/
def Half.running (m : Half) (e : Nat) : Option Nat := (m.engineTasks e).find? (fun t => decide ((m.task t).st = 3) && decide ((m.task t).safe = 0))

/-- The safe-state sheaf of a task waits or is under way (R173). -/
def Half.safeBusy (m : Half) (t : Nat) : Bool := m.drl.jobs.any (fun j => decide (j.code = t + 64))

/-- The engine is committing (Table 6.4): a period's sheaf, or a safe state's. -/
def Half.committing (m : Half) (e : Nat) : Bool :=
  (m.engineTasks e).any (fun t => decide ((m.task t).st = 4) || (decide ((m.task t).safe ≠ 0) && m.safeBusy t))

/-- The highest-priority READY task of an engine (R166). -/
def Half.readyTask (m : Half) (e : Nat) : Option Nat :=
  (m.engineTasks e).foldl (fun b t =>
    if (m.task t).st ≠ 2 ∨ (m.task t).safe ≠ 0 then b
    else match b with
      | none => some t
      | some u => if (m.taskCfg t).prio < (m.taskCfg u).prio then some t else b) none

/-- PREEMPT and dispatch (R166, Table 6.4): the engine runs its highest-priority READY task; a switch costs 6 steps, which the task that
preempts takes. -/
def Half.schedule (m : Half) (e : Nat) : Half :=
  if m.committing e then m
  else
    match m.readyTask e with
    | none => m
    | some t =>
      match m.running e with
      | none => m.updTask t (fun x => { x with st := 3 })
      | some u =>
        if (m.taskCfg t).prio < (m.taskCfg u).prio then
          (m.updTask u (fun x => { x with st := 2 })).updTask t (fun x => { x with st := 3, steps := x.steps + 6 })
        else m

/-- A job of the Drill engines joins those that wait. -/
def Half.drlPush (m : Half) (j : DrlJob) : Half := { m with drl := { m.drl with jobs := m.drl.jobs ++ [j] } }

/-- A write of a Drill sheaf. -/
def drlAct (point level : Nat) (relinq : Bool) (v : Dword) : Act :=
  ⟨1, point, level + (if relinq then 32 else 0), v, 0, [], localStamp, false⟩

/-- R173: the actions of a task's safe-state sheaf. -/
def safeActs (c : TaskCfg) : List Act :=
  ((c.outputs.zip c.safe).filterMap (fun e =>
    if e.2.choice = 1 then some (drlAct e.1 c.level true 0)
    else if e.2.choice = 2 then some (drlAct e.1 c.level false e.2.value)
    else none))

/-- R173, R174: the task's safe state is to be committed, for a cause: a scan in progress is abandoned. The task keeps its state until the
safe state has been committed (Table 6.4), and its engine runs it no more. -/
def Half.safeStart (m : Half) (t cause : Nat) : Half :=
  let x := m.task t
  let scan := decide (x.st = 2) || decide (x.st = 3)
  let m1 := m.updTask t (fun x =>
    { x with safe := cause, abandoned := if scan then stickTo 0xFFFF x.abandoned 1 else x.abandoned, acts := [] })
  m1.drlPush ⟨(m.taskCfg t).engine, t + 64, safeActs (m.taskCfg t)⟩

/-- TASK_MISS (R172): a missed period is counted. -/
def Half.taskMiss (m : Half) (t : Nat) (aborted : Option Nat) : Half :=
  let c := m.taskCfg t
  let m1 := m.updTask t (fun x => { x with overruns := stickTo 0xFFFF x.overruns 1, consec := stickTo 15 x.consec 1 })
  let x := m1.task t
  let m2 := match aborted with
    | some reason => (m1.ev 0x0A04 t reason x.consec 0).irq (0x030 + c.engine) 2
    | none => (m1.ev 0x0A01 t x.consec c.period x.overruns).irq (0x030 + c.engine) 0
  if c.limit ≤ x.consec ∧ x.st ≠ 4 ∧ x.st ≠ 0 ∧ x.st ≠ 6 ∧ x.safe = 0 then m2.safeStart t (if aborted.isSome then 2 else 1) else m2

/-- A change of tasks that also changes the FAULTED mask, where it does, takes effect with its granary commit (R180). -/
def Half.withFaults (m m1 : Half) : Half × Nat :=
  if m1.faultMask = m.faultMask then (m1, 0)
  else match m1.putFaults with | some m2 => (m2, 0) | none => (m, 8)

/-- R173, R174: the safe state has been committed: the task is FAULTED, or STOPPED after STOP with SAFE, and event 0x0A02 is
recorded. Where the granary refuses the FAULTED mask the change is refused (R180): the task stays as it is, and its safe-state commit is
tried again as after an abort. -/
def Half.safeDone (m : Half) (t : Nat) : Half :=
  let x := m.task t
  let c := m.taskCfg t
  if x.safe = 0 then m
  else
    match m.withFaults (m.updTask t (fun x => { x with st := if x.safe = 3 then 0 else 6, safe := 0, cause := x.safe })) with
    | (m1, 0) => ((m1.ev 0x0A02 t x.safe (safeActs c).length 0).irq (0x030 + c.engine) 1).schedule c.engine
    | _ => m.schedule c.engine

/-- R168: a task's retained pages as they stand, by number. -/
def Half.retNow (m : Half) (t : Nat) : Sparse (List Byte) :=
  (List.range (m.taskCfg t).retPages.length).foldl (fun l j => sput l j (m.retPage t j)) []

/-- A level that names a grid: the last instant of a period and phase at or before an instant, in ms (R165). -/
def gridLast (period phase ms : Nat) : Nat := ms - (ms + period - phase % period) % period

/-- R165: a release of the task is due: the instant lies on its grid and has not been taken, or a step of the time base has passed one. -/
def Half.relDue (m : Half) (t : Nat) : Bool :=
  let c := m.taskCfg t
  let ms := m.tai.toNat / oneMs
  (m.task t).owed || (decide (ms % c.period = c.phase % c.period) && decide ((m.task t).relMs ≠ some ms))

/-- R165: a step of the time base, in ms. Forward, the last release passed over is owed; backward, nothing is until the next instant of the
grid. -/
def Half.stepTask (m : Half) (old new : Nat) (t : Nat) : Half :=
  let c := m.taskCfg t
  let x := m.task t
  if x.st = 0 ∨ x.st = 6 then m
  else if new < old then m.updTask t (fun x => { x with owed := false, relMs := some new })
  else if old < gridLast c.period c.phase new then m.updTask t (fun x => { x with owed := true })
  else m

/-- The engine has a task READY, RUNNING or COMMITTING (R171). -/
def Half.engBusy (m : Half) (e : Nat) : Bool :=
  (m.engineTasks e).any (fun t => decide (2 ≤ (m.task t).st) && decide ((m.task t).st ≤ 4))

/-- An engine's time before anything has passed: idle. -/
def engTimeReset : EngTime := ⟨false, 0, []⟩

/-- R171, R187: an engine about to spend time as it stands: where that ends an idle interval, MIN_IDLE takes it, and where it ends a busy one,
the last second keeps it. -/
def Half.engTick (m : Half) (e : Nat) : Half :=
  let x := sget engTimeReset m.drl.eng e
  let b := m.engBusy e
  if b = x.busy then m
  else
    let past := (if x.busy then x.past ++ [(x.since, m.up)] else x.past).filter (fun i => decide (m.up < i.2 + oneSec))
    let m1 := { m with drl := { m.drl with eng := sset engTimeReset m.drl.eng e ⟨b, m.up, past⟩ } }
    if x.busy then m1 else m1.wrN (rDrlMinIdle e) (min (m.rdN (rDrlMinIdle e)) ((m.up - x.since) / 1000))

/-- DRL.LOAD (R187): the busy share of the last second, in 1/65,536, as it can be held in 16 bits. -/
def Half.engLoad (m : Half) (e : Nat) : Nat :=
  let x := sget engTimeReset m.drl.eng e
  let from_ := m.up - oneSec
  let all := if x.busy then x.past ++ [(x.since, m.up)] else x.past
  min 0xFFFF (all.foldl (fun n i => n + (i.2 - max i.1 from_)) 0 * 65536 / oneSec)

/-- The largest measured period cost (R195, Table 6.2). -/
def Half.periodCost (m : Half) (t acts : Nat) : Half :=
  m.updTask t (fun x => { x with maxs := max x.maxs (x.steps + (if acts = 0 then 0 else 64 + 60 * acts)) })

/-- R168, R172: a period's sheaf has reached DONE, or none was needed. -/
def Half.periodDone (m : Half) (t acts : Nat) : Half :=
  let c := m.taskCfg t
  let m0 := m.periodCost t acts
  let m1 := m0.updTask t (fun x =>
    { x with
      last := c.outputs.zipIdx.foldl (fun l e => sput l e.2 (sget 0 x.outs e.2)) x.last
      retImg := (List.range c.retPages.length).foldl (fun l j => sput l j (m.retPage t j)) x.retImg
      first := false
      consec := if x.late then x.consec else 0
      st := if x.st = 4 then 1 else x.st
      acts := [] })
  let m2 := if c.limit ≤ (m1.task t).consec ∧ (m1.task t).st = 1 ∧ (m1.task t).safe = 0 then m1.safeStart t 1 else m1
  m2.schedule c.engine

/-- R172: a period's sheaf has ended ABORTED: a miss, but for one that PFW aborts (R174). -/
def Half.periodAborted (m : Half) (t reason : Nat) : Half :=
  let m1 := m.updTask t (fun x => { x with st := if x.st = 4 then 1 else x.st, acts := [] })
  (if reason = 6 then m1 else m1.taskMiss t (some reason)).schedule (m.taskCfg t).engine

/-- A Drill sheaf has ended: its job leaves the queue. -/
def Half.drlEnded (m : Half) (slot : Nat) (done : Bool) (reason : Nat) : Half :=
  match m.drl.jobs.find? (fun j => decide (j.slot = slot)) with
  | none => m
  | some j =>
    let m1 := { m with drl := { m.drl with jobs := m.drl.jobs.erase j } }
    if j.code < 64 then (if done then m1.periodDone j.code j.acts.length else m1.periodAborted j.code reason)
    else if j.code < 128 then (if done then m1.safeDone (j.code - 64) else m1)
    else m1

/-- Points that the active program's lists name (R184). -/
def Half.drlPoints (p : Program) : List Nat := p.tasks.flatMap (fun e => e.2.inputs ++ e.2.outputs)

/-- R184: a marker lies in a used-address map. -/
def inRanges (l : List AddrRange) (a : Nat) : Bool := l.any (fun r => decide (r.first ≤ a) && decide (a < r.first + r.count))

/-- R180: the key word of a force entry. -/
def forceKey (f : Force) : Nat := f.kind * 2 ^ 30 + f.persist.toNat * 2 ^ 29 + f.bit * 2 ^ 16 + f.addr

/-- The force entry of a kind at an address. -/
def Half.forceAt (m : Half) (kind addr bit : Nat) : Option (Nat × Force) :=
  m.ptab.forces.find? (fun e => decide (e.2.kind = kind) && decide (e.2.addr = addr) && (decide (kind ≠ 2) || decide (e.2.bit = bit)))

/-- DRLC.FRC_STAT of an accessor takes an entry number and a status (Table 6.10). -/
def Half.frcStat (m : Half) (n entry status : Nat) : Half := m.setView n rDrlcFrcStat (word (entry * 2 ^ 24 + status))

/-- FORCE_SET and FORCE_PERSIST (R178, Table 6.11): the entry and the status. -/
def Half.frcSet (m : Half) (st : Stamp) (kind addr bit : Nat) (persist : Bool) (v : Dword) : Half × Nat × Nat :=
  let own := decide (stampClass st = 1)
  match m.forceAt kind addr bit with
  | some (k, f) =>
    if persist ≠ f.persist ∧ !own then (m, k, 3)
    else
      let f' : Force := if kind = 3 then { f with persist := persist } else { f with persist := persist, value := v, stamp := st }
      match m.putForce k (some f') with
      | none => (m, k, 5)
      | some m1 =>
        let m2 := m1.forceChanged
        (if kind = 3 then m2 else m2.ev 0x0A05 (forceKey f') (v.toNat % 2 ^ 32) (v.toNat / 2 ^ 32) st.toNat, k, 0)
  | none =>
    if kind = 3 then (m, 0, 6)
    else if persist ∧ !own then (m, 0, 3)
    else
      match m.freeForce with
      | none => (m.ev 0x0806 addr st.toNat 256 0, 0, 12)
      | some k =>
        let f : Force := ⟨kind, persist, bit, addr, v, st, m.up, 0, 0, 0⟩
        match m.putForce k (some f) with
        | none => (m, k, 5)
        | some m1 => ((m1.forceChanged).ev 0x0A05 (forceKey f) (v.toNat % 2 ^ 32) (v.toNat / 2 ^ 32) st.toNat, k, 0)

/-- FORCE_RELEASE (R178, R180, Table 6.11). -/
def Half.frcRelease (m : Half) (st : Stamp) (kind addr bit : Nat) (persist : Bool) : Half × Nat × Nat :=
  match m.forceAt kind addr bit with
  | none => (m, 0, 0)
  | some (k, f) =>
    if persist ≠ f.persist ∧ stampClass st ≠ 1 then (m, k, 3)
    else
      match m.putForce k none with
      | none => (m, k, 5)
      | some m1 => ((m1.forceChanged).ev 0x0A07 (forceKey f) st.toNat (m.forcedFor f) 0, k, 0)

/-- R178: the writer may force: FORCE of its class's FENCE.RIGHTS. -/
def Half.mayForce (m : Half) (st : Stamp) : Bool := granted (m.rights (stampClass st)) 3

/-- DRLC.FRC0 (R178, Table 6.11): one force command. A command's status is in DRLC.FRC_STAT; a KIND of 0 refuses the write. -/
def Half.frcEff (m : Half) (n : Nat) (st : Stamp) (v : Word) (val : Dword) : Half × Nat :=
  let kind := fld v 30 2
  let addr := fld v 0 16
  let bit := if kind = 2 then fld v 16 6 else 0
  let t := recType (m.pt addr)
  if kind = 0 then (m, 5)
  else if !m.mayForce st then (m.frcStat n 0 3, 0)
  else if flag v 28 ∧ kind ≠ 3 then
    (let (m1, k, s) := m.frcRelease st kind addr bit (flag v 29)
     (m1.frcStat n k s, 0))
  else if kind = 2 ∧ !m.configured addr then (m.frcStat n 0 6, 0)
  else if kind = 2 ∧ !(t = 8 ∨ t = 0) then (m.frcStat n 0 5, 0)
  else
    let (m1, k, s) := m.frcSet st kind addr bit (flag v 29) val
    (m1.frcStat n k s, 0)

end Sys2Proof.Machine
end

