-- ==== Sys2Proof/Machine/Bf.lean ====
section
/-! DEFINITION. Block-floating arithmetic (R213 to R215): BF scalars, exact products and sums as terms, reduction, exact
comparison and the square root of R234. -/
namespace Sys2Proof.Machine

/-- A BF value m × 2^(e − 23) (R213). -/
structure Bf where
  m : Int
  e : Int
  deriving DecidableEq, Repr

/-- A term t × 2^(x − 46) (R214): a product, a single value that enters a sum, or a sum. -/
structure Term_ where
  t : Int
  x : Int
  deriving DecidableEq, Repr

/-- Zero. -/
def Bf.zero : Bf := ⟨0, -128⟩

/-- The BF value of a scalar word (R213). -/
def Bf.ofWord (w : Word) : Bf := ⟨sext 24 w.toNat, sext 8 (w.toNat / 2 ^ 24)⟩

/-- The scalar word of a BF value; zero is 0x8000_0000 (R213). -/
def Bf.toWord (b : Bf) : Word :=
  if b.m = 0 then 0x80000000 else word (twos 8 b.e * 2 ^ 24 + twos 24 b.m)

/-- A mantissa word with the exponent of its vector. -/
def Bf.ofVec (w : Word) (e : Int) : Bf := ⟨sext 24 w.toNat, e⟩

/-- R214: a single value as a term. -/
def Bf.term (b : Bf) : Term_ := ⟨b.m * 2 ^ 23, b.e⟩

/-- R214: the exact product of two BF values. -/
def Bf.mul (a b : Bf) : Term_ := ⟨a.m * b.m, a.e + b.e⟩

/-- A term with its sign changed. -/
def Term_.neg (a : Term_) : Term_ := ⟨-a.t, a.x⟩

/-- The magnitude of a term. -/
def Term_.abs (a : Term_) : Term_ := ⟨a.t.natAbs, a.x⟩

/-- R214: the largest exponent of a list of terms. -/
def topExp : List Term_ → Int
  | [] => -128
  | [a] => a.x
  | a :: l => max a.x (topExp l)

/-- R214: a sum: every term shifted right to the largest exponent among them, bits discarded downwards, then added exactly. -/
def bfSum (l : List Term_) : Term_ :=
  let top := topExp l
  ⟨l.foldl (fun a t => a + Int.fdiv t.t (2 ^ (top - t.x).toNat)) 0, top⟩

/-- a − b as a sum of two terms. -/
def bfSub (a b : Term_) : Term_ := bfSum [a, b.neg]

/-- An integer times a power of two, rounded to the nearest, ties away from zero (R215). -/
def bfScale (t : Int) (k : Int) : Int := roundAway (decide (t < 0)) t.natAbs k

/-- The bit length of a magnitude. -/
def bitLen (n : Nat) : Nat := if n = 0 then 0 else Nat.log2 n + 1

/-- R215, step 2: the exponent of a set of sums that are not all zero. -/
def bfExp (l : List Term_) : Int :=
  l.foldl (fun a t => if t.t = 0 then a else max a ((bitLen t.t.natAbs : Int) + t.x - 46)) (-128)

/-- R215: a reduced vector: its mantissas, its exponent, and whether it saturated. -/
structure Reduced where
  ms  : List Int
  e   : Int
  sat : Bool
  deriving DecidableEq, Repr

/-- R215: reduction. -/
def bfReduce (l : List Term_) : Reduced :=
  if l.all (fun t => decide (t.t = 0)) then ⟨l.map (fun _ => 0), -128, false⟩
  else
    let ms (e : Int) : List Int := l.map (fun t => bfScale t.t (t.x - 23 - e))
    let e0 := bfExp l
    let e := if (ms e0).any (fun m => decide (8388607 < m)) then e0 + 1 else e0
    if e ≤ 127 then ⟨ms e, e, false⟩
    else ⟨(ms 127).map (fun m => (clampInt (-8388608) 8388607 m).1), 127, true⟩

/-- R215: one value reduced to a BF scalar, and whether it saturated. -/
def bfRed (t : Term_) : Bf × Bool :=
  let r := bfReduce [t]
  (⟨r.ms.headD 0, r.e⟩, r.sat)

/-- Exact comparison of two terms on aligned values (R234): a < b. -/
def bfLt (a b : Term_) : Bool :=
  let q := min a.x b.x
  decide (a.t * 2 ^ (a.x - q).toNat < b.t * 2 ^ (b.x - q).toNat)

/-- Exact equality of two terms. -/
def bfEq (a b : Term_) : Bool := !bfLt a b && !bfLt b a

/-- a held between lo and hi. -/
def bfClamp (a lo hi : Term_) : Term_ :=
  let b := if bfLt a lo then lo else a
  if bfLt hi b then hi else b

/-- The sign of a term: −1, 0 or 1. -/
def Term_.sign (a : Term_) : Int := if a.t < 0 then -1 else if a.t = 0 then 0 else 1

/-- The integer square root of a number below 2^(2 n), bit by bit. -/
def isqrt (n x : Nat) : Nat :=
  (List.range n).foldr (fun i r => if (r + 2 ^ i) * (r + 2 ^ i) ≤ x then r + 2 ^ i else r) 0

/-- R234: the square root of a BF value rounded to the nearest 24-bit mantissa. -/
def bfSqrt (b : Bf) : Term_ :=
  if b.m ≤ 0 then ⟨0, -128⟩
  else
    let len := bitLen b.m.natAbs
    let m := b.m.natAbs * 2 ^ (23 - len)
    let e := b.e - (23 - len)
    let e' := Int.fdiv (e + 1) 2
    let n := m * 2 ^ (23 + e - 2 * e').toNat
    let r := isqrt 24 n
    ⟨((if r * r + r < n then r + 1 else r : Nat) : Int) * 2 ^ 23, e'⟩

/-- R209: a point value as a term, exactly. -/
def bfOfFv (x : Fv) : Term_ :=
  match x with
  | .fin neg m e => ⟨if neg then -(m : Int) else m, e + 46⟩
  | .inf neg => ⟨if neg then -1 else 1, 46 + 1024⟩
  | .nan => ⟨0, -128⟩

/-- A BF value as an exact number. -/
def Bf.toFv (b : Bf) : Fv := ofScaled b.m (b.e - 23)

end Sys2Proof.Machine
end

