-- ==== Sys2Proof/Machine/Wave.lean ====
section
/-! DEFINITION. The arithmetic of energy results (R257 to R259): exact sums over the points of a window, square roots and
quotients that round as the exact ones, and harmonics from a table of cosines. -/
namespace Sys2Proof.Machine

/-- A quotient of integers. -/
def ratFv (n : Int) (d : Nat) : Fv := fdiv (fint n) (fint d)

/-- A square root of a quotient, correct to 64 bits with a last bit that tells whether more follow. -/
def sqrtFv (n d : Nat) : Fv :=
  if n = 0 ∨ d = 0 then .fin false 0 0
  else
    let k := 70 + Nat.log2 d
    let x := n * 2 ^ (2 * k) / d
    let r := isqrt (Nat.log2 x / 2 + 1) x
    .fin false (2 * r + (if r * r * d = n * 2 ^ (2 * k) then 0 else 1)) (-(k : Int) - 1)

/-- A result as a binary32 register holds it (R259). -/
def w32 (x : Fv) : Word := word (fenc f32 x)

/-- A result as an integer raw value (R260), to nearest, ties away from zero. -/
def rawFv (x : Fv) : Int :=
  match x with
  | .fin neg m e => roundAway neg m e
  | _ => 0

/-- The sum of products of two lists of points. -/
def dot : List Int → List Int → Int
  | [], _ => 0
  | _, [] => 0
  | a :: l, b :: r => a * b + dot l r

/-- The difference of two lists of points. -/
def diff (l r : List Int) : List Int := List.zipWith (· - ·) l r

/-- The n last elements of a list, with zeros before them where it is shorter. -/
def lastN (n : Nat) (l : List Int) : List Int := List.replicate (n - l.length) 0 ++ l.drop (l.length - n)

/-- cos(2 π k ÷ 128) × 2^62 for k = 0 to 32. -/
def cosQ : List Int :=
  [4611686018427387904, 4606131040650197959, 4589479489746651964, 4561771480761380163, 4523073764714963030,
   4473479567794875989, 4413108366765438139, 4342105601137822079, 4260642322793532497, 4168914783905441250,
   4067143964149113252, 3955575038343412514, 3834476785802888710, 3704140942824866152, 3564881499871150442,
   3417033945137503676, 3260954456333195553, 3097019042617704261, 2925622638761716784, 2747178153714674114,
   2562115475870945497, 2370880437431032621, 2173933740352748318, 1971749846479847467, 1764815834521887442,
   1553630226638953726, 1338701787458110889, 1120548298414853464, 899695310372275547, 676674877523008785,
   452024275624069880, 226284707652502141, 0]

/-- cos(2 π k ÷ 128) × 2^62. -/
def cos128 (k : Nat) : Int :=
  let k := k % 128
  if k ≤ 32 then cosQ.getD k 0
  else if k ≤ 64 then -(cosQ.getD (64 - k) 0)
  else if k ≤ 96 then -(cosQ.getD (k - 64) 0)
  else cosQ.getD (128 - k) 0

/-- sin(2 π k ÷ 128) × 2^62. -/
def sin128 (k : Nat) : Int := cos128 (k + 96)

/-- The points of a window added up by their place within a cycle of 128. -/
def foldCycles : Nat → List Int → List Int
  | 0, _ => List.replicate 128 0
  | n + 1, l => List.zipWith (· + ·) (foldCycles n (l.drop 128)) (l.take 128 ++ List.replicate (128 - l.length) 0)

/-- A harmonic before scaling (R258): the sums of x[n] cos and of −x[n] sin over the window, times 2^62. -/
def harm (x : List Int) (h : Nat) : Int × Int :=
  let c := foldCycles (x.length / 128 + 1) x
  (dot c ((List.range 128).map (fun n => cos128 (h * n))), -dot c ((List.range 128).map (fun n => sin128 (h * n))))

/-- The squared magnitude of a pair of sums. -/
def sqMag (c : Int × Int) : Nat := (c.1 * c.1 + c.2 * c.2).toNat

/-- |X_h| (R258) of scaled points, where one is a volt or an ampere. -/
def harmMag (one : Nat) (x : List Int) (h : Nat) : Fv :=
  sqrtFv (2 * sqMag (harm x h)) ((x.length * one * 2 ^ 62) ^ 2)

/-- atan(2^−i) in units of 2^−40 degrees. -/
def atanQ : List Int :=
  [49478023249920, 29208582661662, 15433012903280, 7834038323712, 3932221230125, 1968027526446, 984253903256,
   492156985618, 246082247574, 123041593148, 61520855245, 30760434956, 15380218395, 7690109312, 3845054670, 1922527337,
   961263669, 480631834, 240315917, 120157959, 60078979, 30039490, 15019745, 7509872, 3754936, 1877468, 938734, 469367,
   234684, 117342, 58671, 29335, 14668, 7334, 3667, 1833, 917, 458, 229, 115, 57, 29, 14, 7, 4, 2, 1]

/-- Rotations by ever smaller angles that bring a vector with x ≥ 0 onto the axis, and the angle they add up to. -/
def cordic : List Int → Nat → Int → Int → Int → Int
  | [], _, _, _, a => a
  | t :: ts, i, x, y, a =>
    if y = 0 then a
    else if 0 < y then cordic ts (i + 1) (x + y / 2 ^ i) (y - x / 2 ^ i) (a + t)
    else cordic ts (i + 1) (x - y / 2 ^ i) (y + x / 2 ^ i) (a - t)

/-- Half a turn in units of 2^−40 degrees. -/
def halfTurn : Int := 180 * 2 ^ 40

/-- An angle brought into (−180, 180] degrees. -/
def wrapAngle (a : Int) : Int := halfTurn - (halfTurn - a) % (2 * halfTurn)

/-- The angle of a pair of sums, in units of 2^−40 degrees, in (−180, 180]; 0 for a pair of zeros. -/
def angleOf (c : Int × Int) : Int :=
  if c.1 = 0 ∧ c.2 = 0 then 0
  else
    let x := c.1 * 2 ^ 64
    let y := c.2 * 2 ^ 64
    if 0 ≤ x then cordic atanQ 0 x y 0 else wrapAngle (halfTurn + cordic atanQ 0 (-x) (-y) 0)

/-- An angle as a number of degrees. -/
def degrees (a : Int) : Fv := ofScaled a (-40)

/-- THD (R258) in per cent: 0 when the fundamental is below 1 % of full scale. -/
def thdOf (one fullScale : Nat) (x : List Int) : Fv :=
  let f := sqMag (harm x 1)
  let top := (List.range 62).foldl (fun a i => a + sqMag (harm x (i + 2))) 0
  if flt (harmMag one x 1) (ratFv fullScale (100 * one)) ∨ f = 0 then .fin false 0 0
  else sqrtFv (10000 * top) f

end Sys2Proof.Machine
end

