-- ==== Sys2Proof/Machine/NrgBase.lean ====
section
/-! DEFINITION. The energy DSP: meters and their inputs (R250 to R255), calibration (R271), the energy area of the granary
(R272 to R275), and loads of reactive energy (R276). -/
namespace Sys2Proof.Machine

/-- What a meter holds at reset. -/
def meterReset : Meter := ⟨0, [], [], [], [], [], 0, 0, 0, 0, 0, false, 0, 0, 0, 0, [], []⟩

/-- A meter. -/
def Half.meter (m : Half) (i : Nat) : Meter := sget meterReset m.nrg.meters i

/-- Changes the energy DSP's private state. -/
def Half.updN (m : Half) (f : NrgSt → NrgSt) : Half := { m with nrg := f m.nrg }

/-- Changes a meter. -/
def Half.updMeter (m : Half) (i : Nat) (f : Meter → Meter) : Half :=
  m.updN (fun n => { n with meters := sset meterReset n.meters i (f (m.meter i)) })

/-- The meter is enabled. -/
def Meter.en (x : Meter) : Bool := flag x.cfg 31

/-- The meter's voltage set. -/
def Meter.vs (x : Meter) : Nat := fld x.cfg 24 3

/-- The phases of a meter with the current channel of each: phase 0 to 2 (R254). -/
def cfgPhases (cfg : Word) : List (Nat × Nat) :=
  if flag cfg 28 then [(0, fld cfg 0 8), (1, fld cfg 8 8), (2, fld cfg 16 8)] else [(fld cfg 29 2, fld cfg 0 8)]

/-- The enabled meters, rising. -/
def Half.metersOn (m : Half) : List Nat := (m.nrg.meters.filter (fun e => e.2.en)).map (·.1)

/-- The enabled meters of a voltage set. -/
def Half.metersOf (m : Half) (vs : Nat) : List Nat :=
  (m.nrg.meters.filter (fun e => e.2.en && decide (e.2.vs = vs))).map (·.1)

/-- NRG.CTRL.RUN. -/
def Half.nrgRun (m : Half) : Bool := m.on 0x060 && m.rdB rNrgCtrl 0

/-- NRG.CTRL.MODE: COMPACT. -/
def Half.compact (m : Half) : Bool := m.rdB rNrgCtrl 2

/-- Accumulation is running (NRG.STAT.ACTIVE). -/
def Half.accumulates (m : Half) : Bool := m.nrgRun && !m.nrg.stopped

/-- NRG.STAT as the meters and the staged calibration give it (Table 10.9). -/
def Half.nrgStat (m : Half) : Word :=
  let on := m.metersOn
  word (((on.map (fun i => (cfgPhases (m.meter i).cfg).length)).foldl (· + ·) 0) * 2 ^ 16 + m.accumulates.toNat * 2 ^ 9
    + (!m.nrg.calStg.isEmpty || !m.nrg.calGo.isEmpty).toNat * 2 ^ 8 + on.length)

/-- The voltage input is enabled (NVS.CTRL). -/
def Half.vEn (m : Half) (vs k : Nat) : Bool := m.rdB (rNvsCtrl vs) k

/-- The channel lies in a pair (R253). -/
def Half.paired (m : Half) (c : Nat) : Bool := m.rdB (rNciPair (c / 32)) (c % 32 / 2)

/-- I_FS of a channel in mA; 0 for an unused one (R251). -/
def Half.iScale (m : Half) (c : Nat) : Nat := m.rdN (rNciScale (c / 32) (c % 32))

/-- The channel can be named by a meter: it exists, is used, and is not the odd one of a pair (R251, R253). -/
def Half.chanOk (m : Half) (c : Nat) : Bool :=
  decide (c < 192) && decide (m.iScale c ≠ 0) && !(decide (c % 2 = 1) && m.paired c)

/-- The channel is in an enabled meter other than meter i. (DESIGN CHOICE, log entry 75: a meter whose EN is 0 holds no channel.) -/
def Half.chanTaken (m : Half) (i c : Nat) : Bool :=
  m.nrg.meters.any (fun e => decide (e.1 ≠ i) && e.2.en && (cfgPhases e.2.cfg).any (fun p => decide (p.2 = c)))

/-- The voltage set whose window a channel belongs to (R255): the odd channel of a pair goes with the even one (R253). -/
def Half.chanSet (m : Half) (n : Nat) : Nat :=
  let c := if n % 2 = 1 ∧ m.paired n then n - 1 else n
  match m.nrg.meters.find? (fun e => e.2.en && (cfgPhases e.2.cfg).any (fun p => decide (p.2 = c))) with
  | some e => e.2.vs
  | none => 0

/-- R254: NRG.M_CFG of the selected meter is written. -/
def Half.mCfgEff (m : Half) (v : Word) : Half × Nat :=
  let i := m.rdN rNrgMSel
  let v := v &&& 0xF7FFFFFF
  let ps := cfgPhases v
  if m.rdB rNrgCtrl 0 then (m, 8)
  else if (ps.any (fun p => decide (p.1 = 3) || !m.chanOk p.2 || m.chanTaken i p.2 || !m.vEn (fld v 24 3) p.1))
  then (m, 8)
  else
    let m1 := m.updMeter i (fun x => { x with cfg := v })
    (if v ≠ (m.meter i).cfg then m1.gen 0x060 else m1, 0)

/-- The register addresses of GAIN and PHASE of a voltage input. -/
def vKeys (vs k : Nat) : Nat × Nat := (rNvsGain vs k, rNvsPhase vs k)

/-- GAIN of an input in force (R271), by its register. -/
def Half.calIn (m : Half) (k : Nat) : Word := sget (regReset k) m.nrg.calAct k

/-- The voltage set whose cycle boundary applies a staged register. -/
def Half.calSet (m : Half) (k : Nat) : Nat :=
  if k / 4096 ≤ 0x068 then k / 4096 - 0x061 else m.chanSet ((k / 4096 - 0x069) * 32 + (k % 4096 - 0x100) / 0x20)

/-- The key is a GAIN register of an energy input. -/
def isGain (k : Nat) : Bool :=
  if k / 4096 ≤ 0x068 then decide (k % 16 = 0) else decide (k % 32 = 8)

/-- R271: a GAIN or PHASE value enters the staging set. -/
def Half.nrgStage (m : Half) (k : Nat) (v : Word) : Half × Nat :=
  let ok := if isGain k then (let g := fld v 0 24; decide (0x300000 ≤ g) && decide (g ≤ 0x500000))
    else (let p := sext 16 (fld v 0 16); decide (-1024 ≤ p) && decide (p ≤ 1024))
  if !ok then (m, 5)
  else ((m.wr k (if isGain k then v &&& 0xFFFFFF else v &&& 0xFFFF)).updN
    (fun n => { n with calStg := insNat n.calStg k }), 0)

/-- CAL_APPLIED (R271): the values that CAL_APPLY.GO gave a voltage set take effect at its cycle boundary; the last set to apply
records the event. -/
def Half.calApplySet (m : Half) (vs : Nat) : Half :=
  let go := m.nrg.calGo.filter (fun e => decide (m.calSet e.1 = vs))
  if go.isEmpty then m
  else
    let rest := m.nrg.calGo.filter (fun e => decide (m.calSet e.1 ≠ vs))
    let m1 := m.updN (fun n => { n with
      calGo := rest
      calAct := go.foldl (fun a e => sset (regReset e.1) a e.1 e.2) n.calAct })
    let m2 := (m.metersOf vs).foldl (fun m i => m.updMeter i (fun x => { x with flags := x.flags ||| 0x20 })) m1
    if rest.isEmpty then m2.ev 0x0C07 m.nrg.calNum m.nrg.calWho.toNat 0 0 else m2

/-- The inputs that a set of GAIN and PHASE registers belongs to, counted. -/
def calInputs (l : List Nat) : Nat := (l.map (fun k => if k / 4096 ≤ 0x068 then k / 16 else k / 32)).eraseDups.length

/-- R271: NRG.CAL_APPLY is written: every staged value waits for the next cycle boundary of its set. A value staged later waits for the
next GO. PG_GEN counts once when an active value changes (R47). -/
def Half.calApplyEff (m : Half) (st : Stamp) (v : Word) : Half × Nat :=
  if flag v 0 then
    let changes := m.nrg.calStg.any (fun k => decide (m.rd k ≠ m.calIn k))
    let go := m.nrg.calStg.foldl (fun a k => sput a k (m.rd k)) m.nrg.calGo
    let m1 := m.updN (fun n => { n with calGo := go, calStg := [], calWho := st, calNum := calInputs (go.map (·.1)) })
    (if changes then m1.gen 0x060 else m1, 0)
  else (m, 0)

/-- R272: METERS, the highest enabled meter plus one. -/
def Half.nrgMeters (m : Half) : Nat := m.metersOn.foldl (fun a i => max a (i + 1)) 0

/-- R272: LAYOUT. -/
def Half.nrgLayout (m : Half) : Nat :=
  crc32c (BitVec.ofNat 8 m.compact.toNat :: (List.range m.nrgMeters).flatMap (fun i => leBytes 4 (m.meter i).cfg.toNat))

/-- R272: bytes of one meter in the energy area. -/
def Half.nrgRow (m : Half) : Nat := if m.compact then 16 else 48

/-- R272: the pages of the energy area. -/
def Half.nrgPages (m : Half) : List Nat :=
  (List.range (1 + (m.nrgRow * m.nrgMeters + 63) / 64)).map (fun i => m.rdF rNrgGrnBase 0 8 + i)

/-- R272: every page of the energy area is a BILLING page with OWNER 2. -/
def Half.nrgAreaOk (m : Half) : Bool :=
  m.nrgPages.all (fun p => decide (32 ≤ p) && decide (p < 256) && decide (m.gOwner p = 2) && decide (m.gClass p = 2))

/-- An energy register of a meter. -/
def Meter.reg (x : Meter) (r : Nat) : Dword := sget 0 x.acc r

/-- R273: one round: the data pages, then the header with SNAP_T and its KIND. A page whose commit the granary refuses keeps
what it holds (R434). -/
def Half.nrgCommit (m : Half) (kind : Nat) : Half :=
  let data := (List.range m.nrgMeters).flatMap (fun i =>
    (List.range (m.nrgRow / 8)).flatMap (fun r => leBytes 8 ((m.meter i).reg r).toNat))
  let head := leBytes 8 m.tai.toNat ++ leBytes 1 kind ++ leBytes 1 m.compact.toNat ++ leBytes 2 m.nrgMeters
    ++ leBytes 4 m.nrgLayout ++ List.replicate 48 0
  let bytes := padTo (64 * (m.nrgPages.length - 1)) data
  let rows := (m.nrgPages.drop 1).map (fun p => (p, (bytes.drop (64 * (p - m.rdF rNrgGrnBase 0 8 - 1))).take 64))
  let all := rows ++ [(m.rdF rNrgGrnBase 0 8, head)]
  m.gPutPages (all.filter (fun e => m.gMay 2 e.1))

/-- R263: an energy register gains whole units; it sticks at all ones, sets SAT and records event 0x0C01 once. -/
def Half.accAdd (m : Half) (i r n : Nat) : Half :=
  let x := m.meter i
  let v := (x.reg r).toNat + n
  if v < 2 ^ 64 then m.updMeter i (fun x => { x with acc := sset 0 x.acc r (BitVec.ofNat 64 v) })
  else
    let m1 := m.updMeter i (fun x =>
      { x with acc := sset 0 x.acc r (BitVec.allOnes 64), sat := insNat x.sat r, flags := x.flags ||| 2 })
    if r ∈ x.sat then m1 else (m1.irq 0x060 2).ev 0x0C01 i r 0 0

/-- R276: NRG.M_LOAD is committed: the four values join the reactive registers of the selected meter, once per restart, in
COMPACT mode alone. -/
def Half.mLoadEff (m : Half) (st : Stamp) (ws : List Word) : Half × Nat :=
  let i := m.rdN rNrgMSel
  if !m.compact || (m.meter i).flags.testBit 11 then (m, 8)
  else
    let val (r : Nat) : Nat := (dword (ws.getD (2 * r) 0) (ws.getD (2 * r + 1) 0)).toNat
    let m1 := (List.range 4).foldl (fun m r => m.accAdd i (r + 2) (val r)) m
    let m2 := m1.updMeter i (fun x => { x with flags := (x.flags ||| 0x800) - (if x.flags.testBit 10 then 0x400 else 0) })
    ((m2.wrWords rNrgMLoad (ws.take 8)).ev 0x0C0B i st.toNat 0 0, 0)

/-- The time to collapse (R275) in periods of the RTC's divider, the resolution of RTC.SWO_TIME (R415), rounded up. -/
def collapseTicks (snapT : Nat) (swo : Dword) : Nat := ((swo.toNat - snapT) * 32768 + oneSec - 1) / oneSec

/-- The UTC minute of the time base, from the TAI−UTC offset (R265). -/
def Half.utcMinute (m : Half) (leap : Nat) : Int := ((m.tai.toNat : Int) - leap * oneSec) / (60 * oneSec)

/-- R275: P_MAX × t_c in mWh, rounded up, where t_c is in periods of the divider. -/
def Half.tailBound (m : Half) (i t : Nat) : Nat :=
  let x := m.meter i
  let p := ((cfgPhases x.cfg).map (fun p => m.rdN (rNvsScale x.vs) * m.iScale p.2)).foldl (· + ·) 0
  (p * t + 2500000 * 32768 - 1) / (2500000 * 32768)

/-- R276: after a restart the reactive registers of a COMPACT meter start at zero with RQ_LOST. -/
def Half.rqLost (m : Half) : Half :=
  if m.compact then
    m.metersOn.foldl (fun m i => m.updMeter i (fun x =>
      { x with acc := x.acc.filter (fun e => decide (e.1 < 2)), flags := x.flags ||| 0x400 })) m
  else m

/-- R268: the interval in progress of every enabled meter is PARTIAL. -/
def Half.partialAll (m : Half) : Half :=
  m.metersOn.foldl (fun m i => m.updMeter i (fun x => { x with flags := x.flags ||| 4 })) m

/-- ENERGY_RESTORE (R275): the recalled energy area is taken before metering resumes; swo is RTC.SWO_TIME where it is valid, and where it
is not COLLAPSE_MS reads 0xFFFF (R415). There is no area while NRG.GRN_BASE names no user page. Minutes and intervals begin at the time
base's present minute (R268). -/
def Half.nrgRestore (m0 : Half) (leap : Nat) (swo : Option Dword) : Half :=
  let m := m0.updN (fun n => { n with minute := m0.utcMinute leap, ivMin := m0.utcMinute leap })
  let base := m.rdF rNrgGrnBase 0 8
  if base < 32 then m
  else
    let h := m.gPage base
    let snapT := leAt h 0 8
    let kind := leAt h 8 1
    let layout := leAt h 12 4
    let area := m.nrgPages.flatMap (fun p => m.gPage p)
    let fresh : Half := m.metersOn.foldl (fun m i => m.updMeter i (fun _ => { meterReset with cfg := (m.meter i).cfg })) m
    let t := match swo with
      | some w => (collapseTicks snapT w * 1000 + 32767) / 32768
      | none => 0xFFFF
    let bound (i : Nat) : Nat := match swo with
      | some w => m.tailBound i (collapseTicks snapT w)
      | none => Config.collapseUnknown 1
    let outage := match swo with
      | some w => (m.tai.toNat - w.toNat) / oneSec
      | none => Config.collapseUnknown 0
    let restored : Half := m.metersOn.foldl (fun f i => f.updMeter i (fun x =>
      { x with acc := (List.range (m.nrgRow / 8)).foldl (fun a r =>
          sset 0 a r (BitVec.ofNat 64 (leAt area (64 + i * m.nrgRow + 8 * r) 8))) [] })) fresh
    let m1 :=
      if layout ≠ m.nrgLayout then
        ((fresh.wrN rNrgLoss (3 * 2 ^ 30)).ev 0x0C0A layout m.nrgLayout m.nrgMeters 0).irq 0x060 5
      else if kind = 2 then
        let r := m.metersOn.foldl (fun f i => f.updMeter i (fun x => { x with tail := word (min (bound i) 0xFFFFFFFF) }))
          restored
        ((r.wrN rNrgLoss (1 * 2 ^ 30 + min t 0xFFFF)).ev 0x0C06 1 t outage (snapT / oneSec % 2 ^ 32)).irq 0x060 5
      else if kind = 1 then
        let r := m.metersOn.foldl (fun f i => f.updMeter i (fun x => { x with gap := true, flags := x.flags ||| 8 })) restored
        ((r.wrN rNrgLoss (2 * 2 ^ 30 + min t 0xFFFF)).ev 0x0C06 2 t outage (snapT / oneSec % 2 ^ 32)).irq 0x060 5
      else fresh.wrN rNrgLoss 0
    m1.rqLost.partialAll

/-- NRG.M_STAT of a meter (Table 10.9). -/
def Half.mStat (m : Half) (i : Nat) : Word :=
  let x := m.meter i
  let vs := rNvsStat x.vs
  word ((x.flags &&& 0xE7E) ||| (decide (x.ivImp ≠ 0) && decide (x.ivExp ≠ 0)).toNat ||| (x.gap.toNat * 8)
    ||| ((m.rdB vs 9).toNat * 128) ||| ((m.rdB vs 10).toNat * 256))

end Sys2Proof.Machine
end

