-- ==== Sys2Proof/Machine/Sense.lean ====
section
/-! DEFINITION. The arithmetic of the analog inputs (R286, Table 11.1): logarithms and exponentials in fixed point with 60
fractional bits, the PT1000 and NTC10K conversions, and the first-order filter. -/
namespace Sys2Proof.Machine

/-- One in fixed point. -/
def q60 : Int := 2 ^ 60

/-- A quotient rounded to the nearest integer, ties away from zero; the divisor is positive. -/
def divRound (n d : Int) : Int := if 0 ≤ n then (2 * n + d) / (2 * d) else -((-(2 * n) + d) / (2 * d))

/-- 2 atanh(z) by its series, z in fixed point. -/
def atanh2 (z : Int) : Int :=
  let z2 := z * z / q60
  (((List.range 40).foldl (fun (a : Int × Int) i => (a.1 + a.2 / (2 * i + 1 : Nat), a.2 * z2 / q60)) (0, z)).1) * 2

/-- ln(n ÷ d) in fixed point, of positive numbers. -/
def lnQ (n d : Nat) : Int :=
  let k : Int := (Nat.log2 n : Int) - Nat.log2 d
  let a : Int := n * 2 ^ (if k < 0 then (-k).toNat else 0)
  let b : Int := d * 2 ^ (if 0 < k then k.toNat else 0)
  k * 799144290325165978 + atanh2 ((a - b) * q60 / (a + b))

/-- e^(−n ÷ d) in fixed point, for n ≤ 16 d, by a series on a sixteenth of the exponent. -/
def expNeg (n d : Nat) : Int :=
  let z : Int := (n : Int) * q60 / (16 * d : Nat)
  let s := ((List.range 24).foldl (fun (a : Int × Int) i => (a.1 + a.2, -(a.2 * z / q60) / (i + 1 : Nat))) (0, q60)).1
  let p (x : Int) : Int := x * x / q60
  p (p (p (p s)))

/-- The resistance of a PT1000 sensor at t m°C in units of 10^−24 Ω: IEC 60751 with α = 0.003 85. -/
def ptOhm (t : Int) : Int :=
  10 ^ 27 + 39083 * 10 ^ 17 * t - 5775 * 10 ^ 11 * t * t
    + (if t < 0 then -(4183 * (t - 100000) * t * t * t) else 0)

/-- Steps of a search for the highest temperature, in m°C, whose resistance is not above r. -/
def ptSearch : Nat → Int → Int → Int
  | 0, lo, _ => lo
  | n + 1, lo, r => if ptOhm (lo + 2 ^ n) ≤ r then ptSearch n (lo + 2 ^ n) r else ptSearch n lo r

/-- PT1000: the temperature in m°C, to the nearest, of a resistance in mΩ, from −200 °C up. -/
def ptTemp (r : Nat) : Int :=
  let x : Int := r * 10 ^ 21
  let lo := ptSearch 21 (-200000) x
  if ptOhm (lo + 1) - x < x - ptOhm lo then lo + 1 else lo

/-- NTC10K (R286): the temperature in m°C, to the nearest, of a resistance in mΩ. -/
def ntcTemp (b r : Nat) : Int :=
  let inv := q60 * 100 / 29815 + lnQ (max r 1) 10000000 / (max b 1 : Nat)
  divRound (1000 * q60) (max inv 1) - 273150

/-- One step of the first-order low-pass filter (R286): the state and the input in 2^−16 units, a sample period and a time
constant in ms. -/
def lowPass (y x : Int) (dt tau : Nat) : Int :=
  if 16 * tau < dt then x else x + (y - x) * expNeg dt tau / q60

end Sys2Proof.Machine
end

