-- ==== Sys2Proof/Machine/UioBase.lean ====
section
/-! DEFINITION. Terminals (R282 to R294) and the firing of the reflex matrix (R26, R295 to R297). -/
namespace Sys2Proof.Machine

/-- MODEn of a terminal. -/
def Half.modeWord (m : Half) (t : Nat) : Word := m.rd (rUiogMode (t / 16) (t % 16))

/-- FAST of a terminal. -/
def Half.uioFast (m : Half) (t : Nat) : Bool := flag (m.modeWord t) 5

/-- The terminal's group operates (Table 2.6). -/
def Half.uioOn (m : Half) (t : Nat) : Bool := m.on (0x050 + t / 16)

/-- R284: an output stage is held harmless. -/
def Half.harmless (m : Half) (y : View) (t : Nat) : Bool := m.isOutput t && (!y.any || !m.uioOn t)

/-- R283: an enabled source binding, output binding or reflex binding names the terminal. -/
def Half.uioNamed (m : Half) (t : Nat) : Bool :=
  m.ptab.srcB.any (fun e => bEn e.2 && decide (bKind e.2 = 1) && decide (bByte e.2 8 = t))
    || m.ptab.outB.any (fun e => bEn e.2 && decide (bKind e.2 = 1) && decide (bByte e.2 8 = t))
    || m.uio.rfx.any (fun e => rEn e.2.words && decide (rKind e.2.words = 1) && decide (rSource e.2.words = t))
    || m.uio.rfx.any (fun e => rEn e.2.words && decide (e.2.words.getD 6 0 = word t))

/-- FAST terminals of a group. -/
def Half.fastIn (m : Half) (g : Nat) : Nat := ((List.range 16).filter (fun n => m.uioFast (16 * g + n))).length

/-- R285: FAST terminals of the module. -/
def Half.fastAll (m : Half) : Nat := ((List.range 16).map m.fastIn).foldl (· + ·) 0

/-- UIOG.STAT.FAST follows the modes (Table 11.5). -/
def Half.fastStat (m : Half) (g : Nat) : Half := m.wrF (rUiogStat g) 0 3 (m.fastIn g)

/-- R282, R283, R285: what a write of MODEn is refused with (Table 2.10); 0 for none. -/
def Half.modeRule (m : Half) (t : Nat) (v : Word) : Nat :=
  let k := fld v 0 4
  let old := m.modeWord t
  let fast := flag v 5
  if k = 7 ∨ 10 < k ∨ (k = 9 ∧ 31 < t) then 5
  else if (k = 5 ∨ k = 6) ∧ 7 < fld v 8 8 then 5
  else if fast ∧ ¬(1 ≤ k ∧ k ≤ 4) then 8
  else if fast ∧ !m.uioFast t ∧ (4 ≤ m.fastIn (t / 16) ∨ 32 ≤ m.fastAll) then 8
  else if (k ≠ fld old 0 4 ∨ fast ≠ flag old 5) ∧ m.uioNamed t then 8
  else 0

/-- MODE_WRITE (R282 to R285): a change of MODE or FAST places the terminal in OFF and clears its count, fault, calibration
and drive; values of it that wait for CAL_APPLY are dropped. -/
def Half.modeEff (m : Half) (t : Nat) (st : Stamp) (v : Word) : Half × Nat :=
  let g := t / 16
  let n := t % 16
  let v := v &&& 0xFF3F
  let old := m.modeWord t
  let code := m.modeRule t v
  if code ≠ 0 then (m, code)
  else if v = old then (m, 0)
  else
    let m1 := ((m.wr (rUiogMode g n) v).gen (0x050 + g)).ev 0x0D04 t old.toNat v.toNat st.toNat
    if fld v 0 4 = fld old 0 4 ∧ flag v 5 = flag old 5 then (m1, 0)
    else
      let heal := if m.uioFault t = 0 then (m.term t).healed else some (m.uioFault t, (m.up - (m.term t).faultAt) / oneMs)
      let m2 := (((m1.wrN (rUiogCnt g n) 0).wrF (rUiogTstat g n) 4 4 0).wrB (rUiogFault g) n false).wrB (rUiogLevel g) n false
      let m3 := ((((m2.wr (rUiogGain g n) 0x400000).wr (rUiogOffs g n) 0).wr (rUiogDrv g n) 0).wr (rUiogVal g n) 0).wr
        (rUiogVal g n + 4) 0
      let m4 := { m3 with uio := { m3.uio with
        stg := m3.uio.stg.filter (fun k => decide (k ≠ rUiogGain g n) && decide (k ≠ rUiogOffs g n))
        held := m3.uio.held.filter (fun x => decide (x.term ≠ t)) } }
      let m5 := m4.wrB (rUiogStat g) 8 (m4.uio.stg.any (fun k => decide (k / 4096 = 0x050 + g)))
      ((m5.updTerm t (fun _ => { termReset with settling := decide (fld v 0 4 ≠ 0), healed := heal })).fastStat g, 0)

/-- R294: GAIN or OFFS of a terminal enters the staging set. -/
def Half.uioStage (m : Half) (k : Nat) (v : Word) : Half × Nat :=
  let gain := decide (k % 64 = 0x24)
  if gain ∧ (fld v 0 24 < 3774874 ∨ 4613734 < fld v 0 24) then (m, 5)
  else
    let m1 := (m.wr k (if gain then v &&& 0xFFFFFF else v)).wrB (rUiogStat (k / 4096 - 0x050)) 8 true
    ({ m1 with uio := { m1.uio with stg := insNat m1.uio.stg k } }, 0)

/-- The terminal of a GAIN or OFFS register. -/
def stagedTerm (k : Nat) : Nat := (k / 4096 - 0x050) * 16 + (k % 4096 - 0x100) / 64

/-- UIO_CAL_APPLY (R294): every value of the group staged by now applies at its terminal's next sample. PG_GEN counts once where an
active value changes (R47). -/
def Half.uioApplyEff (m : Half) (g : Nat) (st : Stamp) (v : Word) : Half × Nat :=
  if !flag v 0 then (m, 0)
  else
    let mine := m.uio.stg.filter (fun k => decide (k / 4096 = 0x050 + g))
    let ts := (mine.map stagedTerm).eraseDups.filter (fun t =>
      decide (m.rd (rUiogGain g (t % 16)) ≠ (m.term t).gain) || decide (m.rd (rUiogOffs g (t % 16)) ≠ (m.term t).offs))
    let m1 := ts.foldl (fun m t => m.updTerm t (fun x =>
      { x with calWait := some (m.rd (rUiogGain g (t % 16)), m.rd (rUiogOffs g (t % 16))) })) m
    let m2 := ({ m1 with uio := { m1.uio with stg := m1.uio.stg.filter (fun k => decide (k / 4096 ≠ 0x050 + g)) } }).wrB
      (rUiogStat g) 8 false
    ((if ts.isEmpty then m2 else m2.gen (0x050 + g)).ev 0x0D05 g ts.length st.toNat 0, 0)

/-- The source bindings of a terminal's quantity present a value at an instant. -/
def Half.uioPresent (m : Half) (y : View) (t q : Nat) (v : Word) (time : Dword) : Half :=
  m.presentAll y v.toNat time (m.uioSources t q)

/-- The instant half an aperture of 100 µs before now (R285). -/
def Half.aperture (m : Half) : Dword := m.tai - 50000

/-- R289: what a terminal's bindings write at a sample: quantities 0 and 1 always, 2 when the count has changed or a second has
passed, 3 when a second has passed. A terminal in fault writes nothing and holds COMM_LOST (R288). -/
def Half.uioWrites (m : Half) (y : View) (t : Nat) : Half :=
  let g := t / 16
  let n := t % 16
  if m.uioFault t ≠ 0 then
    m.pointFlags y 5 true (m.sourcePoints (fun d => decide (bKind d = 1) && decide (bByte d 8 = t)))
  else
    let x := m.term t
    let prim := if m.harmless y t then 0 else m.rd (rUiogVal g n)
    let m1 := (m.uioPresent y t 0 prim m.aperture).uioPresent y t 1 (m.rd (rUiogVal g n + 4)) m.aperture
    let m2 := if x.count2 ≠ m1.rd (rUiogCnt g n) ∨ m1.passed x.at2 oneSec then
        (m1.updTerm t (fun x => { x with count2 := m1.rd (rUiogCnt g n), at2 := some m1.up })).uioPresent y t 2
          (m1.rd (rUiogCnt g n)) m1.aperture
      else m1
    if m2.passed x.at3 oneSec then
      (m2.updTerm t (fun x => { x with at3 := some m2.up })).uioPresent y t 3 (word (m2.rdB (rUiogLevel g) n).toNat) m2.aperture
    else m2

/-- R288: the fault of an analog input's measured quantity: µV, nA or mΩ. -/
def analogFault (mode : Nat) (raw : Int) : Nat :=
  if mode = 1 then (if raw < -500000 then 3 else if 11000000 < raw then 4 else 0)
  else if mode = 2 then (if raw < 3600000 then 3 else if 21000000 < raw then 4 else 0)
  else if mode = 3 then (if 4000000 < raw then 1 else if raw < 500000 then 2 else 0)
  else if mode = 4 then (if 500000000 < raw then 1 else if raw < 100000 then 2 else 0)
  else 0

/-- A signed number as a register word. -/
def iword (x : Int) : Word := BitVec.ofInt 32 x

/-- Staged GAIN and OFFS that a CAL_APPLY has released take effect with a sample (R294). -/
def Half.uioTakeCal (m : Half) (t : Nat) : Half :=
  match (m.term t).calWait with
  | some (g, o) => m.updTerm t (fun x => { x with calWait := none, gain := g, offs := o })
  | none => m

/-- The sample period of a terminal in ms (R285). -/
def Half.uioPeriod (m : Half) (y : View) (t : Nat) : Nat := if m.uioFast t then 1 else if y.power = 1 then 100 else 10

/-- The primary value of an analog input before its filter (R286, Table 11.1): conversion, GAIN and OFFS in force. -/
def Half.analogPrim (m : Half) (t : Nat) (raw : Int) : Int :=
  let k := m.uioMode t
  let x := m.term t
  let p := if k = 3 then ptTemp raw.toNat else if k = 4 then ntcTemp (m.rdN (rUiogNtcb (t / 16) (t % 16))) raw.toNat else raw
  divRound (p * (x.gain.toNat : Int)) (2 ^ 22) + x.offs.toInt

/-- An analog input's sample (R286, R288, R294): primary value, GAIN and OFFS, filter. -/
def Half.analogSample (m : Half) (y : View) (t : Nat) (raw : Int) : Half :=
  let g := t / 16
  let n := t % 16
  let k := m.uioMode t
  let f := analogFault k raw
  let m1 := if f = m.uioFault t then m else m.setFault y t f
  if f ≠ 0 then m1
  else
    let x := m1.term t
    let c := m1.analogPrim t raw
    let tau := m1.rdF (rUiogMode g n) 8 8 * 10
    let y1 := if tau = 0 ∨ !x.primed then c * 2 ^ 16 else lowPass x.filt (c * 2 ^ 16) (m1.uioPeriod y t) tau
    let m2 := m1.updTerm t (fun x => { x with filt := y1, primed := true })
    (m2.wr (rUiogVal g n) (iword (divRound y1 (2 ^ 16)))).wr (rUiogVal g n + 4) (if k = 3 ∨ k = 4 then iword raw else 0)

/-- An output terminal's sample: loop voltage in mV or drain current in mA (Table 11.1), the open loop (R288), and an OD switch
that holds after a trip (R291). -/
def Half.outSample (m : Half) (y : View) (t : Nat) (raw : Int) (loopOpen : Bool) : Half :=
  let m1 := m.wr (rUiogVal (t / 16) (t % 16) + 4) (if m.uioMode t = 8 then 0 else iword raw)
  if m1.uioMode t = 9 then
    (let f := if loopOpen then 6 else 0; if f = m1.uioFault t then m1 else m1.setFault y t f)
  else if m1.uioMode t = 10 ∧ m1.uioFault t = 5 ∧ (m1.term t).offAt.isNone ∧ raw ≤ 300 then
    (m1.updTerm t (fun x => { x with trips := 0 })).setFault y t 0
  else m1

/-- UIO_SAMPLE (R285 to R289): one sample of a terminal. -/
def Half.uioSample (m : Half) (y : View) (t : Nat) (raw : Int) (loopOpen : Bool) : Half :=
  let k := m.uioMode t
  if k = 0 ∨ (m.term t).settling ∨ !m.uioOn t ∨ y.pfw then m
  else
    let m1 := m.uioTakeCal t
    let m2 :=
      if 1 ≤ k ∧ k ≤ 4 then m1.analogSample y t raw
      else if k = 5 ∨ k = 6 then
        (m1.wrN (rUiogVal (t / 16) (t % 16)) (m1.rdB (rUiogLevel (t / 16)) (t % 16)).toNat).wrN (rUiogVal (t / 16) (t % 16) + 4) 0
      else m1.outSample y t raw loopOpen
    (if m2.uioFault t = 0 then m2.recordHealed t else m2).uioWrites y t

/-- RFX.LAST0 to LAST2 take a firing (Table 11.7). -/
def Half.reflexLast (m : Half) (k : Nat) (drove : Bool) : Half :=
  ((m.wrN rRfxLast (drove.toNat * 2 ^ 16 + k)).wr (rRfxLast + 4) (loWord m.tai)).wr (rRfxLast + 8) (hiWord m.tai)

/-- R296: a blocked binding records event 0x0D07 at most once per second. why: 1 level, 2 lease. -/
def Half.reflexBlocked (m : Half) (k why : Nat) : Half :=
  let x := m.reflex k
  let m1 := m.irq 0x0E0 0
  if m1.passed x.blkAt oneSec then
    (m1.setReflex k { x with blkAt := some m1.up }).ev 0x0D07 k why (rPoint x.words) (m1.activeLevel (rPoint x.words))
  else m1

/-- R26, R297: a binding's drive code or CAN frame goes to its target at once, and a drive that a sheaf holds for the terminal is
discarded. -/
def Half.reflexIssue (m : Half) (y : View) (w : List Word) : Half :=
  let i := rPoint w
  match m.reflexOut i with
  | none => m
  | some d =>
    if bKind d = 1 then
      let t := bByte d 8
      let m1 := { m with uio := { m.uio with held := m.uio.held.filter (fun x => decide (x.term ≠ t)) } }
      m1.driveNow y t (w.getD 7 0) 0 (some i) false none
    else
      let x := (toField d (recType (m.pt i)) ((normalise (recType (m.pt i)) (rValue w)).getD 0)).1
      let b := (m.prio i).outb
      (({ m with uio := { m.uio with rfxSent := sput m.uio.rfxSent b (word x) } }).canOut d x)

/-- R26: a fired binding drives where its level precedes or equals the active level and a half holds a valid lease. -/
def Half.reflexFire (m : Half) (y : View) (k : Nat) : Half :=
  let w := (m.reflex k).words
  if m.activeLevel (rPoint w) < rLevel w then (m.reflexBlocked k 1).reflexLast k false
  else if !y.any then (m.reflexBlocked k 2).reflexLast k false
  else (m.reflexIssue y w).reflexLast k true

/-- R133: the write of a binding that has fired, or that relinquishes. -/
def reflexWrite (k : Nat) (w : List Word) (relinq : Bool) : PWrite :=
  ⟨rPoint w, rLevel w, relinq, false, rValue w, none, localStamp, .reflex k⟩

/-- R27, R133, R296: bindings that fire, and bindings that relinquish, act together, in binding order; their writes go ahead of
the queue. DESIGN CHOICE (log entry 68): they go ahead of earlier reflex writes that are still queued too. -/
def Half.reflexAct (m : Half) (y : View) (fire rel : List Nat) : Half :=
  let all := (m.uio.rfx.map (·.1)).filter (fun k => decide (k ∈ fire) || decide (k ∈ rel))
  let ws := all.map (fun k => reflexWrite k (m.reflex k).words (decide (k ∈ rel)))
  (fire.foldl (fun m k => m.reflexFire y k) m).updP (fun p => { p with queue := ws ++ p.queue })

/-- The matrix operates (Table 11.7, Table 2.6). -/
def Half.rfxOn (m : Half) : Bool := m.on 0x0E0 && m.rdB rRfxCtrl 0

/-- The enabled bindings of a source. -/
def Half.reflexOf (m : Half) (kind src : Nat) : List (Nat × Reflex) :=
  m.uio.rfx.filter (fun e => rEn e.2.words && decide (rKind e.2.words = kind) && decide (rSource e.2.words = src))

/-- R295, R296: an accepted edge of a terminal. -/
def Half.reflexEdge (m : Half) (y : View) (t : Nat) (level : Bool) : Half :=
  if !m.rfxOn then m
  else
    let want := if level then 1 else 2
    let l := m.reflexOf 1 t
    let hit (e : Nat × Reflex) : Bool := decide (rEdge e.2.words = want) || decide (rEdge e.2.words = 3)
    m.reflexAct y ((l.filter hit).map (·.1)) ((l.filter (fun e => !hit e && rFollow e.2.words)).map (·.1))

/-- R295, R296: a frame has been stored in a CAN object; data holds its data bytes. -/
def Half.reflexCan (m : Half) (y : View) (c o : Nat) (data : List Byte) : Half :=
  if !m.rfxOn then m
  else
    let x := word (leAt data 0 4)
    let l := m.reflexOf 2 (c * 2 ^ 12 + o)
    let hit (e : Nat × Reflex) : Bool :=
      decide (x &&& e.2.words.getD 5 0 = e.2.words.getD 4 0 &&& e.2.words.getD 5 0)
    m.reflexAct y ((l.filter hit).map (·.1)) ((l.filter (fun e => !hit e && rFollow e.2.words)).map (·.1))

/-- R287: the level of a terminal from its comparator's: INVERT inverts it. -/
def Half.uioLevel (m : Half) (t : Nat) (comp : Bool) : Bool := if flag (m.modeWord t) 4 then !comp else comp

/-- UIO_EDGE_ACCEPT (R287): a level of the comparator that has persisted is accepted. -/
def Half.uioEdge (m : Half) (y : View) (t : Nat) (comp : Bool) : Half :=
  let g := t / 16
  let n := t % 16
  let k := m.uioMode t
  let level := m.uioLevel t comp
  if ¬(k = 5 ∨ k = 6) ∨ (m.term t).settling ∨ !m.uioOn t ∨ m.rdB (rUiogLevel g) n = level then m
  else
    let m1 := m.wrB (rUiogLevel g) n level
    let m2 := if k = 6 ∧ level then m1.count (rUiogCnt g n) 1 (0x050 + g) 1 else m1
    let m3 := m2.reflexEdge y t level
    (m3.updTerm t (fun x => { x with at3 := some m3.up })).uioPresent y t 3 (word level.toNat) m3.tai

/-- R283: the new mode starts; a comparator's level at that time is taken as accepted, with no edge. -/
def Half.settleEnd (m : Half) (t : Nat) (comp : Bool) : Half :=
  if (m.term t).settling then
    let m1 := m.updTerm t (fun x => { x with settling := false })
    if m1.uioMode t = 5 ∨ m1.uioMode t = 6 then m1.wrB (rUiogLevel (t / 16)) (t % 16) (m1.uioLevel t comp) else m1
  else m

/-- R291: an OD switch that conducts more than 300 mA turns off; the third trip in a row latches it off. ma is the drain current. -/
def Half.odTrip (m : Half) (y : View) (t ma : Nat) : Half :=
  let x := m.term t
  if ma ≤ 300 ∨ m.uioMode t ≠ 10 ∨ x.settling ∨ m.harmless y t ∨ m.rdN (rUiogDrv (t / 16) (t % 16)) = 0 ∨ x.offAt.isSome then m
  else
    let m1 := ((m.updTerm t (fun x => { x with trips := x.trips + 1, offAt := some m.up })).irq (0x050 + t / 16) 2)
    if 3 ≤ x.trips + 1 then
      (m1.setFault y t 7).ev 0x0D03 t ma 0 0
    else m1.setFault y t 5

/-- R291: a second after a trip the switch is switched on again if the drive is still 1. -/
def Half.odRetry (m : Half) (t : Nat) : Half :=
  if (m.term t).offAt.any (fun a => decide (a + oneSec ≤ m.up)) ∧ m.uioFault t ≠ 7 ∧ m.rdN (rUiogDrv (t / 16) (t % 16)) = 1 then
    m.updTerm t (fun x => { x with offAt := none })
  else m

/-- R291: the width of a STRIKE_PULSE has passed: the switch turns off. -/
def Half.pulseEnd (m : Half) (y : View) (t : Nat) : Half :=
  if (m.term t).pulse.any (fun e => decide (e.1 + e.2 * oneMs ≤ m.up)) then m.driveNow y t 0 0 none false none else m

/-- R290: one ms of a change that RATE limits: the applied code moves on towards the commanded one. -/
def Half.rateStep (m : Half) (y : View) (t : Nat) : Half :=
  if !m.isOutput t then m
  else
    let x := m.term t
    let (c, clamp) := m.limitDrive t x.cmd.toNat
    if c = m.rdN (rUiogDrv (t / 16) (t % 16)) then m
    else
      let m1 := m.setDrv t c
      let m2 := if c = 0 ∧ m.uioMode t = 10 then (m1.updTerm t (fun x => { x with trips := 0, offAt := none })).setFault y t 0 else m1
      match x.src with
      | some i => m2.pointFlag y i 4 clamp
      | none => m2

/-- R284: an output stage leaves its harmless state: it drives the resolved value of the terminal's output binding, or DRVn. -/
def Half.uioResume (m : Half) (y : View) (t : Nat) : Half :=
  match m.ptab.outB.find? (fun e => bEn e.2 && decide (bKind e.2 = 1) && decide (bByte e.2 8 = t)) with
  | some e => if m.isOutput t then m.outIssue y e.1 else m
  | none => m

/-- R284: every output stage of a half, when a valid lease appears. -/
def Half.uioResumeAll (m : Half) (y : View) : Half :=
  (List.range 256).foldl (fun m t => if m.uioOn t then m.uioResume y t else m) m

/-- UIOG.STATn (Table 11.6): the fault, and HARMLESS (R284) and the accepted level as they stand. -/
def Half.uioRead (m : Half) (y : View) (k : Nat) : Option Word :=
  if 0x100 ≤ k % 4096 ∧ k % 4096 < 0x500 ∧ k % 64 = 4 then
    let t := 16 * (k / 4096 - 0x050) + (k % 4096 - 0x100) / 64
    some (word (16 * m.uioFault t + 2 * (m.harmless y t).toNat + (m.rdB (rUiogLevel (t / 16)) (t % 16)).toNat))
  else none

/-- A sampler entry at reset. -/
def fsReset : FsEnt := ⟨0, 0, 0, 0⟩

/-- A sampler entry (R300). -/
def Half.fsEnt (m : Half) (i : Nat) : FsEnt := sget fsReset m.uio.fs i

/-- Writes a sampler entry. -/
def Half.setFs (m : Half) (i : Nat) (e : FsEnt) : Half := { m with uio := { m.uio with fs := sset fsReset m.uio.fs i e } }

/-- The rules of the other registers of UIOG and RFX (Tables 11.5 and 11.7). -/
def Half.uioRegEff (m : Half) (n k : Nat) (v : Word) : Half × Nat :=
  let o := k % 4096
  if k / 4096 ≠ 0x0E0 ∧ o % 64 = 0x2C ∧ 0x100 ≤ o ∧ (v.toNat < 2000 ∨ 6000 < v.toNat) then (m, 5)
  else if k = rRfxFsSel then
    let m1 := m.plainWrite n k v
    let e := m1.fsEnt (fld v 0 6)
    (((m1.wr rRfxFsEnt e.ent).wr rRfxFsLo e.lo).wr rRfxFsHi e.hi, 0)
  else if k = rRfxFsEnt ∨ k = rRfxFsLo ∨ k = rRfxFsHi then
    let m1 := m.plainWrite n k v
    let i := m1.rdF rRfxFsSel 0 6
    (m1.setFs i { m1.fsEnt i with ent := m1.rd rRfxFsEnt, lo := m1.rd rRfxFsLo, hi := m1.rd rRfxFsHi }, 0)
  else if k = rRfxFsCtrl ∧ (fld v 16 4 = 0 ∨ fld v 0 16 < 50 ∨ 60000 < fld v 0 16) then (m, 5)
  else (m.plainWrite n k v, 0)

end Sys2Proof.Machine
end

