-- ==== Sys2Proof/Machine/StReg.lean ====
section
/-! DEFINITION. The registers of access type ST, whose writes may become sheaf actions (R55): the words a write commits, and
the effect of each register. -/
namespace Sys2Proof.Machine

/-- R334: DALI.TX0 is written: a transaction joins the line's queue; RANGE for its fields, FULL for a full queue. -/
def Half.daliTxEff (m : Half) (l n : Nat) (ws : List Word) : Half × Nat :=
  let c := ws.getD 0 0
  let p := fld c 16 3
  if (flag c 31 && flag c 30) || decide (p = 0) || decide (5 < p) then (m, 5)
  else
    let long := flag c 24
    match m.daliPush l ⟨fld (ws.getD 1 0) 0 (if long then 24 else 16), long, flag c 31, flag c 30, p, 0, 0, n, 0⟩ with
    | (m1, true) => ((m1.setView n (rDaliTxStat l) 0).wrWords (rDaliTx l)
        (maskWords [0xC1070000, 0xFFFFFF] [c, ws.getD 1 0]), 0)
    | (_, false) => (m.setView n (rDaliTxStat l) 0x8000000C, 12)

/-- R54: the words that an ST register holds now. -/
def Half.stHeld (m : Half) (low words : Nat) : List Word :=
  if low = rPtabBind then m.bindDesc (m.rdB rPtabBindSel 15) (m.rdF rPtabBindSel 0 15)
  else if low = rRfxBind then (m.reflex (m.rdF rRfxBindSel 0 10)).words
  else m.rdWords low words

/-- R54: the words that a write of the low word commits. -/
def Half.stWords (m : Half) (n low words : Nat) (v : Word) : List Word :=
  v :: (List.range (words - 1)).map (fun i => (m.stagedWord n (low + 4 * (i + 1))).getD ((m.stHeld low words).getD (i + 1) 0))

/-- The bits of the RTC's staging registers (Tables 17.7 and 17.8). -/
def rtcBits (low : Nat) : Nat :=
  if low = rRtcS 0 then 0x7FFF003F else if low = rRtcS 1 then 0x1F3F else if low = rRtcS 2 then 0xFFFF1F07
  else if low = rRtcS 3 then 0x80FFFFFF else 0xFFFFFFFF

/-- Words for a page of the Yoke: the low word and every staged one. -/
def Half.stYoke (m : Half) (n low words : Nat) (v : Word) : List (Nat × Word) :=
  (low, v &&& word (rtcBits low)) :: (List.range (words - 1)).filterMap (fun i => (m.stagedWord n (low + 4 * (i + 1))).map (fun w => (low + 4 * (i + 1), w)))

/-- A committed write of an ST register other than PTAB.WR and SHF.ADD: accessor n, low key, words and the writer's stamp. -/
def Half.stEff (m : Half) (n low words : Nat) (v : Word) (st : Stamp) : Half × Nat :=
  let ws := m.stWords n low words v
  let p := low / 4096
  if low = rPtabBind then m.bindEff st ws
  else if low = rRfxBind then m.rfxEff n st ws
  else if low = rDrlcFrc then
    (let (m1, c) := m.frcEff n st v (dword (ws.getD 1 0) (ws.getD 2 0))
     (if c = 0 then m1.wrWords rDrlcFrc (maskWords [0xF03FFFFF] ws) else m1, c))
  else if low = rNrgMLoad then m.mLoadEff st ws
  else if 0x061 ≤ p ∧ p ≤ 0x06E then m.nrgStage low v
  else if 0x050 ≤ p ∧ p ≤ 0x05F then m.uioStage low v
  else if 0x090 ≤ p ∧ p ≤ 0x097 then m.daliTxEff (p - 0x090) n ws
  else if p = 0x003 then ({ m with shf := { m.shf with toYoke := m.shf.toYoke ++ m.stYoke n low words v } }, 0)
  else (m.plainWrite n low v, 0)

/-- One word of an ST register written by the sheaf engine, which stages words as any accessor does (R54, R55). -/
def Half.stWrite (m : Half) (n k : Nat) (v : Word) (st : Stamp) : Half :=
  let (low, words, _) := regShape k
  if !m.ready (k / 4096) then m.stick rSysOfflineWrCnt 1
  else if low ≠ k then m.updAcc n (fun a => { a with staged := sput a.staged k ⟨v, 0⟩ })
  else (m.stEff n low words v st).1.dropStaged n low words

end Sys2Proof.Machine
end

