-- ==== Sys2Proof/Machine/Stages.lean ====
section
/-! DEFINITION. The stages of a Tiller loop (R217 to R226, R231 to R240): what each computes in one sample from its words, its
inputs and its state. -/
namespace Sys2Proof.Machine

/-- A stage's words, its own word 0 first. -/
abbrev Stage := List Word

/-- Word k of a stage. -/
def Stage.w (st : Stage) (k : Nat) : Word := st.getD k 0

/-- Word k as a BF scalar. -/
def Stage.sc (st : Stage) (k : Nat) : Bf := Bf.ofWord (st.w k)

/-- The exponent in bits [31:24] of word k. -/
def Stage.ex (st : Stage) (k : Nat) : Int := sext 8 (fld (st.w k) 24 8)

/-- Element j of the BF vector whose exponent word is word k. -/
def Stage.vec (st : Stage) (k j : Nat) : Bf := Bf.ofVec (st.w (k + 1 + j)) (st.ex k)

/-- TYPE (Table 8.2). -/
def Stage.type (st : Stage) : Nat := fld (st.w 0) 0 8
/-- LEN. -/
def Stage.len (st : Stage) : Nat := fld (st.w 0) 8 8
/-- NIN. -/
def Stage.nin (st : Stage) : Nat := fld (st.w 0) 16 4
/-- NOUT. -/
def Stage.nout (st : Stage) : Nat := fld (st.w 0) 20 4
/-- SRCj. -/
def Stage.src (st : Stage) (j : Nat) : Nat := fld (st.w 1) (8 * j) 8
/-- STATESPACE n. -/
def Stage.dimN (st : Stage) : Nat := fld (st.w 7) 0 5

/-- R218: words that hold the packed mantissas of A, B, C and D. -/
def packedLen (n p q : Nat) : Nat := (3 * (n * n + n * p + q * n + q * p) + 3) / 4

/-- R218, Table 8.4: the state exponent word of a stage and how many state mantissas follow it; none for a stage without state. -/
def Stage.state (st : Stage) : Option (Nat × Nat) :=
  if st.type = 2 then some (12, 8) else if st.type = 3 then some (13, 3)
  else if st.type = 4 then some (9 + packedLen st.dimN st.nin st.nout, st.dimN)
  else if st.type = 6 then some (10, 4) else if st.type = 7 then some (12, 4) else none

/-- What a sample gives a stage beside its inputs: a first sample, one in which PROFILE starts (R233), the loop tracks (R222),
the loop is held so that PROFILE keeps its target (Table 9.4), the target PROFILE_START has set (R232), the element INIT
names, the age in ns of each input (R239), and the elements held by age before. -/
structure StageIn where
  first : Bool
  cold  : Bool
  track : Bool
  hold  : Bool
  target : Option Bf
  init  : Bf
  ages  : List Nat
  deriving DecidableEq, Repr

/-- What a stage computes: output sums, the state sums that follow its state exponent word, SAT, TRACKING, the elements held by
age, and events of the profile generator (code, parameters 2 and 3). -/
structure StageOut where
  ys    : List Term_
  st    : List Term_
  sat   : Bool
  track : Bool
  aged  : List Nat
  evs   : List (Nat × Nat × Nat)
  deriving DecidableEq, Repr

/-- The previous output j of a stage. -/
def Stage.prevY (st : Stage) (j : Nat) : Term_ := (Bf.ofVec (st.w (3 + j)) (st.ex 2)).term

/-- R239: 10^−9 as a BF scalar. -/
def nano : Bf := Bf.ofWord 0xE344B830

/-- R219, R238 to R240: SCALE. -/
def stScale (st : Stage) (xs : List Bf) (c : StageIn) : StageOut :=
  let x (j : Nat) : Bf := xs.getD j Bf.zero
  let mode := fld (st.w 15) 16 2
  let old (j : Nat) : Bool := decide (mode ≠ 0) && decide (fld (st.w 15) 0 16 * oneMsNs < c.ages.getD j 0)
  let held (j : Nat) : Bool := if mode = 2 then old (j / 2 * 2) || old (j / 2 * 2 + 1) else old j
  let inp (j : Nat) : Bf × Bool :=
    if mode = 2 ∧ j % 2 = 0 then
      let (ns, s1) := bfRed ⟨c.ages.getD j 0, 46⟩
      let (sec, s2) := bfRed (ns.mul nano)
      let (b, s3) := bfRed (bfSum [(x j).term, (x (j + 1)).mul sec])
      (b, s1 || s2 || s3)
    else (x j, false)
  let one (j : Nat) : Term_ :=
    if held j then st.prevY j else bfSum [(st.sc (7 + j)).mul (inp j).1, (st.sc (11 + j)).term]
  let js := List.range st.nin
  ⟨js.map one, [], js.any (fun j => !held j && (inp j).2), false, js.filter old, []⟩
where
  oneMsNs : Nat := 1000000

/-- R220: BIQUAD on one element: output, S1 and S2, and whether the reduction of the output saturated. -/
def biquad1 (st : Stage) (j : Nat) (x : Bf) : Term_ × Term_ × Term_ × Bool :=
  let y := bfSum [(st.sc 7).mul x, (st.vec 12 (2 * j)).term]
  let (r, s) := bfRed y
  (y, bfSum [(st.sc 8).mul x, ((st.sc 10).mul r).neg, (st.vec 12 (2 * j + 1)).term],
    bfSum [(st.sc 9).mul x, ((st.sc 11).mul r).neg], s)

/-- R220: BIQUAD. -/
def stBiquad (st : Stage) (xs : List Bf) : StageOut :=
  let rs := (List.range st.nin).map (fun j => biquad1 st j (xs.getD j Bf.zero))
  ⟨rs.map (·.1), rs.flatMap (fun r => [r.2.1, r.2.2.1]), rs.any (fun r => r.2.2.2), false, [], []⟩

/-- R221, R222: PID. -/
def stPid (st : Stage) (xs : List Bf) (c : StageIn) : StageOut :=
  let r := xs.getD 0 Bf.zero
  let y := xs.getD 1 Bf.zero
  let ff := (xs.getD 2 Bf.zero).term
  let w := (xs.getD 3 Bf.zero).term
  let i := (st.vec 13 0).term
  let yprev := if c.first then y else st.vec 13 2
  let tracking := decide (st.src 3 ≠ 0x40) && (c.first || c.track)
  let (e, s1) := bfRed (bfSub r.term y.term)
  let kie := (st.sc 8).mul e
  let (dy, s2) := bfRed (bfSub yprev.term y.term)
  let dn := bfSum [(st.sc 10).mul (st.vec 13 1), (st.sc 9).mul dy]
  let kpe := (st.sc 7).mul e
  let umin := (st.sc 11).term
  let umax := (st.sc 12).term
  let ic0 := bfSum [i, kie]
  let v0 := bfSum [kpe, ic0, dn, ff]
  let halt := (bfLt umax v0 && decide (0 < kie.t)) || (bfLt v0 umin && decide (kie.t < 0))
  let v := if halt then bfSum [kpe, i, dn, ff] else v0
  let ic := if halt then i else ic0
  let u := if tracking then w else bfClamp v umin umax
  let ic := if tracking then bfSum [w, kpe.neg, dn.neg, ff.neg] else ic
  ⟨[u], [bfClamp ic umin umax, dn, y.term], s1 || s2, tracking, [], []⟩

/-- The packed mantissas of a STATESPACE stage (R213, R218): number k of them, with the exponent of its matrix. -/
def packedM (st : Stage) (k : Nat) (e : Int) : Bf :=
  let byte (i : Nat) : Nat := fld (st.w (9 + i / 4)) (8 * (i % 4)) 8
  ⟨sext 24 (byte (3 * k) + 2 ^ 8 * byte (3 * k + 1) + 2 ^ 16 * byte (3 * k + 2)), e⟩

/-- A row of a packed matrix times a vector, as terms. -/
def packedRow (st : Stage) (off : Nat) (e : Int) (v : List Bf) : List Term_ :=
  (List.range v.length).map (fun c => (packedM st (off + c) e).mul (v.getD c Bf.zero))

/-- R223: STATESPACE. -/
def stStateSpace (st : Stage) (xs : List Bf) : StageOut :=
  let n := st.dimN
  let p := st.nin
  let q := st.nout
  let ex (i : Nat) : Int := sext 8 (fld (st.w 8) (8 * i) 8)
  let x := (List.range n).map (st.vec (9 + packedLen n p q))
  let u := (List.range p).map (fun j => xs.getD j Bf.zero)
  let oB := n * n
  let oC := oB + n * p
  let oD := oC + q * n
  ⟨(List.range q).map (fun r => bfSum (packedRow st (oC + r * n) (ex 2) x ++ packedRow st (oD + r * p) (ex 3) u)),
    (List.range n).map (fun r => bfSum (packedRow st (r * n) (ex 0) x ++ packedRow st (oB + r * p) (ex 1) u)), false, false, [], []⟩

/-- R224: LOOKUP; the difference of the Y values is a factor, and is reduced (R214). -/
def stLookup (st : Stage) (xs : List Bf) : StageOut :=
  let x := (xs.getD 0 Bf.zero).term
  let n := fld (st.w 7) 0 6
  let bx (i : Nat) : Term_ := (st.vec 8 i).term
  let out : Term_ × Bool :=
    if bfLt x (bx 0) then ((st.vec 41 0).term, false)
    else if bfLt (bx (n - 1)) x then ((st.vec 41 (n - 1)).term, false)
    else
      match (List.range (n - 1)).find? (fun i => !bfLt (bx (i + 1)) x) with
      | none => ((st.vec 41 (n - 1)).term, false)
      | some i =>
        let q := min x.x (min (bx i).x (bx (i + 1)).x)
        let al (a : Term_) : Int := a.t * 2 ^ (a.x - q).toNat
        let f := Int.fdiv ((al x - al (bx i)) * 2 ^ 23) (al (bx (i + 1)) - al (bx i))
        let y0 := (st.vec 41 i).term
        let (dy, s) := bfRed (bfSub (st.vec 41 (i + 1)).term y0)
        (bfSum [y0, ⟨f * dy.m, dy.e⟩], s)
  ⟨[out.1], [], out.2, false, [], []⟩

/-- R225: LIMIT. -/
def stLimit (st : Stage) (xs : List Bf) (c : StageIn) : StageOut :=
  let rate := (st.sc 9).term
  let one (j : Nat) : Term_ :=
    let x := (xs.getD j Bf.zero).term
    let p := if c.first then x else (st.vec 10 j).term
    let a := if rate.t = 0 then x else bfClamp x (bfSub p rate) (bfSum [p, rate])
    bfClamp a (st.sc 7).term (st.sc 8).term
  let ys := (List.range st.nin).map one
  ⟨ys, ys, false, false, [], []⟩

/-- R226: SPLIT. -/
def stSplit (st : Stage) (xs : List Bf) : StageOut :=
  let x := (xs.getD 0 Bf.zero).term
  let one (j : Nat) : Term_ × Bool :=
    let olo := (st.sc (9 + 4 * j)).term
    let ohi := (st.sc (10 + 4 * j)).term
    let (d, s) := bfRed (bfSub x (st.sc (7 + 4 * j)).term)
    let y := bfSum [olo, (st.sc (8 + 4 * j)).mul d]
    (if bfLt ohi olo then bfClamp y ohi olo else bfClamp y olo ohi, s)
  let rs := (List.range st.nout).map one
  ⟨rs.map (·.1), [], rs.any (·.2), false, [], []⟩

/-- A term times its own sign's factor: sign(d) × t. -/
def Term_.withSign (t : Term_) (s : Int) : Term_ := ⟨s * t.t, t.x⟩

/-- A term as a BF scalar word. -/
def Term_.bfWord (t : Term_) : Nat := (bfRed t).1.toWord.toNat

/-- R231 to R236: PROFILE. The state sums are position, velocity, acceleration and held target. -/
def stProfile (st : Stage) (xs : List Bf) (c : StageIn) : StageOut :=
  let vmax := (st.sc 7).term
  let amax := st.sc 8
  let lo := (st.sc 10).term
  let hi := (st.sc 11).term
  let t := st.sc 17
  let jt := st.sc 18
  let c2 := st.sc 19
  let ref : Option Term_ := if st.src 0 = 0x40 then c.target.map Bf.term else some (xs.getD 0 Bf.zero).term
  let clampT (a : Term_) : Term_ := bfClamp a lo hi
  -- R233: the start of the stage
  let p0 : Term_ :=
    if !c.cold then (st.vec 12 0).term
    else if fld (st.w 20) 0 8 ≠ 0x40 then clampT c.init.term
    else match (if st.src 0 = 0x40 then none else ref) with
      | some a => clampT a
      | none => clampT ⟨0, -128⟩
  let v0 : Term_ := if c.cold then ⟨0, -128⟩ else (st.vec 12 1).term
  let a0 : Bf := if c.cold then Bf.zero else st.vec 12 2
  let h0 : Term_ := if !c.cold then (st.vec 12 3).term
    else match (if st.src 0 = 0x40 then none else ref) with
      | some a => clampT a
      | none => p0
  let g : Term_ := if c.hold then h0 else match ref with | some a => clampT a | none => h0
  let ev1 : List (Nat × Nat × Nat) := match ref with
    | some a => if !c.hold && !bfEq g h0 && !bfEq g a then [(0x0B11, a.bfWord, g.bfWord)] else []
    | none => []
  let held := g
  let d := bfSub held p0
  let (aa, s1) := bfRed (amax.mul amax)
  let c1 := aa.mul c2
  let (c1r, s2) := bfRed c1
  let (da, s3) := bfRed d.abs
  let (two, s4) := bfRed ⟨amax.m * 2 ^ 24, amax.e⟩
  let (rad, s5) := bfRed (bfSum [c1r.mul c1r, two.mul da])
  let vb := bfSub (bfSqrt rad) c1
  let vs := (if bfLt vb vmax then vb else vmax).withSign d.sign
  let dv := bfSub vs v0
  let (a2, s6) := bfRed (a0.mul a0)
  let ease := decide (dv.sign ≠ 0) && decide (dv.sign = a0.term.sign) && !bfLt (a2.mul c2) dv.abs
  let ad := if ease then ⟨0, -128⟩ else amax.term.withSign dv.sign
  let a1 := bfSum [a0.term, bfClamp (bfSub ad a0.term) jt.term.neg jt.term]
  let (a1r, s7) := bfRed a1
  let v1 := bfClamp (bfSum [v0, a1r.mul t]) vmax.neg vmax
  let (v1r, s8) := bfRed v1
  let p1 := bfSum [p0, v1r.mul t]
  let (jtt, s9) := bfRed (jt.mul t)
  let arrive := !bfLt (jtt.mul t) (bfSub held p1).abs && !bfLt (jt.mul t) v1.abs && !bfLt jt.term a1.abs
  let z : Term_ := ⟨0, -128⟩
  let p2 := if arrive then held else p1
  let v2 := if arrive then z else v1
  let a3 := if arrive then z else a1
  let stop : Option Term_ := if bfLt p2 lo then some lo else if bfLt hi p2 then some hi else none
  let sat := s1 || s2 || s3 || s4 || s5 || s6 || s7 || s8 || s9
  match stop with
  | some l => ⟨[l, z, z], [l, z, z, held], sat, false, [], ev1 ++ [(0x0B12, l.bfWord, v2.bfWord)]⟩
  | none => ⟨[p2, v2, a3], [p2, v2, a3, held], sat, false, [], ev1⟩

/-- One stage's computation in a sample. -/
def stRun (st : Stage) (xs : List Bf) (c : StageIn) : StageOut :=
  if st.type = 1 then stScale st xs c
  else if st.type = 2 then stBiquad st xs
  else if st.type = 3 then stPid st xs c
  else if st.type = 4 then stStateSpace st xs
  else if st.type = 5 then stLookup st xs
  else if st.type = 6 then stLimit st xs c
  else if st.type = 7 then stProfile st xs c
  else stSplit st xs

/-- A list with word k replaced. -/
def setW (st : Stage) (k : Nat) (v : Word) : Stage := lmod st k (fun _ => v)

/-- A BF vector written from its exponent word (R213). -/
def putVec (st : Stage) (k : Nat) (e : Int) : List Int → Stage
  | ms => (List.range ms.length).foldl (fun s i => setW s (k + 1 + i) (word (twos 24 (ms.getD i 0)))) (setW st k (word (twos 8 e * 2 ^ 24)))

/-- A mantissa list filled up with zeros to n. -/
def padM (n : Nat) (l : List Int) : List Int := l ++ List.replicate (n - l.length) 0

/-- R215, Table 8.2: the stage with its outputs and state reduced and written, and SAT and TRACKING set; and whether any
reduction saturated. -/
def stageWrite (st : Stage) (o : StageOut) : Stage × Bool :=
  let y := bfReduce o.ys
  let st1 := putVec st 2 y.e (padM 4 y.ms)
  let (st2, s2) : Stage × Bool := match st.state with
    | some (k, n) => (let x := bfReduce o.st; (putVec st1 k x.e (padM n x.ms), x.sat))
    | none => (st1, false)
  let sat := o.sat || y.sat || s2
  (setW st2 0 (putFlag (putFlag (st2.w 0) 24 sat) 25 o.track), sat)

end Sys2Proof.Machine
end

