-- ==== Sys2Proof/Machine/TillerBase.lean ====
section
/-! DEFINITION. Tiller loops and descriptors (R205 to R207, R230, R245): the descriptor region, the checks ENABLE makes, pending
replacements, PROFILE_START targets, and what the end of a Tiller sheaf does. -/
namespace Sys2Proof.Machine

/-- A loop at reset: DISABLED. -/
def loopReset : Loop :=
  ⟨0, 0, 0, false, false, none, 0, 0, none, [], [], [], [], [], false, false, false, false, false, false, false, false, 0, none, none⟩

/-- A loop. -/
def Half.loop (m : Half) (n : Nat) : Loop := sget loopReset m.tlr.loops n

/-- Writes a loop. -/
def Half.setLoop (m : Half) (n : Nat) (x : Loop) : Half :=
  { m with tlr := { m.tlr with loops := sset loopReset m.tlr.loops n x } }

/-- Word k of descriptor d (R205). -/
def Half.dw (m : Half) (d k : Nat) : Word := sget 0 m.tlr.desc (d * 512 + k)

/-- Writes a descriptor word. -/
def Half.setDw (m : Half) (d k : Nat) (v : Word) : Half :=
  { m with tlr := { m.tlr with desc := sset 0 m.tlr.desc (d * 512 + k) v } }

/-- Writes descriptor words from word k. -/
def Half.setDws (m : Half) (d k : Nat) : List Word → Half
  | [] => m
  | v :: l => (m.setDw d k v).setDws d (k + 1) l

/-- Words of a descriptor from word k. -/
def Half.dws (m : Half) (d k n : Nat) : List Word := (List.range n).map (fun i => m.dw d (k + i))

/-- R205, R248: the descriptor is in use by a loop that is enabled or being disabled, or is a loop's pending replacement. -/
def Half.descUsed (m : Half) (d : Nat) : Bool :=
  m.tlr.loops.any (fun e => (decide (e.2.st ≠ 0) && decide (e.2.desc = d)) || decide (e.2.pend = some d))

/-- NSTAGES of a descriptor. -/
def Half.dStages (m : Half) (d : Nat) : Nat := fld (m.dw d 0) 8 4

/-- Input point i of a descriptor; 0xFFFF for none. -/
def Half.dIn (m : Half) (d i : Nat) : Nat := fld (m.dw d (3 + i / 2)) (16 * (i % 2)) 16

/-- Output point k of a descriptor; 0xFFFF for none. -/
def Half.dOut (m : Half) (d k : Nat) : Nat := fld (m.dw d (7 + k / 2)) (16 * (k % 2)) 16

/-- LEVEL of a descriptor. -/
def Half.dLevel (m : Half) (d : Nat) : Nat := fld (m.dw d 10) 0 5

/-- R206: the places of n stages from word k on. -/
def Half.stagesAt (m : Half) (d : Nat) : Nat → Nat → List Nat
  | 0, _ => []
  | n + 1, k => k :: m.stagesAt d n (k + fld (m.dw d k) 8 8)

/-- The places of a descriptor's stages. -/
def Half.stages (m : Half) (d : Nat) : List Nat := m.stagesAt d (m.dStages d) 32

/-- The stage at word k of a descriptor. -/
def Half.stageAt (m : Half) (d k : Nat) : Stage := m.dws d k (max (fld (m.dw d k) 8 8) 9)

/-- R206, R242: the RS registers of a descriptor, by first word and number of words: LAST_T, words 24 and 25, TRIP_T, and words 2 to 6 and
the state of each stage. -/
def Half.descGroups (m : Half) (d : Nat) : List (Nat × Nat) :=
  [(18, 2), (24, 2), (29, 2)] ++ (m.stages d).flatMap (fun k =>
    (k + 2, 5) :: (match (m.stageAt d k).state with | some (i, n) => [(k + i, n + 1)] | none => []))

/-- R206: the RS register that word o of the descriptor region lies in, by its first word and number of words. -/
def Half.descShape (m : Half) (o : Nat) : Option (Nat × Nat) :=
  ((m.descGroups (o / 512)).find? (fun g => decide (g.1 ≤ o % 512) && decide (o % 512 < g.1 + g.2))).map
    (fun g => (o - o % 512 + g.1, g.2))

/-- The stage that word w of a descriptor lies in, as its header and stages stand, by its place. -/
def Half.stageOf (m : Half) (d w : Nat) : Option Nat :=
  (m.stages d).find? (fun k => decide (k ≤ w) && decide (w < k + max (fld (m.dw d k) 8 8) 7))

/-- The bits of word w of a free descriptor that a store writes (R206, R217, R231, Tables 8.1, 8.2, 9.1, 9.3 and 9.5): not the runtime
words, the RO fields of a stage, nor reserved bits. -/
def Half.descBits (m : Half) (d w : Nat) : Nat :=
  if 17 ≤ w ∧ w ≤ 31 then 0
  else if w < 32 then 0xFFFFFFFF
  else
    match m.stageOf d w with
    | none => 0xFFFFFFFF
    | some k =>
      let t := fld (m.dw d k) 0 8
      let o := w - k
      if o = 0 then 0xFFFFFF
      else if 2 ≤ o ∧ o ≤ 6 then 0
      else if t = 7 ∧ 12 ≤ o ∧ o ≤ 16 then 0
      else if t = 7 ∧ o = 20 then 0xFF
      else if t = 1 ∧ o = 15 then 0x3FFFF
      else 0xFFFFFFFF

/-- A store to a word of a free descriptor (R205). DESIGN CHOICE (log entry 67): INIT takes its reset value 0x40 (Table 9.1) where a stage
becomes a PROFILE stage whose word 20 holds zero. -/
def Half.descStore (m : Half) (d w : Nat) (v : Word) : Half :=
  let b := word (m.descBits d w)
  let old := m.dw d w
  let m1 := m.setDw d w ((old &&& ~~~ b) ||| (v &&& b))
  if m.stageOf d w = some w ∧ fld v 0 8 = 7 ∧ fld old 0 8 ≠ 7 ∧ m1.dw d (w + 20) = 0 then m1.setDw d (w + 20) 0x40 else m1

/-- R207: an element reference is valid for a stage below whose number stand stages of these output counts. -/
def refOk (nouts : List Nat) (r : Nat) : Bool :=
  decide (r ≤ 7) || decide (r = 0x40) || (decide (0x80 ≤ r) && decide ((r - 0x80) % 4 < nouts.getD ((r - 0x80) / 4) 0))

/-- R218, Table 8.3: TYPE, dimensions and LEN of a stage: a fault of Table 8.10 and its word, within the stage. -/
def stShape (st : Stage) : Nat × Nat :=
  let t := st.type
  let p := st.nin
  let q := st.nout
  if t = 0 ∨ 8 < t then (3, 0)
  else
    let okIn := if t = 3 then decide (2 ≤ p) && decide (p ≤ 4) else if t = 5 ∨ t = 7 ∨ t = 8 then decide (p = 1)
      else decide (1 ≤ p) && decide (p ≤ 4)
    let okOut := if t = 3 ∨ t = 5 then decide (q = 1) else if t = 7 then decide (q = 3)
      else if t = 4 ∨ t = 8 then decide (1 ≤ q) && decide (q ≤ 4) else decide (q = p)
    let len := if t = 1 then 16 else if t = 2 then 21 else if t = 3 then 17
      else if t = 4 then 10 + packedLen st.dimN p q + st.dimN
      else if t = 5 then 74 else if t = 6 then 15 else if t = 7 then 21 else 23
    if !okIn || !okOut then (6, 0)
    else if t = 4 ∧ (st.dimN = 0 ∨ 16 < st.dimN) then (6, 7)
    else if st.len ≠ len then (4, 0)
    else (0, 0)

/-- R224, R231, R238: the checks of one stage's own words. -/
def stBody (st : Stage) (period : Nat) (nouts : List Nat) : Nat × Nat :=
  let mode := fld (st.w 15) 16 2
  let pos (k : Nat) : Bool := decide (0 < (st.sc k).m)
  if st.type = 5 then
    let n := fld (st.w 7) 0 6
    if n < 2 ∨ 32 < n then (6, 7)
    else
      match (List.range (n - 1)).find? (fun i => !bfLt (st.vec 8 i).term (st.vec 8 (i + 1)).term) with
      | some i => (8, 10 + i)
      | none => (0, 0)
  else if st.type = 1 then
    if mode = 3 ∨ (mode ≠ 0 ∧ fld (st.w 15) 0 16 = 0) then (3, 15)
    else if mode = 2 ∧ st.nin % 2 = 1 then (6, 15)
    else (0, 0)
  else if st.type = 7 then
    let sec := (bfRed ⟨(period : Int) * 2 ^ 60 / 1000, 46 - 60⟩).1
    if st.w 17 ≠ sec.toWord then (2, 17)
    else if !pos 7 then (6, 7)
    else if !pos 8 then (6, 8)
    else if !pos 9 then (6, 9)
    else if !bfLt (st.sc 10).term (st.sc 11).term then (6, 10)
    else if bfLt (st.sc 8).term (st.sc 18).term then (6, 18)
    else if bfLt (st.sc 7).term ((st.sc 8).mul (st.sc 17)) then (6, 8)
    else if !refOk nouts (fld (st.w 20) 0 8) then (5, 20)
    else (0, 0)
  else (0, 0)

/-- The checks of the stages at places ks, below which stand stages of these output counts: a fault and its descriptor word. -/
def Half.stCheck (m : Half) (d period : Nat) : List Nat → List Nat → Nat × Nat
  | _, [] => (0, 0)
  | nouts, k :: ks =>
    if 512 ≤ k then (4, 511)
    else
      let st := m.stageAt d k
      match stShape st with
      | (0, _) =>
        if 512 < k + st.len then (4, k)
        else if (List.range 4).any (fun j => if j < st.nin then !refOk nouts (st.src j) else decide (st.src j ≠ 0x40)) then (5, k + 1)
        else
          match stBody st period nouts with
          | (0, _) => m.stCheck d period (nouts ++ [st.nout]) ks
          | (f, w) => (f, k + w)
      | (f, w) => (f, k + w)

/-- R230: the outputs of a descriptor: each refers to a valid element and is a configured commandable point. -/
def Half.outCheck (m : Half) (d : Nat) : Nat × Nat :=
  let nouts := (m.stages d).map (fun k => fld (m.dw d k) 20 4)
  match (List.range 4).find? (fun k => decide (m.dOut d k ≠ 0xFFFF) && !refOk nouts (fld (m.dw d 9) (8 * k) 8)) with
  | some _ => (5, 9)
  | none =>
    match (List.range 4).find? (fun k => decide (m.dOut d k ≠ 0xFFFF) && !(m.configured (m.dOut d k) && m.commandable (m.dOut d k))) with
    | some k => (7, 7 + k / 2)
    | none => (0, 0)

/-- The first fault of a list of checks. -/
def firstFault : List (Nat × Nat) → Nat × Nat
  | [] => (0, 0)
  | (0, _) :: l => firstFault l
  | f :: _ => f

/-- R205 to R207, R218, R224, R230, R231, R238, R241: the checks ENABLE makes of a descriptor: a fault of Table 8.10 and its
word. DESIGN CHOICE (log entry 67): a reserved word 17 that is not zero gives fault 0x01. -/
def Half.descCheck (m : Half) (d : Nat) : Nat × Nat :=
  let w := m.dw d
  let n := m.dStages d
  let period := (w 1).toNat
  if m.descUsed d then (9, 0)
  else if n = 0 ∨ 8 < n ∨ 1 < fld (w 0) 0 2 ∨ w 0 &&& 0xFFFFF0FC ≠ 0 then (1, 0)
  else if w 17 ≠ 0 then (1, 17)
  else if period < 10 ∨ 600000 < period then (2, 1)
  else if period ≤ (w 2).toNat then (2, 2)
  else if m.dLevel d = 0 ∨ 16 < (w 10).toNat then (7, 10)
  else
    match m.stCheck d period [] (m.stages d) with
    | (0, _) =>
      if (Bf.ofWord (w 11)).m < 0 then (5, 11)
      else if n ≤ fld (w 12) 24 3 ∨ m.dIn d (fld (w 12) 28 3) = 0xFFFF then (5, 12)
      else m.outCheck d
    | f => f

/-- The places of a descriptor's PROFILE stages. -/
def Half.profiles (m : Half) (d : Nat) : List Nat := (m.stages d).filter (fun k => decide (fld (m.dw d k) 0 8 = 7))

/-- R232: the PROFILE stage that PROFILE_START acts on: the loop's lowest-numbered one. -/
def Half.startProfile (m : Half) (d : Nat) : Option Nat := (m.profiles d).head?

/-- R232: a descriptor has a PROFILE stage with SRC0 = 0x40. -/
def Half.freeProfile (m : Half) (d : Nat) : Bool := (m.profiles d).any (fun k => decide (fld (m.dw d (k + 1)) 0 8 = 0x40))

/-- R232: what the entry check of a PROFILE_START answers: REFUSED, or 0. -/
def Half.profileMay (m : Half) (n : Nat) (target : Nat) : Nat :=
  if 511 < n ∨ (m.loop n).st = 0 ∨ !m.freeProfile (m.loop n).desc ∨ !fIsFin (fdec f32 target) then 5 else 0

/-- R215, R229: a saturation is counted and recorded when SAT becomes set. -/
def Half.tlrSat (m : Half) (n stage : Nat) : Half :=
  let d := (m.loop n).desc
  let c := stickTo 0xFFFF (fld (m.dw d 25) 0 16) 1
  ((m.setDw d 25 (putFld (m.dw d 25) 0 16 c)).ev 0x0B04 n stage c 0).irq 0x040 0

/-- LSTAT and TLR.LOOP_STAT bits [11:0] (Table 8.10). -/
def Half.lstat (m : Half) (n : Nat) : Nat :=
  let x := m.loop n
  x.st * 2 ^ 8 + (decide (fld (m.dw x.desc 0) 0 2 = 1)).toNat * 2 ^ 5 + x.first.toNat * 2 ^ 4 + x.track.toNat * 2 ^ 3
    + x.overrun.toNat * 2 ^ 2 + x.inbad.toNat * 2 + x.sat.toNat

/-- LSTAT of a loop takes its flags. -/
def Half.putLstat (m : Half) (n : Nat) : Half := m.setDw (m.loop n).desc 24 (word (m.lstat n))

/-- TLR.STAT and TLR.DUSE follow the loops (Table 8.9). -/
def Half.tlrCount (m : Half) : Half :=
  let on := m.tlr.loops.filter (fun e => decide (e.2.st ≠ 0))
  let used := m.tlr.loops.flatMap (fun e => (if e.2.st ≠ 0 then [e.2.desc] else []) ++ e.2.pend.toList)
  let m1 := m.wrN rTlrStat on.length
  (List.range 16).foldl (fun m k => m.wrN (rTlrDuse k) (maskOf ((used.filter (fun d => decide (d / 32 = k))).map (· % 32)))) m1

/-- PROFILE_START (R232): the target that the loop uses from its next sample. A reduction that saturates sets the stage's SAT (R215). -/
def Half.profileStart (m : Half) (n : Nat) (target : Nat) : Half :=
  let x := m.loop n
  if x.st = 0 then m
  else
    let (b, s) := bfRed (bfOfFv (fdec f32 target))
    let m1 := m.setLoop n { x with target := some b.toWord, sat := x.sat || s }
    match (if s then m.startProfile x.desc else none) with
    | none => m1
    | some k =>
      let i := (m.stages x.desc).findIdx (fun j => decide (j = k))
      let m2 := m1.setDw x.desc k (putFlag (m1.dw x.desc k) 24 true)
      (if flag (m.dw x.desc k) 24 then m2 else m2.tlrSat n i).putLstat n

/-- R237: while the TLR page is locked a replacement may not change words 10 to 16 or words 7 to 11 of a PROFILE stage. -/
def Half.swapLocked (m : Half) (old d : Nat) (st : Stamp) : Bool :=
  m.rdB (pgLock 0x040) 0 && decide (stampClass st ≠ 1) &&
    (decide (m.dws old 10 7 ≠ m.dws d 10 7)
      || decide ((m.profiles old).map (fun k => m.dws old (k + 7) 5) ≠ (m.profiles d).map (fun k => m.dws d (k + 7) 5)))

/-- R245: what the entry check of a LOOP_SWAP answers. -/
def Half.swapMay (m : Half) (n d : Nat) (st : Stamp) : Nat :=
  if 511 < n ∨ 511 < d ∨ (m.loop n).st = 0 ∨ (m.loop n).leaving then 5
  else if ((m.setLoop n { m.loop n with pend := none }).descCheck d).1 ≠ 0 then 5
  else if m.swapLocked (m.loop n).desc d st then 3
  else 0

/-- LOOP_SWAP (R246, R248): the replacement becomes the loop's pending descriptor, unless the loop or the descriptor no longer
allows it: then the swap is skipped with event 0x0B15. -/
def Half.loopSwap (m : Half) (n d : Nat) : Half :=
  let x := m.loop n
  let m1 := m.setLoop n { x with pend := none }
  let f := m1.descCheck d
  if x.st = 0 ∨ x.leaving then m.ev 0x0B15 n d 0 0
  else if f.1 ≠ 0 then m.ev 0x0B15 n d f.1 0
  else (m.setLoop n { x with pend := some d }).tlrCount

/-- Several outputs take a new LAST_OUT (R210). -/
def Half.lastOuts (m : Half) : List (Nat × Nat × Word) → Half
  | [] => m
  | (n, k, w) :: l => (m.setDw (m.loop n).desc (20 + k) w).lastOuts l

/-- The samples of several loops have ended: DONE, with what they had to relinquish, or ABORTED. -/
def Half.loopsFree (m : Half) (done : Bool) : List Nat → Half
  | [] => m
  | n :: l => (m.setLoop n { m.loop n with busy := false, relq := if done then [] else (m.loop n).relq }).loopsFree done l

/-- R212: a DISABLE's relinquish sheaf is DONE: the loop is DISABLED and its descriptors free. -/
def Half.loopOff (m : Half) (n : Nat) : Half := (m.setLoop n loopReset).tlrCount

/-- R210, R212: the Tiller's sheaf has reached DONE; TLR.MAX_LATE takes the lateness of a batch's sheaf (Table 8.9). -/
def Half.tlrDone (m : Half) : Half :=
  match m.tlr.jobs with
  | [] => m
  | j :: js =>
    let m1 := ({ m with tlr := { m.tlr with jobs := js } }).lastOuts j.outs
    let m2 := m1.loopsFree true j.fin
    let m3 := match j.dis with | some n => m2.loopOff n | none => m2
    if j.dis.isSome then m3 else m3.wrN rTlrMaxLate (max (m3.rdN rTlrMaxLate) ((m3.up - j.grid) / 1000))

/-- Outputs whose write was aborted are written again in the next sample (R210). -/
def Half.redoOuts (m : Half) : List (Nat × Nat × Word) → Half
  | [] => m
  | (n, k, _) :: l => (m.setLoop n { m.loop n with redo := insNat (m.loop n).redo k }).redoOuts l

/-- R210: the Tiller's sheaf has ended ABORTED. A relinquish sheaf of a DISABLE is tried again at the next sample instant. -/
def Half.tlrAborted (m : Half) (reason : Nat) : Half :=
  match m.tlr.jobs with
  | [] => m
  | j :: js =>
    let m1 := { m with tlr := { m.tlr with jobs := js } }
    let m2 := ((m1.ev 0x0B03 reason j.acts.length ((j.fin.head?.or j.dis).getD ((j.outs.map (·.1)).headD 0)) 0).irq 0x040 3).redoOuts j.outs
    m2.loopsFree false j.fin

end Sys2Proof.Machine
end

