-- ==== Sys2Proof/Machine/TillerRun.lean ====
section
/-! DEFINITION. A sample of the Tiller engine (R208 to R212, R222, R236 to R248): the batch of due loops, their inputs, stages,
supervisor and outputs, and the Tiller sheaves that the batch asks for. -/
namespace Sys2Proof.Machine

/-- R210: a write of the Tiller's sheaf, with the LOCAL stamp. -/
def tlrAct (point level : Nat) (relinq : Bool) (v : Dword) : Act :=
  ⟨1, point, level + (if relinq then 32 else 0), v, 0, [], localStamp, false⟩

/-- Several words copied from one descriptor to another. -/
def Half.copyDws (m : Half) (old new : Nat) : List (Nat × Nat) → Half
  | [] => m
  | (a, b) :: l => (m.setDw new b (m.dw old a)).copyDws old new l

/-- R246: a stage is copied: both descriptors have one of the same TYPE, NIN and NOUT, and for STATESPACE the same n. -/
def stSame (a b : Stage) : Bool :=
  decide (a.type = b.type) && decide (a.nin = b.nin) && decide (a.nout = b.nout) && (decide (a.type ≠ 4) || decide (a.dimN = b.dimN))

/-- The words of a stage that R246 copies: words 2 to 6, the state exponent and the state words. -/
def stCopied (st : Stage) : List Nat :=
  [2, 3, 4, 5, 6] ++ (match st.state with | some (k, n) => (List.range (n + 1)).map (fun i => k + i) | none => [])

/-- The words of a stage that a start clears: its outputs, its state, SAT and TRACKING. -/
def Half.clearStage (m : Half) (d k : Nat) : Half :=
  let st := m.stageAt d k
  ((stCopied st).foldl (fun m w => m.setDw d (k + w) 0) m).setDw d k (st.w 0 &&& 0xFCFFFFFF)

/-- Clears every stage of a descriptor. -/
def Half.clearStages (m : Half) (d : Nat) : List Nat → Half
  | [] => m
  | k :: l => (m.clearStage d k).clearStages d l

/-- R206, R242: ENABLE clears the runtime words of a descriptor. -/
def Half.clearRun (m : Half) (d : Nat) : Half :=
  (m.setDws d 18 (List.replicate 14 0)).clearStages d (m.stages d)

/-- R246: the stages copied from one descriptor to another, by their number, and how many. -/
def Half.copyStages (m : Half) (old new : Nat) : List (Nat × Nat) → Half × Nat
  | [] => (m, 0)
  | (a, b) :: l =>
    if stSame (m.stageAt old a) (m.stageAt new b) then
      let (m1, c) := (m.copyDws old new ((stCopied (m.stageAt old a)).map (fun w => (a + w, b + w)))).copyStages old new l
      (m1, c + 1)
    else m.copyStages old new l

/-- R246: LAST_OUTn is copied for each output whose point is the same in both descriptors. -/
def Half.copyOuts (m : Half) (old new : Nat) : Half :=
  m.copyDws old new (((List.range 4).filter (fun k => decide (m.dOut old k = m.dOut new k))).map (fun k => (20 + k, 20 + k)))

/-- R247: the old outputs that the replacement does not write, or writes at another LEVEL, with the old LEVEL. -/
def Half.swapDrops (m : Half) (old new : Nat) : List (Nat × Nat) :=
  (((List.range 4).map (m.dOut old)).filter (fun p => decide (p ≠ 0xFFFF)
    && !((List.range 4).any (fun k => decide (m.dOut new k = p)) && decide (m.dLevel old = m.dLevel new)))).map
    (fun p => (p, m.dLevel old))

/-- R246: stage k of both descriptors is copied. -/
def Half.stageKept (m : Half) (old new i : Nat) : Bool :=
  match (m.stages old)[i]?, (m.stages new)[i]? with
  | some a, some b => stSame (m.stageAt old a) (m.stageAt new b)
  | _, _ => false

/-- DESCRIPTOR_COPY (R246, R247): the first sample after a latch runs from the replacement. An input that reads another point than before
has been read by nothing yet (R209), an element of a stage that is not copied holds nothing, and no PROFILE stage starts anew (R233). -/
def Half.takePend (m : Half) (n : Nat) : Half :=
  let x := m.loop n
  match x.pend with
  | none => m
  | some d =>
    let o := x.desc
    let m1 := (m.clearRun d).copyDws o d ([18, 19, 24, 25, 26, 27, 28, 29, 30, 31].map (fun k => (k, k)))
    let (m2, c) := (m1.copyOuts o d).copyStages o d ((m1.stages o).zip (m1.stages d))
    let kept := (List.range 8).any (fun i => decide ((m.stages d)[i]? = m.startProfile d) && m.stageKept o d i)
    let same (i : Nat) : Bool := decide (m.dIn o i = m.dIn d i) && decide (m.dIn d i ≠ 0xFFFF)
    let m3 := m2.setDw d 0 (putFld (m2.dw d 0) 0 2 (fld (m2.dw o 0) 0 2))
    let m4 := m3.setLoop n
      { x with
        desc := d
        pend := none
        first := true
        cold := false
        ins := x.ins.filter (fun e => same e.1)
        bad := x.bad.filter same
        aged := x.aged.filter (fun a => m.stageKept o d (a / 4))
        relq := x.relq ++ m.swapDrops o d
        target := if kept then x.target else none }
    (m4.tlrCount).ev 0x0B14 n o d c

/-- R243: an AUTO or MANUAL command takes effect at the next sample. -/
def Half.takeCmd (m : Half) (n : Nat) : Half :=
  let x := m.loop n
  let d := x.desc
  let m1 := if (x.cmd = 4 ∨ x.cmd = 5) ∧ 3 ≤ x.st ∧ x.st ≤ 5 then m.ev 0x0B16 n x.st x.who.toNat 0 else m
  if x.cmd = 4 then
    (m1.setLoop n { x with st := 2, cmd := 0 }).setDw d 0 (putFld (m.dw d 0) 0 2 1)
  else if x.cmd = 5 then
    let m2 := (m1.setDws d 26 (List.replicate 6 0)).setDw d 0 (putFld (m.dw d 0) 0 2 0)
    if x.st = 1 then m2.setLoop n { x with cmd := 0, exc := false }
    else m2.setLoop n { x with st := 1, cmd := 0, first := true, exc := false }
  else m

/-- R209: one input of a loop is read. -/
def Half.tlrInput (m : Half) (n i : Nat) : Half :=
  let x := m.loop n
  let p := m.dIn x.desc i
  if p = 0xFFFF then m
  else
    let r := m.pt p
    if m.configured p && r.quality.getLsbD 0 then
      let (b, s) := bfRed (bfOfFv (valueFv (recType r) r.value))
      m.setLoop n { x with ins := sput x.ins i b.toWord, bad := x.bad.filter (fun k => decide (k ≠ i)), satIn := x.satIn || s }
    else
      let m1 := m.setLoop n { x with bad := insNat x.bad i }
      if i ∈ x.bad then m1 else (m1.ev 0x0B06 n i p r.quality.toNat).irq 0x040 2

/-- R209: the inputs of a loop are read, and the saturation of their conversion recorded. -/
def Half.tlrInputs (m : Half) (n : Nat) : Half :=
  let was := (m.loop n).satIn
  let m1 := (List.range 8).foldl (fun m i => m.tlrInput n i) (m.setLoop n { m.loop n with satIn := false })
  if (m1.loop n).satIn then
    let m2 := m1.setLoop n { m1.loop n with sat := true }
    if was then m2 else m2.tlrSat n 8
  else m1

/-- R207: the value of an element reference. -/
def Half.elem (m : Half) (n : Nat) (outs : List (List Bf)) (r : Nat) : Bf :=
  if r ≤ 7 then (match sfind (m.loop n).ins r with | some w => Bf.ofWord w | none => Bf.zero)
  else if r < 0x80 then Bf.zero
  else (outs.getD ((r - 0x80) / 4) []).getD ((r - 0x80) % 4) Bf.zero

/-- R222: a PID stage whose tracking source is SRC3 tracks. -/
def Half.tracks (m : Half) (n src : Nat) : Bool :=
  let x := m.loop n
  let held := decide (x.st = 3) || decide (x.st = 4) || decide (x.st = 5)
  let p := m.dIn x.desc src
  decide (x.st = 2) || held ||
    (decide (src ≤ 7) && decide (p ≠ 0xFFFF)
      && ((m.pt p).quality.getLsbD 2 || decide ((m.pt p).level.toNat < m.dLevel x.desc)))

/-- R239: the age in ns, at instant now, of the element that a source refers to. -/
def Half.age (m : Half) (n now src : Nat) : Nat :=
  let p := m.dIn (m.loop n).desc src
  if src ≤ 7 ∧ p ≠ 0xFFFF then now - (m.pt p).time.toNat else 0

/-- One stage of a sample: its outputs, and the half with its words written, its events recorded and the loop's flags set. -/
def Half.tlrStage (m : Half) (n now s k : Nat) (outs : List (List Bf)) : Half × List Bf :=
  let x := m.loop n
  let d := x.desc
  let st := m.stageAt d k
  let xs := (List.range 4).map (fun j => if j < st.nin then m.elem n outs (st.src j) else Bf.zero)
  let ages := (List.range 4).map (fun j => if j < st.nin then m.age n now (st.src j) else 0)
  let o := stRun st xs ⟨x.first, x.cold, m.tracks n (st.src 3), decide (x.st = 3),
    (if m.startProfile d = some k then x.target.map Bf.ofWord else none), m.elem n outs (fld (st.w 20) 0 8), ages⟩
  let (st', sat) := stageWrite st o
  let m1 := m.setDws d k st'
  let m2 := o.evs.foldl (fun m e => m.ev e.1 n s e.2.1 e.2.2) m1
  let aged := o.aged.map (fun j => 4 * s + j)
  let m3 := (aged.filter (fun a => a ∉ x.aged)).foldl
    (fun m a => m.ev 0x0B13 n s (a % 4) (stickTo 0xFFFFFFFF (ages.getD (a % 4) 0 / oneMs) 0)) m2
  let m4 := m3.setLoop n
    { m3.loop n with
      aged := (x.aged.filter (fun a => decide (a / 4 ≠ s))) ++ aged
      track := x.track || o.track
      sat := x.sat || sat }
  let m5 := if sat && !flag (st.w 0) 24 then m4.tlrSat n s else m4
  (m5, (List.range st.nout).map (fun j => Bf.ofVec (st'.w (3 + j)) (st'.ex 2)))

/-- The stages of a sample, in order (R206). -/
def Half.tlrEval (m : Half) (n now : Nat) : Nat → List (List Bf) → List Nat → Half × List (List Bf)
  | _, outs, [] => (m, outs)
  | s, outs, k :: ks =>
    let (m1, y) := m.tlrStage n now s k outs
    m1.tlrEval n now (s + 1) (outs ++ [y]) ks

/-- FE_TRIP (R241, Table 9.4). -/
def Half.feTrip (m : Half) (n now : Nat) (err : Word) (elapsed : Nat) : Half :=
  let x := m.loop n
  let d := x.desc
  let action := fld (m.dw d 12) 20 2
  let m1 := m.setDw d 25 (putFld (m.dw d 25) 16 16 (stickTo 0xFFFF (fld (m.dw d 25) 16 16) 1))
  let m2 := ((m1.setDw d 29 (word now)).setDw d 30 (word (now / 2 ^ 32))).setDw d 31 (word action)
  let m3 := (m2.irq 0x040 4).ev 0x0B10 n action err.toNat elapsed
  if action = 0 then m3.setDw d 26 0
  else if action = 1 then
    (m3.profiles d).foldl (fun m k => m.setDw d (k + 16) (m.dw d (k + 13))) (m3.setLoop n { x with st := 3 })
  else if action = 2 then m3.setLoop n { x with st := 4 }
  else
    let pts := ((List.range 4).map (m.dOut d)).filter (fun p => decide (p ≠ 0xFFFF))
    m3.setLoop n { x with st := 5, relq := x.relq ++ pts.map (fun p => (p, m.dLevel d)) }

/-- R241, R242, Table 9.6: the supervisor in one sample. -/
def Half.supervise (m : Half) (n now : Nat) (outs : List (List Bf)) : Half :=
  let x := m.loop n
  let d := x.desc
  let limit := Bf.ofWord (m.dw d 11)
  if x.st = 2 then (m.setDw d 26 0).setLoop n { x with exc := false }
  else if x.st ≠ 1 ∨ limit.m ≤ 0 then m
  else
    let fb := fld (m.dw d 12) 28 3
    let err := bfSub (((outs.getD (fld (m.dw d 12) 24 3) []).getD 0 Bf.zero).term) (m.elem n outs fb).term
    let ew := (bfRed err).1
    let pk := (bfRed err.abs).1
    let m1 := m.setDw d 27 ew.toWord
    let m2 := if bfLt (Bf.ofWord (m.dw d 28)).term pk.term then m1.setDw d 28 pk.toWord else m1
    if bfLt limit.term err.abs ∨ fb ∈ x.bad then
      let el := if x.exc then stickTo 0xFFFFFFFF (m.dw d 26).toNat (now / oneMs - x.lastMs) else 0
      let m3 := (m2.setDw d 26 (word el)).setLoop n { x with exc := true }
      if fld (m.dw d 12) 0 20 ≤ el then m3.feTrip n now ew.toWord el else m3
    else (m2.setDw d 26 0).setLoop n { x with exc := false }

/-- R210, Table 9.4: the BF scalar that output k of a loop is given in this sample; none where it is not written. -/
def Half.tlrOut (m : Half) (n : Nat) (outs : List (List Bf)) (k : Nat) : Option Bf :=
  let x := m.loop n
  if m.dOut x.desc k = 0xFFFF then none
  else if x.st = 1 then some (m.elem n outs (fld (m.dw x.desc 9) (8 * k) 8))
  else if x.st = 4 then some (Bf.ofWord (m.dw x.desc (13 + k)))
  else none

/-- R210: the writes of a loop in one sample: actions, and the outputs they write. -/
def Half.tlrWrites (m : Half) (n : Nat) (outs : List (List Bf)) : List (Act × Nat × Nat × Word) :=
  let x := m.loop n
  let d := x.desc
  (List.range 4).filterMap (fun k =>
    match m.tlrOut n outs k with
    | none => none
    | some b =>
      let last := (Bf.ofWord (m.dw d (20 + k))).toWord
      if x.first || decide (k ∈ x.redo) || decide (b.toWord ≠ last) then
        match toType (recType (m.pt (m.dOut d k))) b.toFv with
        | some (v, _) => some (tlrAct (m.dOut d k) (m.dLevel d) false v, n, k, b.toWord)
        | none => none
      else none)

/-- What a loop's sample asks the Tiller's sheaf for: its number, actions and outputs. -/
abbrev TlrAsk := Nat × List Act × List (Nat × Nat × Word)

/-- One loop's sample at instant now (R209 to R212, R243). -/
def Half.tlrLoop (m : Half) (n now : Nat) : Half × TlrAsk :=
  let m1 := ((m.takePend n).takeCmd n).tlrInputs n
  let m2 := m1.setLoop n { m1.loop n with track := false }
  let (m3, outs) := m2.tlrEval n now 0 [] (m2.stages (m2.loop n).desc)
  let m4 := m3.supervise n now outs
  let ws := m4.tlrWrites n outs
  let x := m4.loop n
  let acts := x.relq.map (fun e => tlrAct e.1 e.2 true 0) ++ ws.map (·.1)
  let m5 := m4.setLoop n
    { x with
      first := false
      cold := false
      redo := []
      inbad := !x.bad.isEmpty || !x.aged.isEmpty
      busy := !acts.isEmpty
      lastMs := now / oneMs }
  let m6 := (m5.setDw x.desc 18 (word now)).setDw x.desc 19 (word (now / 2 ^ 32))
  (m6.putLstat n, n, acts, ws.map (·.2))

/-- R211: a loop whose previous sample is not DONE skips the instant. -/
def Half.tlrSkip (m : Half) (n now : Nat) : Half :=
  let late := match m.tlr.jobs with | j :: _ => (m.up - j.grid) / 1000 | [] => 0
  (((m.setLoop n { m.loop n with overrun := true }).putLstat n).ev 0x0B02 n (now / oneMs % 2 ^ 32) late 0).irq 0x040 1

/-- R210: asks are gathered into Tiller sheaves of at most 64 actions; a loop's writes are never split. -/
def tlrGather (grid : Nat) : List TlrJob → List TlrAsk → List TlrJob
  | js, [] => js
  | js, (_, [], _) :: l => tlrGather grid js l
  | js, (n, acts, outs) :: l =>
    match js.getLast? with
    | some j =>
      if j.acts.length + acts.length ≤ 64 then
        tlrGather grid (js.dropLast ++ [{ j with acts := j.acts ++ acts, outs := j.outs ++ outs, fin := j.fin ++ [n] }]) l
      else tlrGather grid (js ++ [⟨acts, outs, [n], none, grid⟩]) l
    | none => tlrGather grid [⟨acts, outs, [n], none, grid⟩] l

/-- R208: the loop samples at an instant given in ms, on its grid and not yet seen, or at one that a step of the time base has passed. -/
def Half.tlrDue (m : Half) (ms n : Nat) : Bool :=
  let x := m.loop n
  let d := x.desc
  decide (1 ≤ x.st) && decide (x.st ≤ 5) && !x.leaving &&
    (x.owed.isSome || (decide (ms % (m.dw d 1).toNat = (m.dw d 2).toNat % (m.dw d 1).toNat) && decide (x.seenMs ≠ some ms)))

/-- The loops that sample at an instant, rising. -/
def Half.tlrBatch (m : Half) (ms : Nat) : List Nat := (m.tlr.loops.map (·.1)).filter (m.tlrDue ms)

/-- The instant has been seen by the loop (R208). -/
def Half.tlrSeen (m : Half) (n now : Nat) : Half := m.setLoop n { m.loop n with owed := none, seenMs := some (now / oneMs) }

/-- The instant that a loop samples at: the present one, or the one passed over that is owed. -/
def Half.tlrInstant (m : Half) (n now : Nat) : Nat := ((m.loop n).owed.map (· * oneMs)).getD now

/-- The samples of a batch, in loop order. -/
def Half.tlrLoops (m : Half) (now : Nat) : List Nat → Half × List TlrAsk
  | [] => (m, [])
  | n :: l =>
    if (m.loop n).busy then ((m.tlrSeen n now).tlrSkip n (m.tlrInstant n now)).tlrLoops now l
    else
      let (m1, a) := (m.tlrSeen n now).tlrLoop n (m.tlrInstant n now)
      let (m2, as) := m1.tlrLoops now l
      (m2, a :: as)

/-- R212: the sheaf that relinquishes a loop's outputs. -/
def Half.tlrRelease (m : Half) (n : Nat) : TlrJob :=
  let d := (m.loop n).desc
  let pts := ((List.range 4).map (m.dOut d)).filter (fun p => decide (p ≠ 0xFFFF))
  ⟨pts.map (fun p => tlrAct p (m.dLevel d) true 0), [], [], some n, m.up⟩

/-- The Tiller's sheaves join those that wait. -/
def Half.tlrPush (m : Half) (js : List TlrJob) : Half := { m with tlr := { m.tlr with jobs := m.tlr.jobs ++ js } }

/-- The points that the loops of a list read. -/
def Half.tlrReads (m : Half) (l : List Nat) : List Nat :=
  l.flatMap (fun n => ((List.range 8).map (m.dIn ((m.loop n).pend.getD (m.loop n).desc))).filter (fun p => decide (p < 0xFFFF)))

/-- The loops whose DISABLE still has to relinquish and asks for no sheaf now. -/
def Half.tlrStuck (m : Half) : List Nat :=
  (m.tlr.loops.filter (fun e => e.2.leaving && !m.tlr.jobs.any (fun j => decide (j.dis = some e.1)))).map (·.1)

/-- TILLER_SAMPLE (R208): the batch of the present instant is evaluated, and its sheaves join those that wait. -/
def Half.tlrSample (m : Half) : Half :=
  if m.on 0x040 && m.rdB rTlrCtrl 0 then
    let ms := m.tai.toNat / oneMs
    let (m1, asks) := m.tlrLoops (ms * oneMs) (m.tlrBatch ms)
    (m1.tlrPush (tlrGather m1.up [] asks)).tlrPush (m1.tlrStuck.map m1.tlrRelease)
  else m

end Sys2Proof.Machine
end

