-- ==== Sys2Proof/Machine/Journal.lean ====
section
/-! DEFINITION. The sheaf journal in granary pages 4 to 19 (R150, R152, Table 5.4), and the checks that an action meets when it
enters a sheaf (R137, R138, R142). -/
namespace Sys2Proof.Machine

/-- Last sheaf sequence of this half (R150), in the journal header. -/
def Half.shfSeq (m : Half) : Nat := leAt (m.gPage 4) 0 4

/-- Last coordination sequence of this half (R150). -/
def Half.coordSeq (m : Half) : Nat := leAt (m.gPage 4) 4 4

/-- The local actions of a sheaf, in order (R150). -/
def Slot.locals (x : Slot) : List Act := x.acts.filter (fun a => decide (a.module_ = 0))

/-- R152: record pages for n local actions. -/
def jNeed (n : Nat) : Nat := 1 + (n - 3 + 4) / 5

/-- R152: page j of a record that starts at a page, wrapping from 19 to 5. -/
def jPage (first j : Nat) : Nat := 5 + (first - 5 + j) % 15

/-- The pages that records hold. -/
def Half.jUsed (m : Half) : List Nat :=
  m.shf.slots.flatMap (fun e => if e.2.firstPg = 0 then [] else (List.range e.2.nPg).map (jPage e.2.firstPg))

/-- SHF.JRNL.FREE. -/
def Half.jFree (m : Half) : Nat := 15 - m.jUsed.length

/-- R152: the first place for a record of consecutive pages. -/
def Half.jPlace (m : Half) (need : Nat) : Option Nat :=
  ((List.range 15).map (· + 5)).find? (fun f => (List.range need).all (fun j => jPage f j ∉ m.jUsed))

/-- R152: the 12 bytes of an action. -/
def actBytes (a : Act) : List Byte :=
  [BitVec.ofNat 8 (a.kind % 16), BitVec.ofNat 8 a.aux] ++ leBytes 2 a.target ++ leBytes 8 a.value.toNat

/-- An action from its 12 bytes. -/
def actOf (l : List Byte) (module_ : Nat) (st : Stamp) (applied : Bool) : Act :=
  ⟨leAt l 0 1 % 16, leAt l 2 2, leAt l 1 1, BitVec.ofNat 64 (leAt l 4 8), module_, [], st, applied⟩

/-- Table 5.4: the header of a slot's record in a state. -/
def Slot.head (x : Slot) (st : Nat) : List Byte :=
  let l := x.locals
  [BitVec.ofNat 8 st, BitVec.ofNat 8 l.length, BitVec.ofNat 8 x.nPg,
    BitVec.ofNat 8 (x.cross.toNat + x.isCoord.toNat * 2 + x.uncertain.toNat * 4)] ++ leBytes 4 x.seq.toNat
    ++ leBytes 8 (maskOf ((l.zipIdx.filter (fun e => e.1.applied)).map (·.2))) ++ leBytes 2 (if x.cross then x.coord else 0)
    ++ [0, 0] ++ leBytes 4 x.coordSeq.toNat

/-- R152: the pages of five actions each that follow the first. -/
def jRest (first : Nat) : Nat → List Act → List (Nat × List Byte)
  | _, [] => []
  | j, a :: l =>
    if j % 5 = 3 then (jPage first (j / 5 + 1), padTo 64 ((a :: l.take 4).flatMap actBytes)) :: jRest first (j + 1) l
    else jRest first (j + 1) l

/-- R152: the pages of a slot's record. -/
def Slot.pages (x : Slot) (st : Nat) : List (Nat × List Byte) :=
  (x.firstPg, padTo 64 (x.head st ++ (x.locals.take 3).flatMap actBytes)) :: jRest x.firstPg 3 (x.locals.drop 3)

/-- The journal header with its sequences (R150). The rest of page 4 names the pages at which records start. -/
def Half.jHeader (m : Half) (seq coordSeq : Nat) (x : Slot) : List Byte :=
  let own := (List.range x.nPg).map (jPage x.firstPg)
  leBytes 4 seq ++ leBytes 4 coordSeq ++ ((List.range 15).map (fun i =>
    if i + 5 = x.firstPg then 1 else if i + 5 ∈ own then 0 else (m.gPage 4).getD (8 + i) 0)) ++ List.replicate 41 0

/-- The record's header as it stands is written to its first page, while the granary takes commits. -/
def Half.jMark (m : Half) (i st : Nat) : Half :=
  let x := m.slot i
  if x.firstPg = 0 ∨ m.grn.frozen then m else m.gPut (x.firstPg * 64) (x.head st)

/-- The pages of a GRN_WRITE may still be written (R434). -/
def Half.grnMay (m : Half) (x : Slot) : Bool :=
  x.locals.all (fun a => decide (a.kind ≠ 8) || m.gMay (if 8 ≤ x.owner ∧ x.owner ≤ 15 then 1 else 0) a.target)

/-- R138: a terminal with an enabled output binding. -/
def Half.terminalBound (m : Half) (t : Nat) : Bool :=
  m.ptab.outB.any (fun e => bEn e.2 && decide (bKind e.2 = 1) && decide (bByte e.2 8 = t))

/-- A POINT_WRITE action as a write. -/
def Act.write (a : Act) : PWrite :=
  ⟨a.target, a.aux % 32, a.aux.testBit 5, a.aux.testBit 6, a.value, none, a.stamp, .engine⟩

/-- SQ_OFF of a CAN object and its place for the sheaf pair, as R313 asks of a CAN_TX action. -/
def Half.canTxMay (m : Half) (a : Act) : Bool :=
  let x := m.canOf (a.target / 4096)
  let o := a.target % 4096
  let off := fld (x.obj o 0) 8 6
  decide (o < 3072) && decide (a.aux ≤ 8) && x.en o && x.isTx o && flag (x.obj o 0) 26 && decide (a.aux ≤ off)
    && decide (off + 5 ≤ x.txLen o)

/-- R142: the field ranges of Table 5.1, for an action of any module: a status of Table 3.7. -/
def Half.rangeCheck (m : Half) (a : Act) : Nat :=
  let v := a.value.toNat % 2 ^ 32
  let ok (b : Bool) : Nat := if b then 0 else 5
  if a.kind = 1 then ok (decide (a.target ≠ 0xFFFF) && decide (a.aux < 128) && decide (a.aux % 32 ≤ 17))
  else if a.kind = 2 then ok (decide (a.target < 256) && decide (a.aux = 0))
  else if a.kind = 3 then ok (decide (a.target < 512) && decide (a.aux = 0))
  else if a.kind = 4 then ok (decide (a.target < 256) && decide (a.aux = 0) && decide (1 ≤ v) && decide (v ≤ 60000))
  else if a.kind = 5 then ok (decide (a.target % 4096 < 3072) && decide (a.aux ≤ 8))
  else if a.kind = 6 then ok (decide (a.target < 1024) && (m.txPage a.aux).isSome)
  else if a.kind = 7 then ok (decide (a.target < 1024) && decide (a.aux = 0))
  else if a.kind = 9 then ok (decide (0x09C0 ≤ a.target) && decide (a.target ≤ 0x09FF) && decide (a.aux = 0))
  else if a.kind = 10 then (if (pageBlk a.aux).isNone then 1 else if a.target % 4 ≠ 0 ∨ 4095 < a.target then 2 else 0)
  else if a.kind = 11 then ok (decide (a.target < 512) && decide (a.aux = 0) && decide (v < 512))
  else 5

/-- R142: a remote action's module address is one that the running configuration knows. -/
def Half.knowsModule (m : Half) (a : Nat) : Bool := Config.moduleConfigured (m.upSlot m.upd.run).cfg a

/-- R290: a drive may go to the terminal: it is in an output mode and past its settling, or a start still holds its drives (R525). -/
def Half.driveMay (m : Half) (t : Nat) : Bool :=
  m.isOutput t || (decide (8 ≤ m.uioMode t) && decide (m.uioMode t ≤ 10) && decide (m.uio.hold = some 32))

/-- R142: the check of an action of this module by its kind: a status of Table 3.7. internal: of a Drill or Tiller sheaf. -/
def Half.localCheck (m : Half) (y : View) (i : Nat) (a : Act) : Nat :=
  let x := m.slot i
  let drill := decide (8 ≤ x.owner) && decide (x.owner ≤ 15)
  let c := stampClass a.stamp
  let v := a.value.toNat % 2 ^ 32
  if a.kind = 1 then
    if 128 ≤ a.aux ∨ 17 < a.aux % 32 then 5
    else
      let f := m.fenceWrite (m.tcOf a.target) a.stamp (a.aux % 32)
      if f ≠ 0 then f else (let s := (m.applyWrite y a.write).2; if s = 12 then 0 else s)
  else if a.kind = 2 then
    (if a.target < 256 ∧ a.aux = 0 ∧ !m.terminalBound a.target ∧ m.driveMay a.target then 0 else 5)
  else if a.kind = 3 then (if a.aux = 0 then m.profileMay a.target v else 5)
  else if a.kind = 4 then
    (if a.target < 256 ∧ a.aux = 0 ∧ !m.terminalBound a.target ∧ m.driveMay a.target ∧ m.uioMode a.target = 10 ∧ 1 ≤ v ∧ v ≤ 60000 then 0 else 5)
  else if a.kind = 5 then (if m.canTxMay a then 0 else 5)
  else if a.kind = 6 then (if a.target < 1024 ∧ (m.txPage a.aux).isSome then 0 else 5)
  else if a.kind = 7 then (if a.target < 1024 ∧ a.aux = 0 then 0 else 5)
  else if a.kind = 8 then
    (if 32 ≤ a.target ∧ a.target < 256 ∧ a.aux = 0 ∧ a.value = 0 ∧ m.gClass a.target ≠ 0
        ∧ m.gOwner a.target = (if drill then 1 else 0) ∧ (x.acts.filter (fun b => decide (b.kind = 8))).length < 8 then 0 else 5)
  else if a.kind = 9 then (if 0x09C0 ≤ a.target ∧ a.target ≤ 0x09FF ∧ a.aux = 0 then 0 else 5)
  else if a.kind = 10 then
    let k := a.aux * 4096 + a.target
    if (pageBlk a.aux).isNone then 1
    else if a.target % 4 ≠ 0 ∨ 4095 < a.target then 2
    else
      match m.checkWrite c k (word v) with
      | (0, _) => if becomesAction k && decide (a.aux ≠ 0x021) && !m.heldByOther (some i) k then 0 else 5
      | (s, _) => s
  else if a.kind = 11 then (if a.aux = 0 then m.swapMay a.target v a.stamp else 5)
  else 5

/-- R138, R142: the check of an action as it enters the sheaf of slot i. -/
def Half.actCheck (m : Half) (y : View) (i : Nat) (a : Act) : Nat :=
  let x := m.slot i
  let mods := ((x.acts.map (·.module_)).filter (fun k => decide (k ≠ 0))).eraseDups
  if 64 ≤ x.acts.length ∨ a.kind = 0 ∨ 11 < a.kind then 5
  else if stampClass a.stamp = 2 ∧ a.kind ≠ 1 then 3
  else if a.module_ = 0 then m.localCheck y i a
  else if a.module_ = 0xFFFF ∨ a.kind = 8 then 5
  else if a.module_ ∉ mods ∧ 7 ≤ mods.length then 5
  else if !m.knowsModule a.module_ then 5
  else m.rangeCheck a

end Sys2Proof.Machine
end

