-- ==== Sys2Proof/Machine/Sess.lean ====
section
/-! DEFINITION. IPP sessions (R89 to R93), tenant bindings (R78 to R80), and the FENCE, PORTS and SESS pages (R105 to R108). -/
namespace Sys2Proof.Machine

/-- The open sessions, by index. -/
def Half.sesOpen (m : Half) : List (Nat × Session) := m.sess.filter (fun e => e.2.isOpen)

/-- R93, R129: a session closes, and its subscriptions are freed. -/
def Half.sesClose (m : Half) (i : Nat) : Half :=
  let x := m.ses i
  if x.isOpen then (m.freeSubs (m.sessSubs (sessId i x))).setSes i { m.ses i with isOpen := false, subs := 0 } else m

/-- Sessions close one after the other. -/
def Half.sesCloseAll (m : Half) : List Nat → Half
  | [] => m
  | i :: is => (m.sesClose i).sesCloseAll is

/-- R91: the sessions counted against the limit of a stamp's class, and the limit (Table 3.17). -/
def Half.sesLimit (m : Half) (st : Stamp) : Nat × Nat :=
  let c := stampClass st
  let same (p : Session → Bool) : Nat := (m.sesOpen.filter (fun e => decide (stampClass e.2.stamp = c) && p e.2)).length
  if c = 1 then (same (fun _ => true), m.rdF rSessLimit 0 10)
  else if c = 2 then (same (fun x => decide (stampTenant x.stamp = stampTenant st)), m.rdF rSessLimit 16 8)
  else (same (fun _ => true), m.rdF rSessLimit 24 8)

/-- R89: the generation that follows one. -/
def nextGen (g : Nat) : Nat := if 127 ≤ g then 1 else g + 1

/-- R90, R91: a session opens, or is refused with event 0x0703. DESIGN CHOICE (log entry 79): of the free indices it takes the lowest. -/
def Half.sesNew (m : Half) (q : IppReq) (st : Stamp) : Half × Option Nat :=
  let (n, lim) := m.sesLimit st
  let all := m.sesOpen.length
  if 512 ≤ all then (m.ev 0x0703 st.toNat all 512 0, none)
  else if lim ≤ n then (m.ev 0x0703 st.toNat n lim 0, none)
  else
    match (List.range 512).find? (fun i => !(m.ses i).isOpen) with
    | none => (m, none)
    | some i =>
      let x := m.ses i
      (m.setSes i ⟨nextGen x.gen, true, st, q.ip, q.udp, q.seq, 0, 0, m.rdF rSessCtrl 0 16, m.up⟩, some i)

/-- R90: the session of a client's tuple. -/
def Half.sesOf (m : Half) (q : IppReq) : Option Nat :=
  (m.sesOpen.find? (fun e => decide (e.2.ip = q.ip) && decide (e.2.udp = q.udp) && decide (stampPort e.2.stamp = q.port))).map (·.1)

/-- R92: a session ID names an open session of its generation and of the request's tuple. -/
def Half.sesNamed (m : Half) (q : IppReq) : Option Nat :=
  let i := q.session % 512
  let x := m.ses i
  if x.isOpen ∧ sessId i x = q.session ∧ x.ip = q.ip ∧ x.udp = q.udp ∧ stampPort x.stamp = q.port then some i else none

/-- R93: an accepted request restarts the session's idle timer, with IDLE_S as it is now. -/
def Half.sesTouch (m : Half) (i : Nat) : Half :=
  m.setSes i { m.ses i with since := m.up, idle := m.rdF rSessCtrl 0 16 }

/-- SESSION_IDLE_TIMEOUT (R93): no request has been accepted for the session's idle time: event 0x0706, and the session closes. -/
def Half.sesIdle (m : Half) (i : Nat) : Half :=
  let x := m.ses i
  if x.isOpen ∧ x.since + x.idle * oneSec ≤ m.up then (m.ev 0x0706 (sessId i x) x.stamp.toNat x.idle x.subs).sesClose i else m

/-- SESS.INFO of the session in SESS.SEL (Table 3.16); zero where none is open. -/
def Half.sessInfo (m : Half) (w : Nat) : Word :=
  let i := m.rdF rSessSel 0 9
  let x := m.ses i
  if !x.isOpen then 0
  else if w = 0 then word (sessId i x * 2 ^ 16 + x.stamp.toNat)
  else if w = 1 then word (2 ^ 31 + x.subs * 2 ^ 16 + min ((x.since + x.idle * oneSec - m.up) / oneSec) 0xFFFF)
  else if w = 2 then x.seq
  else if w = 3 then x.nseq
  else if w ≤ 7 then word (x.ip.toNat / 2 ^ (32 * (w - 4)))
  else word x.udp

/-- R80: a port's receive queue is flushed: what it posted and no policy core has taken goes, and its buffers return to the free list. -/
def Half.rxFlush (m : Half) (p : Nat) : Half :=
  if m.rdB (rMacQueue p) 31 then
    let q := m.rdF (rMacQueue p) 0 8
    (m.queue q).foldl (fun m a => (m.push (q + 128) a).1) (m.setQueue q [])
  else m

/-- R80: the tenant binding of TENn changes: the port's receive queue is flushed, the sessions of its port close,
responses of its forwarded requests are discarded, and event 0x0701 records it. -/
def Half.tenBindEff (m : Half) (n k : Nat) (v : Word) : Half × Nat :=
  let i := (k - rFenceTenBind 0) / 4
  let old := m.rd k
  if flag v 7 ∧ fld v 0 6 = 0 then (m, 5)
  else
    let m1 := m.plainWrite n k v
    if m1.rd k = old then (m1, 0)
    else
      let m2 := m1.rxFlush (0x0A8 + i)
      let m1 : Half := { m2 with fwds := m2.fwds.filter (fun f => decide (f.req.port ≠ 8 + i)) }
      let l := (m1.sesOpen.filter (fun e => decide (stampPort e.2.stamp = 8 + i))).map (·.1)
      ((m1.sesCloseAll l).ev 0x0701 (8 + i) old.toNat (m1.rd k).toNat l.length, 0)

/-- R82, R106, Table 3.12: FENCE.RIGHTSc; event 0x0702 records a change. -/
def Half.rightsEff (m : Half) (n k : Nat) (v : Word) : Half × Nat :=
  let c := (k - rFenceRights 0) / 4
  let w : Word := if c = 2 then (v &&& 0xFFFFFFC4) ||| 1 else v
  if c = 1 then (m, 0)
  else if fld w 0 2 = 3 ∨ fld w 12 5 = 0 ∨ 16 < fld w 12 5 then (m, 5)
  else
    let m1 := m.plainWrite n k w
    (if m1.rd k = m.rd k then m1 else m1.ev 0x0702 c (m.rdN k) (m1.rdN k) 0, 0)

/-- R105: FENCE.CTRL: the first 0x0707 after REFUSE_EVT is set counts from the setting, and comes no sooner than a second after the port's
last one. -/
def Half.fenceCtrlEff (m : Half) (n : Nat) (v : Word) : Half × Nat :=
  let m1 := m.plainWrite n rFenceCtrl v
  (if flag v 0 && !m.rdB rFenceCtrl 0 then
     { m1 with rates := (m1.rates.map (fun e => (e.1, { e.2 with refCnt := 0 }))).filter (fun e => decide (e.2 ≠ rateReset)) }
   else m1, 0)

/-- FENCE.CLR (Table 3.11). -/
def Half.fenceClrEff (m : Half) (v : Word) : Half × Nat := (if flag v 0 then m.wr rFenceRefuseCnt 0 else m, 0)

/-- PORTS.CLR (Table 3.14). -/
def Half.portsClrEff (m : Half) (v : Word) : Half × Nat :=
  (if flag v 0 then (List.range 64).foldl (fun m i => m.wr (rPortsRefuse i) 0) m else m, 0)

/-- PORTS.DESCi (R107, Table 3.15): RATE, and ADMIT for the classes 1 to 3; nothing for the reserved indices. -/
def Half.portsDescEff (m : Half) (k : Nat) (v : Word) : Half × Nat :=
  let i := (k - rPortsDesc 0) / 4
  let c := portClass i
  if i = 6 ∨ i = 7 then (m, 0)
  else
    let d := putFld (m.rd k) 16 8 (fld v 16 8)
    let d := if 1 ≤ c ∧ c ≤ 3 then putFlag d 0 (flag v 0) else d
    let m1 := m.wr k d
    (if d = m.rd k then m1 else m1.gen 0x011, 0)

/-- A write to the SESS page (Table 3.17). -/
def Half.sessWrite (m : Half) (n k : Nat) (v : Word) : Half × Nat :=
  if k = rSessCtrl then
    (if fld v 16 8 = 0 ∨ fld v 0 16 < 10 ∨ 3600 < fld v 0 16 then (m, 5) else (m.plainWrite n k v, 0))
  else if k = rSessLimit then (if fld v 0 10 = 0 ∨ 512 < fld v 0 10 then (m, 5) else (m.plainWrite n k v, 0))
  else if k = rSessSel then (if 511 < v.toNat then (m, 5) else (m.plainWrite n k v, 0))
  else if k = rSessClose then
    (let i := v.toNat % 512
     if (m.ses i).isOpen ∧ sessId i (m.ses i) = v.toNat % 2 ^ 16 then (m.sesClose i, 0) else (m, 0))
  else if k = rSessFlushTenant then
    (if v.toNat = 0 ∨ 63 < v.toNat then (m, 5)
     else (m.sesCloseAll ((m.sesOpen.filter (fun e => decide (stampClass e.2.stamp = 2)
       && decide (stampTenant e.2.stamp = v.toNat))).map (·.1)), 0))
  else (m.plainWrite n k v, 0)

/-- A write to the FENCE page. -/
def Half.fencePageWrite (m : Half) (n k : Nat) (v : Word) : Half × Nat :=
  if k = rFenceCtrl then m.fenceCtrlEff n v
  else if k = rFenceClr then m.fenceClrEff v
  else if rFenceTenBind 0 ≤ k ∧ k ≤ rFenceTenBind 7 then m.tenBindEff n k v
  else if rFenceRights 0 ≤ k ∧ k ≤ rFenceRights 6 then m.rightsEff n k v
  else (m, 0)

/-- A write to the PORTS page. -/
def Half.portsWrite (m : Half) (k : Nat) (v : Word) : Half × Nat :=
  if k = rPortsClr then m.portsClrEff v
  else if rPortsDesc 0 ≤ k ∧ k ≤ rPortsDesc 63 then m.portsDescEff k v
  else (m, 0)

/-- SESSION_IDLE_TIMEOUT (R93). -/
def execSessionIdleTimeout (i : Fin 512) (s : State) : Host.Outcome State Fault Refusal :=
  .next (s.input (fun _ m => m.sesIdle i.val))

/-- TEN_BIND_WRITE (R80). -/
def execTenBindWrite (h : HalfId) (r : Req) (n : Fin 8) (v : Word) (s : State) : Host.Outcome State Fault Refusal :=
  .next (s.regCmd h r (rFenceTenBind n.val) v (fun m => m.tenBindEff (reqNum r) (rFenceTenBind n.val) v))

/-- SESS_CLOSE (R93). -/
def execSessClose (h : HalfId) (r : Req) (v : Word) (s : State) : Host.Outcome State Fault Refusal :=
  .next (s.regCmd h r rSessClose v (fun m => m.sessWrite (reqNum r) rSessClose v))

/-- FLUSH_TENANT (R93). -/
def execFlushTenant (h : HalfId) (r : Req) (v : Word) (s : State) : Host.Outcome State Fault Refusal :=
  .next (s.regCmd h r rSessFlushTenant v (fun m => m.sessWrite (reqNum r) rSessFlushTenant v))

/-- FENCE_CLR (R105). -/
def execFenceClr (h : HalfId) (r : Req) (v : Word) (s : State) : Host.Outcome State Fault Refusal :=
  .next (s.regCmd h r rFenceClr v (fun m => m.fenceClrEff v))

/-- PORTS_CLR (R107). -/
def execPortsClr (h : HalfId) (r : Req) (v : Word) (s : State) : Host.Outcome State Fault Refusal :=
  .next (s.regCmd h r rPortsClr v (fun m => m.portsClrEff v))

end Sys2Proof.Machine
end

