-- ==== Sys2Proof/Machine/Sheaf.lean ====
section
/-! DEFINITION. The sheaf engine (R139 to R160): opening and filling sheaves, the commit request and its checks, the commit
instant, application and release, aborts, and the frames between modules. -/
namespace Sys2Proof.Machine

/-- A response to an IPP request (R94, R102): q carries the session it answers in. A request with the CLOSE flag closes that session
after its response (R93). -/
def Half.ippReply (m : Half) (q : IppReq) (flags status : Nat) (payload : List Byte) : Half :=
  let m1 := m.ippSend ⟨q.port, q.ip, q.udp, q.op, 1 + flags, q.session, q.seq, status, payload⟩
  if q.flags.testBit 1 then
    match m1.sesNamed q with
    | some i => m1.sesClose i
    | none => m1
  else m1

/-- R161: the response to an IPP SHEAF. -/
def Half.sheafReply (m : Half) (q : Option IppReq) (seq : Word) (state reason idx status module_ : Nat) : Half :=
  match q with
  | none => m
  | some q => m.ippReply q 0 (if state = 3 then 0 else 5)
      (leBytes 4 seq.toNat ++ [BitVec.ofNat 8 state, BitVec.ofNat 8 reason, BitVec.ofNat 8 idx, BitVec.ofNat 8 status]
        ++ leBytes 2 module_ ++ [0, 0])

/-- A frame of the sheaf stream to a module (Table 15.4). -/
def Half.sheafFrame (m : Half) (y : View) (dest kind : Nat) (st : Stamp) (payload : List Byte) : Half :=
  m.mzSend y dest 0x20 kind st (if dest = 0xFFFF then 1 else 0) payload

/-- COMMIT or ABORT of a coordinated sheaf to each participant that has not acknowledged it (R158). -/
def Half.sendOutcome (m : Half) (y : View) (x : Slot) (kind : Nat) : Half :=
  (x.parts.filter (fun p => !p.acked)).foldl
    (fun m p => m.sheafFrame y p.addr kind peerStamp (leBytes 4 x.coordSeq.toNat ++ leBytes 4 0)) m

/-- VOTE of a participant (Table 15.4): 1 YES, 2 NO. -/
def Half.sendVote (m : Half) (y : View) (dest : Nat) (seq : Word) (vote status idx : Nat) : Half :=
  m.sheafFrame y dest 0x21 peerStamp
    (leBytes 4 seq.toNat ++ [BitVec.ofNat 8 vote, BitVec.ofNat 8 status, BitVec.ofNat 8 idx, 0])

/-- A slot opens (R139): its owner, OPEN, and the actions it starts with. -/
def Half.openSlot (m : Half) (i owner : Nat) : Half :=
  m.setSlot i { slotReset with state := 1, owner := owner, openedAt := m.up }

/-- R139: the lowest free slot of 9 to 31. -/
def Half.freeSlot (m : Half) : Option Nat := ((List.range 23).map (· + 9)).find? (fun i => decide ((m.slot i).state = 0))

/-- A sheaf ends ABORTED (Table 5.3): the slot is freed with its record, its outcome is put on record (R151), and its coordinator,
participants, engine or client learn of it. A participant's abort is a sheaf's abort too (R162, R163). -/
def Half.endAbort (m : Half) (y : View) (i reason idx status module_ : Nat) : Half :=
  let x := m.slot i
  let m0 := ({ m with shf := { m.shf with cq := m.shf.cq.filter (fun j => decide (j ≠ i)) } }).produce
    [m.outcomeRec i (m.shfSeq + 1) (5 + reason * 2 ^ 8)]
  let m1 := m0.jMark i 4
  let m2 := m1.abortSlot i reason idx status module_
  let m3 := if x.state = 2 ∧ x.isCoord then
      (let m4 := m2.sendOutcome y x 0x23
       { m4 with shf := { m4.shf with aborts := m4.shf.aborts ++ [(i, { x with votedAt := m.up, state := 5 })] } })
    else if x.owner = 17 ∧ x.state = 1 then m2.sendVote y x.coord x.coordSeq 2 status idx
    else m2
  let m4 := m3.sheafReply x.rsp 0 5 reason idx status module_
  if 8 ≤ x.owner ∧ x.owner ≤ 15 then m4.drlEnded i false reason
  else if x.owner = 16 then m4.tlrAborted reason
  else m4

/-- An action that has passed its check joins the sheaf; one that has not aborts it (R142). -/
def Half.addAct (m : Half) (y : View) (i : Nat) (a : Act) : Half × Nat :=
  let raw := a.module_
  let b := { a with module_ := if raw = m.addr then 0 else raw }
  let x := m.slot i
  let s := m.actCheck y i b
  if s = 0 then ((m.setSlot i { x with acts := x.acts ++ [b], cross := x.cross || decide (b.module_ ≠ 0) }).shfShow i 1 0, 0)
  else
    let m1 := if b.kind = 1 ∧ b.module_ = 0 ∧ (s = 3 ∨ s = 6) then m.fenceRefused b.stamp (pointAddr m.addr b.target) s else m
    (m1.endAbort y i 2 x.acts.length s raw, s)

/-- The actions of an internal sheaf enter in order, until one is refused. -/
def Half.addActs (m : Half) (y : View) (i : Nat) : List Act → Half
  | [] => m
  | a :: l =>
    match m.addAct y i a with
    | (m1, 0) => m1.addActs y i l
    | (m1, _) => m1

/-- The commit of a slot is requested: it waits its turn (R144), and no longer counts as its accessor's open sheaf. -/
def Half.requestCommit (m : Half) (i deadUs : Nat) : Half :=
  let x := m.slot i
  let m1 := m.setSlot i { x with deadUs := deadUs }
  let m2 := if x.owner ≤ 5 then
      ((m1.updAcc x.owner (fun a => { a with sheaf := none })).setView x.owner rShfStat (shfStatWord false i 1 0 x.acts.length))
    else m1
  { m2 with shf := { m2.shf with cq := m2.shf.cq ++ [i] } }

/-- Marks local actions applied, by their index (R150), in the slot and its record. -/
def Half.markActs (m : Half) (i : Nat) (f : Nat → Act → Bool) : Half :=
  let x := m.slot i
  let acts := x.acts.foldl (fun (r : List Act × Nat) a =>
    if a.module_ ≠ 0 then (r.1 ++ [a], r.2) else (r.1 ++ [{ a with applied := a.applied || f r.2 a }], r.2 + 1)) ([], 0)
  (m.setSlot i { x with acts := acts.1 }).jMark i 2

/-- COMMITTED to DONE (Table 5.3): every local action applied, and for a coordinator every participant acknowledged. -/
def Half.sheafDone (m : Half) (i : Nat) : Half :=
  let x := m.slot i
  if x.state = 3 ∧ x.locals.all (·.applied) ∧ (!x.isCoord ∨ x.parts.all (·.acked)) then
    let m1 := ((m.jMark i 3).shfShow i 4 0).setSlot i slotReset
    if 8 ≤ x.owner ∧ x.owner ≤ 15 then m1.drlEnded i true 0
    else if x.owner = 16 then m1.tlrDone
    else m1
  else m

/-- Table 5.1: the kinds whose actions carry a message. -/
def isMsg (a : Act) : Bool := decide (a.kind = 5) || decide (a.kind = 6) || decide (a.kind = 7)

/-- Table 5.1: the kinds that a warm restart applies again whether or not they were applied. -/
def isLevel (a : Act) : Bool := decide (a.kind = 1) || decide (a.kind = 2) || decide (a.kind = 10) || decide (a.kind = 11)

/-- R137, R144, R148: one action before the release instant; drives it causes are held. -/
def Half.doAct (m : Half) (y : View) (seq : Word) (idx : Nat) (a : Act) : Half :=
  if a.kind = 1 then (m.applyWrite y a.write).1
  else if a.kind = 2 then m.uioDrive y a.target (loWord a.value) 0 none false none
  else if a.kind = 4 then m.uioDrive y a.target 1 (a.value.toNat % 2 ^ 32) none false (some (seq, idx))
  else if a.kind = 9 then m.ev a.target (loWord a.value).toNat (hiWord a.value).toNat seq.toNat idx
  else if a.kind = 10 then m.stWrite 6 (a.aux * 4096 + a.target) (loWord a.value) a.stamp
  else if a.kind = 11 then m.loopSwap a.target (a.value.toNat % 2 ^ 32)
  else m

/-- R151: the release records of the messages of slot i, by the port index that their first bit leaves: a CAN controller, an Ethernet
port, or Merzin, module-originated (Table 3.2). -/
def Half.messageRecs (m : Half) (i : Nat) (seq : Word) (l : List Act) : List OutRec :=
  (l.filter isMsg).map (fun a =>
    ⟨seq.toNat, (m.slot i).recKind, true,
      if a.kind = 5 then 0x18 + a.target / 4096 else if a.kind = 6 then a.aux else 0x05, a.value⟩)

/-- R148, R149, R313: one action at the release instant: profiles start, and frames enter their transmit queues. -/
def Half.sendAct (m : Half) (y : View) (i : Nat) (seq : Word) (idx : Nat) (a : Act) : Half :=
  let t := m.template (a.target % 1024)
  if a.kind = 3 then m.profileStart a.target (a.value.toNat % 2 ^ 32)
  else if a.kind = 5 then
    let c := a.target / 4096
    let o := a.target % 4096
    let m1 := m.updCan c (fun x =>
      (x.pokeData o 0 ((leBytes 8 a.value.toNat).take a.aux)).pokeData o (fld (x.obj o 0) 8 6) (leBytes 4 seq.toNat ++ [BitVec.ofNat 8 idx]))
    let m2 := m1.updCan c (fun x =>
      let w : CanWait := sget ⟨i, [], m.up⟩ x.waits (o * 32 + i)
      { x with waits := sput x.waits (o * 32 + i) { w with acts := w.acts ++ [idx] } })
    (m2.canRequest c o).1
  else if a.kind = 6 then m.ethQueue a.aux (.raw (t.fill a.value seq idx)) (some (i, idx)) none
  else if a.kind = 7 then m.mzSend y t.dest t.stream 0x60 peerStamp 0 (t.fill a.value seq idx)
  else m

/-- R23, R125, R148: the actions are applied in order, ahead of the writes that the engine's queue holds; the drives they cause are released
at one instant, and messages and profile starts go out then. go says which actions are applied. -/
def Half.applyActs (m : Half) (y : View) (i : Nat) (seq : Word) (acts : List Act) (go : Act → Bool) : Half :=
  let l := acts.zipIdx.filter (fun e => go e.1)
  let m1 := l.foldl (fun m e => m.doAct y seq e.2 e.1) { m with uio := { m.uio with hold := some i } }
  let m2 := (m1.produce (m1.releaseRecs i seq ++ m1.messageRecs i seq (l.map (·.1)))).releaseHeld y i
  l.foldl (fun m e => m.sendAct y i seq e.2 e.1) m2

/-- R439: from the power-fail capture on, level actions alone are applied. -/
def Half.mayApply (m : Half) (a : Act) : Bool := !m.grn.frozen || isLevel a

/-- R148: a COMMITTED slot is applied; all but CAN and Ethernet messages are applied at once. -/
def Half.applySlot (m : Half) (y : View) (i : Nat) : Half :=
  let x := m.slot i
  let ok := m.mayApply
  let m1 := m.applyActs y i x.seq x.locals ok
  (m1.markActs i (fun _ a => decide (a.kind = 8) || (ok a && decide (a.kind ≠ 5) && decide (a.kind ≠ 6)))).sheafDone i

/-- R147, R150: the commit instant of slot i, whose record takes pages from first on; none where the granary refuses. -/
def Half.commitSlot (m : Half) (y : View) (i first : Nat) : Option Half :=
  let x := m.slot i
  if m.grn.frozen || !m.grnMay x then none
  else
    let seq := word (m.shfSeq + 1)
    let acts := x.acts.map (fun a => if a.kind = 8 then { a with applied := true } else a)
    let x1 : Slot :=
      { x with state := 3, seq := seq, firstPg := first, nPg := jNeed x.locals.length, waitAt := none, acts := acts, votedAt := m.up }
    let grn := (x.locals.filter (fun a => decide (a.kind = 8))).map (fun a => (a.target, a.data))
    let m1 := ((m.setSlot i x1).gPutPages ((4, m.jHeader seq.toNat m.coordSeq x1) :: x1.pages 2 ++ grn)).shfShow i 3 0
    let m2 := if x.owner ≤ 5 then m1.setView x.owner rShfSeq seq else m1
    let m3 := (m2.sheafReply x.rsp seq 3 0 0xFF 0 0)
    let m4 := if x.isCoord then m3.sendOutcome y x1 0x22 else m3
    some ((m4.setSlot i { m4.slot i with rsp := none }).produce [m.outcomeRec i seq.toNat 3])

/-- R146: level-0 writes that need new entries of the force table. -/
def Half.newForces (m : Half) (l : List Act) : Nat :=
  ((l.filter (fun a => decide (a.kind = 1) && decide (a.aux % 64 = 0) && (m.forceOf a.target).isNone)).map (·.target)).eraseDups.length

/-- R156: B of a coordinated sheaf, in 10 ns units. -/
def Half.sheafBudget (m : Half) (parts : List Nat) : Nat := parts.foldl (fun b p => max b (m.budgetFor p)) 0

/-- The other modules that the actions of a sheaf name. -/
def Slot.modules (x : Slot) : List Nat := ((x.acts.map (·.module_)).filter (fun k => decide (k ≠ 0))).eraseDups

/-- R156: D of a coordinated sheaf in ns, or none where it is below D_min. -/
def deadlineNs (b us : Nat) : Option Nat :=
  let dmin := 20 * b + 40000
  if us = 0 then some (2 * dmin) else if us * 1000 < dmin then none else some (us * 1000)

/-- R146: the checks of a commit request before the journal: a reason of Table 5.8, 0 for none. -/
def Half.commitCheck (m : Half) (y : View) (x : Slot) : Nat :=
  if y.pfw then 6
  else if x.locals.any (fun a => decide (a.kind = 2) || decide (a.kind = 3) || decide (a.kind = 4)) && !y.any then 4
  else if 256 - m.ptab.forces.length < m.newForces x.locals then 10
  else if x.cross ∧ x.owner ≠ 17 ∧ (deadlineNs (m.sheafBudget x.modules) x.deadUs).isNone then 7
  else 0

/-- R150, R155 to R157: the record is written in state PREPARED: a coordinator sends PREPARE, a participant votes YES. -/
def Half.prepareSlot (m : Half) (y : View) (i first : Nat) : Half :=
  let x := m.slot i
  let coord := decide (x.owner ≠ 17)
  let mods := x.modules
  let b := m.sheafBudget mods
  let cs := if coord then word (m.coordSeq + 1) else x.coordSeq
  let dl := if coord then m.tai + BitVec.ofNat 64 ((deadlineNs b x.deadUs).getD 0) else x.deadline
  let x1 : Slot :=
    { x with
      state := 2
      coordSeq := cs
      coord := if coord then m.addr else x.coord
      cross := true
      isCoord := coord
      parts := if coord then mods.map (fun a => ⟨a, false, false⟩) else []
      deadline := dl
      budget := b
      votedAt := m.up
      waitAt := none
      firstPg := first
      nPg := jNeed x.locals.length }
  let m1 := ((m.setSlot i x1).gPutPages
    ((4, m.jHeader m.shfSeq (if coord then cs.toNat else m.coordSeq) x1) :: x1.pages 1)).shfShow i 2 0
  if coord then
    mods.foldl (fun m a =>
      let l := x1.acts.filter (fun b => decide (b.module_ = a))
      let st := if x.rsp.isSome then (l.head?.map (·.stamp)).getD peerStamp else peerStamp
      m.sheafFrame y a 0x20 st
        (leBytes 4 cs.toNat ++ leBytes 8 dl.toNat ++ [BitVec.ofNat 8 l.length, 0, 0, 0] ++ l.flatMap actBytes)) m1
  else m1.sendVote y x.coord cs 1 0 0xFF

/-- The end of a wait for journal pages is recorded (R146, R162). -/
def Half.waitEnds (m : Half) (i : Nat) : Half :=
  let x := m.slot i
  match x.waitAt with
  | none => m
  | some t => (m.ev 0x0904 i (jNeed x.locals.length) m.jFree ((m.up - t) / 1000)).setSlot i { x with waitAt := none }

/-- JOURNAL_LOW (R163): fewer than 4 record pages are free. -/
def Half.journalLow (m : Half) : Half := if m.jFree < 4 then m.irq 0x021 1 else m

/-- SHF_COMMIT's decision (R144, R146): the oldest commit request is served; false while it waits for journal pages. A failed check or
wait has no failing action, and Table 5.8 names no status for it: SHF.FAIL then shows STATUS 5 REFUSED and INDEX 0xFF, the model's choice
(log entry 70). -/
def Half.serve (m : Half) (y : View) (i : Nat) : Half × Bool :=
  let x := m.slot i
  let r := m.commitCheck y x
  if x.state ≠ 1 then ({ m with shf := { m.shf with cq := m.shf.cq.filter (fun j => decide (j ≠ i)) } }, true)
  else if r ≠ 0 then ((m.waitEnds i).endAbort y i r 0xFF 5 0, true)
  else
    match m.jPlace (jNeed x.locals.length) with
    | none => (if x.waitAt.isSome then m else m.setSlot i { x with waitAt := some m.up }, false)
    | some f =>
      let m1 := m.waitEnds i
      let m2 := { m1 with shf := { m1.shf with cq := m1.shf.cq.filter (fun j => decide (j ≠ i)) } }
      if m2.grn.frozen then (m2.endAbort y i 5 0xFF 5 0, true)
      else if x.cross then ((m2.prepareSlot y i f).journalLow, true)
      else
        match m2.commitSlot y i f with
        | none => (m2.endAbort y i 5 0xFF 5 0, true)
        | some m3 => (m3.journalLow.applySlot y i, true)

/-- R139: the next sheaf of the Tiller or a Drill engine whose slot is free starts: slot, owner, task and actions. -/
def Half.nextJob (m : Half) : Option (Nat × Nat × Nat × List Act) :=
  match (if (m.slot 8).state = 0 then m.tlr.jobs.head? else none) with
  | some j => some (8, 16, 0, j.acts)
  | none => (m.drl.jobs.find? (fun j => decide ((m.slot j.slot).state = 0))).map (fun j => (j.slot, 8 + j.slot, j.code, j.acts))

/-- An internal sheaf is opened, filled and its commit requested (R140). -/
def Half.startJob (m : Half) (y : View) (j : Nat × Nat × Nat × List Act) : Half :=
  let (i, owner, task, acts) := j
  let m1 := m.openSlot i owner
  let m2 := (m1.setSlot i { m1.slot i with task := task }).addActs y i acts
  if (m2.slot i).state = 1 ∧ (m2.slot i).acts.length = acts.length then m2.requestCommit i 0 else m2

/-- The sheaf engine works until nothing is left to do, or its oldest commit waits for journal pages (R144). -/
def Half.pumpN (m : Half) (y : View) : Nat → Half
  | 0 => m
  | n + 1 =>
    match m.shf.cq with
    | i :: _ => (match m.serve y i with | (m1, true) => m1.pumpN y n | (m1, false) => m1)
    | [] => (match m.nextJob with | some j => (m.startJob y j).pumpN y n | none => m)

/-- The sheaf engine works, for as many sheaves as can be waiting. -/
def Half.pump (m : Half) (y : View) : Half :=
  m.pumpN y (4 * (m.shf.cq.length + m.tlr.jobs.length + m.drl.jobs.length) + 32)

/-- MSG_DEFERRED, or the first bit of a message has been sent (R149): the action is applied. -/
def Half.msgApplied (m : Half) (i idx : Nat) : Half := (m.markActs i (fun k _ => decide (k = idx))).sheafDone i

/-- Several message actions of one slot are applied. -/
def Half.msgsApplied (m : Half) (i : Nat) (l : List Nat) : Half :=
  if m.grn.frozen then m else (m.markActs i (fun k _ => decide (k ∈ l))).sheafDone i

/-- R149: a frame whose action has been marked applied stays queued, and no longer stands for that action. -/
def Half.untag (m : Half) (i idx : Nat) : Half :=
  { m with mac := m.mac.map (fun e =>
      (e.1, { e.2 with txq := e.2.txq.map (fun f => if f.sheaf = some (i, idx) then { f with sheaf := none } else f) })) }

/-- MSG_DEFERRED (R149): the first bit has not left within MSG_MS: the action is applied, and event 0x0905 recorded. -/
def Half.msgDeferred (m : Half) (y : View) (i idx : Nat) : Half :=
  let x := m.slot i
  match x.locals[idx]? with
  | none => m
  | some a =>
    if x.state ≠ 3 ∨ a.applied ∨ !isMsg a ∨ m.grn.frozen then m
    else
      let m1 := (m.ev 0x0905 x.seq.toNat idx a.kind a.target).irq 0x021 3
      let m2 := m1.updCan (a.target / 4096) (fun c =>
        if a.kind = 5 then { c with waits := c.waits.filter (fun e => decide (e.1 ≠ a.target % 4096 * 32 + i)) } else c)
      let m3 := if a.kind = 6 then m2.untag i idx else m2
      (m3.msgApplied i idx).pump y

/-- SHF.OPEN (R139, R140): FULL without a free slot. A sheaf that opens returns the accessor's SHF.FAIL to 0xFF, its reset value, as it
has no failing action: the model's choice (log entry 70). -/
def Half.shfOpenEff (m : Half) (n : Nat) (v : Word) : Half × Nat :=
  if !flag v 0 then (m, 0)
  else if (m.acc n).sheaf.isSome then (m, 8)
  else
    match m.freeSlot with
    | none => (m, 12)
    | some i =>
      ((((m.openSlot i n).updAcc n (fun a => { a with sheaf := some i })).setView n rShfStat (shfStatWord true i 1 0 0)).setView n
        rShfFail 0xFF, 0)

/-- The 64 bytes of the accessor's granary buffer. -/
def Half.gBuf (m : Half) (n : Nat) : List Byte := (List.range 16).flatMap (fun i => leBytes 4 (m.view n (rGrnBuf i)).toNat)

/-- SHF.ADD0 (R141, R142): an action with the accessor's stamp and staged words. Without an open sheaf the write is refused, and the
words staged are discarded. -/
def Half.shfAddEff (m : Half) (y : View) (n : Nat) (st : Stamp) (v : Word) : Half × Nat :=
  let w (i : Nat) : Word := (m.stagedWord n (rShfAdd + 4 * i)).getD 0
  match (m.acc n).sheaf with
  | none => (m.dropStaged n rShfAdd 4, 8)
  | some i =>
    let k := fld v 20 4
    let md := fld (w 3) 0 16
    let a : Act := ⟨k, fld v 0 16, fld v 24 8, dword (w 1) (w 2), md, if k = 8 then m.gBuf n else [], st, false⟩
    ((m.addAct y i a).1, 0)

/-- SHF.COMMIT (R145, R146): refused without an open sheaf, whatever is written (R163). -/
def Half.shfCommitEff (m : Half) (y : View) (n : Nat) (v : Word) : Half × Nat :=
  match (m.acc n).sheaf with
  | none => (m, 8)
  | some i => (if flag v 0 then (m.requestCommit i (fld v 16 16)).pump y else m, 0)

/-- SHF.ABORT (R145): refused without an open sheaf, whatever is written (R163). -/
def Half.shfAbortEff (m : Half) (y : View) (n : Nat) (v : Word) : Half × Nat :=
  match (m.acc n).sheaf with
  | none => (m, 8)
  | some i => (if flag v 0 then m.endAbort y i 1 0xFF 0 0 else m, 0)

/-- R143: OPEN_MS has passed without a commit. -/
def Half.openTimeout (m : Half) (y : View) (i : Nat) : Half :=
  let x := m.slot i
  if x.state = 1 ∧ i ∉ m.shf.cq ∧ x.openedAt + m.rdF rShfCtrl 0 16 * oneMs ≤ m.up then m.endAbort y i 3 0xFF 0 0 else m

/-- R146: the commit has waited 1 ms for journal pages. -/
def Half.waitTimeout (m : Half) (y : View) (i : Nat) : Half :=
  if (m.slot i).waitAt.any (fun t => decide (t + oneMs ≤ m.up)) then ((m.waitEnds i).endAbort y i 5 0xFF 5 0).pump y else m

/-- PTAB.WR0 (R124): a submission, or a POINT_WRITE action of the accessor's open sheaf, whose check's status WR_STAT shows; either is
the accessor's last submission. -/
def Half.ptabWrEff (m : Half) (y : View) (n : Nat) (st : Stamp) (ws : List Word) : Half × Nat :=
  match (m.acc n).sheaf with
  | none => m.wrEff n st ws
  | some i =>
    let c := ws.getD 0 0
    if 17 < fld c 16 5 then (m, 5)
    else
      let a : Act := ⟨1, fld c 0 16, fld c 16 5 + fld c 24 2 * 32, dword (ws.getD 1 0) (ws.getD 2 0), 0, [], st, false⟩
      let (m1, s) := m.addAct y i a
      ((m1.updAcc n (fun b => { b with wrSeq := b.wrSeq + 1 })).setView n rPtabWrStat (word s), 0)

/-- The coordinated slot of a coordination sequence in a state. -/
def Half.coordSlot (m : Half) (seq : Word) : Option Nat :=
  (m.shf.slots.find? (fun e => e.2.isCoord && decide (e.2.coordSeq = seq))).map (·.1)

/-- The participant's slot of a coordinator's sheaf. -/
def Half.partSlot (m : Half) (coord : Nat) (seq : Word) : Option Nat :=
  (m.shf.slots.find? (fun e => decide (e.2.owner = 17) && decide (e.2.coord = coord) && decide (e.2.coordSeq = seq))).map (·.1)

/-- Frames addressed to this module, or to a module it serves in its place (R398). -/
def Half.mzMine (m : Half) (f : MzFrame) : Bool := decide (f.dest = m.addr) || decide (f.dest = 0xFFFF) || (m.fostFor f.dest).isSome

/-- R398: an action for the module at an address as this module applies it: of a module it serves, a POINT_WRITE to a fostered point
alone. -/
def Half.actHere (m : Half) (a : Nat) (x : Act) : Option Act :=
  if a = m.addr then some x
  else if x.kind ≠ 1 then none
  else (m.pointHere a x.target).map (fun i => { x with target := i })

/-- The word at a byte offset of a frame's payload. -/
def mzWord (f : MzFrame) (o : Nat) : Word := word (leAt f.payload o 4)

/-- MZ_PREPARE_RECEIVE (R157): the actions are checked with the frame's stamp, a record is written and YES voted; NO on any failure
or without a slot; nothing after the deadline. The STATUS of a NO vote is the model's choice where no check gave one (log entry 70): 12 FULL
without a slot, 5 REFUSED for a COUNT or length that fits no PREPARE, 4 for an action that this module does not serve at that address. -/
def Half.prepareRx (m : Half) (y : View) (f : MzFrame) : Half :=
  let seq := (mzWord f 0)
  let dl := BitVec.ofNat 64 (leAt f.payload 4 8)
  let n := leAt f.payload 12 1
  if !m.mzMine f || (m.partSlot f.src seq).isSome || decide (dl.toNat < m.tai.toNat) then m
  else
    match m.freeSlot with
    | none => m.sendVote y f.src seq 2 12 0xFF
    | some i =>
      let m1 := m.setSlot i
        { slotReset with state := 1, owner := 17, openedAt := m.up, cross := true, coord := f.src, coordSeq := seq, deadline := dl }
      let acts := (List.range n).map (fun k => actOf ((f.payload.drop (16 + 12 * k)).take 12) 0 f.stamp false)
      let here := acts.map (fun a => m.actHere (if f.dest = 0xFFFF then m.addr else f.dest) a)
      if n = 0 ∨ 64 < n ∨ f.payload.length < 16 + 12 * n then m1.endAbort y i 2 0xFF 5 0
      else if here.contains none then m1.endAbort y i 2 ((here.findIdx? (fun a => decide (a = none))).getD 0xFF) 4 0
      else
        let m2 := m1.addActs y i (here.filterMap id)
        if (m2.slot i).state = 1 ∧ (m2.slot i).acts.length = n then (m2.requestCommit i 0).pump y else m2

/-- A PREPARED sheaf commits: its record COMMITTED, its actions applied; where the granary refuses, it aborts. -/
def Half.commitPrepared (m : Half) (y : View) (i : Nat) : Half :=
  match m.commitSlot y i (m.slot i).firstPg with
  | some m1 => m1.applySlot y i
  | none => m.endAbort y i 5 0xFF 5 0

/-- MZ_VOTE_RECEIVE (R156). -/
def Half.voteRx (m : Half) (y : View) (f : MzFrame) : Half :=
  match m.coordSlot ((mzWord f 0)) with
  | none => m
  | some i =>
    let x := m.slot i
    if !m.mzMine f || decide (x.state ≠ 2) || !x.parts.any (fun p => decide (p.addr = f.src)) then m
    else if leAt f.payload 4 1 = 1 then
      if x.deadline.toNat < m.tai.toNat then m
      else
        let ps := x.parts.map (fun p => if p.addr = f.src then { p with voted := true } else p)
        let m1 := m.setSlot i { x with parts := ps }
        if ps.all (·.voted) then (m1.commitPrepared y i).pump y else m1
    else
      let k := leAt f.payload 6 1
      let idx := ((x.acts.zipIdx.filter (fun e => decide (e.1.module_ = f.src)))[k]?.map (·.2)).getD 0xFF
      (m.endAbort y i 8 idx (leAt f.payload 5 1) f.src).pump y

/-- SHEAF_DEADLINE (R156): T0 + D passes without every YES. -/
def Half.deadlineEnd (m : Half) (y : View) (i : Nat) : Half :=
  let x := m.slot i
  if x.state = 2 ∧ x.isCoord ∧ x.deadline.toNat < m.tai.toNat then (m.endAbort y i 7 0xFF 0 0).pump y else m

/-- Records that the journal's pages still hold, by first page (Table 5.4). -/
def Half.jHeads (m : Half) : List Nat :=
  ((List.range 15).filter (fun i => decide ((m.gPage 4).getD (8 + i) 0 ≠ 0))).map (· + 5)

/-- ACK of a participant (R158, Table 15.4). -/
def Half.sendAck (m : Half) (y : View) (dest : Nat) (seq : Word) (own : Nat) : Half :=
  m.sheafFrame y dest 0x24 peerStamp (leBytes 4 seq.toNat ++ leBytes 4 own)

/-- A participant learns COMMIT (R157): it applies its actions and sends ACK; one that has applied them acknowledges again. -/
def Half.partCommit (m : Half) (y : View) (coord : Nat) (seq : Word) : Half :=
  match m.partSlot coord seq with
  | some i =>
    if (m.slot i).state = 2 then
      let m1 := (m.commitPrepared y i).pump y
      if m.grn.frozen then m1 else m1.sendAck y coord seq m1.shfSeq
    else if (m.slot i).state = 3 then m.sendAck y coord seq (m.slot i).seq.toNat
    else m
  | none =>
    match m.jHeads.find? (fun p => let l := m.gPage p; decide (leAt l 0 1 = 3) && decide (leAt l 3 1 % 4 = 1)
        && decide (leAt l 16 2 = coord) && decide (leAt l 20 4 = seq.toNat)) with
    | some p => m.sendAck y coord seq (leAt (m.gPage p) 4 4)
    | none => m

/-- A participant learns ABORT (R157). -/
def Half.partAbort (m : Half) (y : View) (coord : Nat) (seq : Word) : Half :=
  let m1 := match m.partSlot coord seq with
    | some i => if (m.slot i).state = 2 then (m.endAbort y i 0 0xFF 0 0).pump y else m
    | none => m
  m1.sendAck y coord seq 0

/-- MZ_ACK_RECEIVE (R158). -/
def Half.ackRx (m : Half) (y : View) (f : MzFrame) : Half :=
  let seq := (mzWord f 0)
  let mark (x : Slot) : Slot := { x with parts := x.parts.map (fun p => if p.addr = f.src then { p with acked := true } else p) }
  if !m.mzMine f then m
  else
    let marked := m.shf.aborts.map (fun e => if e.2.coordSeq = seq then (e.1, mark e.2) else e)
    let left := marked.filter (fun e => !e.2.parts.all (·.acked))
    let m1 := { m with shf := { m.shf with aborts := left } }
    match m1.coordSlot seq with
    | some i => if (m1.slot i).state = 3 then ((m1.setSlot i (mark (m1.slot i))).sheafDone i).pump y else m1
    | none => m1

/-- COMMIT_REPEAT (R158): every 1 ms. -/
def Half.commitRepeat (m : Half) (y : View) (i : Nat) : Half :=
  let x := m.slot i
  let m1 := if x.state = 3 ∧ x.isCoord then m.sendOutcome y x 0x22 else m
  (m.shf.aborts.filter (fun e => decide (e.1 = i))).foldl (fun m e => m.sendOutcome y e.2 0x23) m1

/-- COORDINATOR_ORPHAN (R158): ORPHAN_S has passed: event 0x0907 for each silent participant, and the record may be DONE. -/
def Half.coordOrphan (m : Half) (y : View) (i : Nat) : Half :=
  let tell (m : Half) (x : Slot) : Half :=
    (x.parts.filter (fun p => !p.acked)).foldl (fun m p => m.ev 0x0907 p.addr x.seq.toNat 0 0) m
  let due (x : Slot) : Bool := decide (x.votedAt + m.rdF rShfCtrl 24 8 * oneSec ≤ m.up)
  let old := m.shf.aborts.filter (fun e => decide (e.1 = i) && due e.2)
  let m1 := old.foldl (fun m e => tell m e.2) { m with shf := { m.shf with aborts := m.shf.aborts.filter (fun e => decide (e ∉ old)) } }
  let x := m1.slot i
  if x.state = 3 ∧ x.isCoord ∧ due x then
    let m2 := tell m1 x
    ((m2.setSlot i { x with parts := x.parts.map (fun p => { p with acked := true }) }).sheafDone i).pump y
  else m1

/-- OUTCOME_QUERY (R159). -/
def Half.outcomeQuery (m : Half) (y : View) (i : Nat) : Half :=
  let x := m.slot i
  if x.state = 2 ∧ x.owner = 17 then
    m.sheafFrame y x.coord 0x25 peerStamp (leBytes 4 x.coordSeq.toNat ++ [0, 0, 0, 0])
  else m

/-- R159: the coordinator's answer from its journal: 1 COMMIT, 2 ABORT, 3 UNKNOWN. -/
def Half.outcomeOf (m : Half) (seq : Word) : Nat :=
  match m.coordSlot seq with
  | some i => if (m.slot i).state = 3 then 1 else 2
  | none =>
    if m.shf.aborts.any (fun e => decide (e.2.coordSeq = seq)) then 2
    else
      match m.jHeads.find? (fun p => let l := m.gPage p; (leAt l 3 1).testBit 1 && decide (leAt l 20 4 = seq.toNat)) with
      | some p => if leAt (m.gPage p) 0 1 = 2 ∨ leAt (m.gPage p) 0 1 = 3 then 1 else 2
      | none => 3

/-- MZ_OUTCOME_RECEIVE (R159): a query is answered; an answer settles the participant's record. -/
def Half.outcomeRx (m : Half) (y : View) (f : MzFrame) : Half :=
  let seq := (mzWord f 0)
  let code := leAt f.payload 4 1
  if !m.mzMine f then m
  else if code = 0 then
    m.sheafFrame y f.src 0x25 peerStamp (leBytes 4 seq.toNat ++ [BitVec.ofNat 8 (m.outcomeOf seq), 0, 0, 0])
  else if (m.partSlot f.src seq).isNone then m
  else if code = 1 then m.partCommit y f.src seq
  else if code = 2 then m.partAbort y f.src seq
  else m

/-- PARTICIPANT_ORPHANED (R160). -/
def Half.partOrphan (m : Half) (y : View) (i : Nat) : Half :=
  let x := m.slot i
  if x.state = 2 ∧ x.owner = 17 ∧ x.votedAt + m.rdF rShfCtrl 24 8 * oneSec ≤ m.up then
    let m1 := m.setSlot i { x with uncertain := true }
    (((m1.endAbort y i 0 0xFF 0 0).irq 0x021 2).ev 0x0906 x.coord x.coordSeq.toNat x.seq.toNat 0).pump y
  else m

/-- Several slots are aborted for one reason. -/
def Half.abortAll (m : Half) (y : View) (reason : Nat) : List Nat → Half
  | [] => m
  | i :: l => (m.endAbort y i reason 0xFF 0 0).abortAll y reason l

/-- R154: PFW asserts: open sheaves and PREPARED coordinators abort. -/
def Half.sheafPfw (m : Half) (y : View) : Half :=
  m.abortAll y 6 ((m.shf.slots.filter (fun e => decide (e.2.state = 1) || (decide (e.2.state = 2) && e.2.isCoord))).map (·.1))

/-- A record of the journal as a restart finds it (R153): first page, pages, state, flags, sequences, coordinator and actions. -/
def Half.jSlot (m : Half) (p : Nat) : Slot :=
  let l := m.gPage p
  let n := leAt l 1 1
  let mask := leAt l 8 8
  let acts := (List.range n).map (fun k =>
    let b := if k < 3 then (l.drop (24 + 12 * k)).take 12
      else ((m.gPage (jPage p (1 + (k - 3) / 5))).drop (12 * ((k - 3) % 5))).take 12
    actOf b 0 localStamp (mask.testBit k))
  { slotReset with
    state := leAt l 0 1 + 1
    acts := acts
    seq := word (leAt l 4 4)
    coord := leAt l 16 2
    coordSeq := word (leAt l 20 4)
    cross := (leAt l 3 1).testBit 0
    isCoord := (leAt l 3 1).testBit 1
    owner := if leAt l 3 1 % 4 = 1 then 17 else 255
    firstPg := p
    nPg := leAt l 2 1
    openedAt := m.up
    votedAt := m.up }

/-- Records of the journal that are not DONE, in sheaf-sequence order up to the header's (R62, R153). -/
def Half.jLive (m : Half) : List Slot :=
  let l := (m.jHeads.map m.jSlot).filter (fun x => decide (x.state = 2) || decide (x.state = 3))
  l.mergeSort (fun a b => decide ((a.seq.toNat + 2 ^ 32 - (m.shfSeq + 1) % 2 ^ 32) % 2 ^ 32
    ≤ (b.seq.toNat + 2 ^ 32 - (m.shfSeq + 1) % 2 ^ 32) % 2 ^ 32))

/-- R153: one record at a warm restart, in slot i. A coordinator's record names no participant, so its ABORT is broadcast. -/
def Half.reapply (m : Half) (y : View) (i : Nat) (x : Slot) : Half :=
  let m1 := m.setSlot i x
  if x.state = 3 then
    let go (a : Act) : Bool := decide (a.kind ≠ 8) && (isLevel a || !a.applied)
    let n := (x.acts.filter go).length
    let m2 := m1.applyActs y i x.seq x.acts go
    let m3 := m2.ev 0x0902 x.seq.toNat n (x.acts.length - n) 0
    (m3.markActs i (fun _ a => decide (a.kind = 8) || (decide (a.kind ≠ 5) && decide (a.kind ≠ 6)))).sheafDone i
  else if x.owner = 17 then m1
  else (m1.setSlot i { x with parts := [⟨0xFFFF, false, false⟩] }).endAbort y i 9 0xFF 0 0

/-- Each record in a slot of its own. -/
def Half.reapplyAll (m : Half) (y : View) : List (Slot × Nat) → Half
  | [] => m
  | e :: l => (m.reapply y (9 + e.2) e.1).reapplyAll y l

/-- R153: the journal at a restart. No sheaf that was open survives. -/
def Half.sheafRestart (m : Half) (y : View) (warm : Bool) : Half :=
  let m1 := { m with shf := ⟨[], m.shf.seen, [], [], []⟩ }
  let l := m1.jLive
  if warm then m1.reapplyAll y l.zipIdx
  else
    (l.foldl (fun m x => m.ev 0x0903 x.seq.toNat (x.state - 1) x.acts.length 0) m1).gPut (4 * 64 + 8) (List.replicate 15 0)

/-- R161: an IPP SHEAF that has passed the checks of Table 3.8: it is opened, filled and its commit requested. q names its
session. -/
def Half.ippSheaf (m : Half) (y : View) (q : IppReq) (st : Stamp) : Half :=
  let n := leAt q.payload 0 2
  let ent (k : Nat) : List Byte := (q.payload.drop (8 + 16 * k)).take 16
  let kinds := (List.range n).map (fun k => leAt (ent k) 2 1)
  if n = 0 ∨ 62 < n ∨ q.payload.length ≠ 8 + 16 * n ∨ kinds.any (fun k => decide (k = 8) || decide (15 < k)) then
    m.ippReply q 0 11 []
  else if stampClass st = 2 ∧ kinds.any (fun k => decide (k ≠ 1)) then m.ippReply q 0 3 []
  else
    match m.freeSlot with
    | none => m.ippReply q 0 12 []
    | some i =>
      let m0 := m.openSlot i 5
      let m1 := (m0.setSlot i { m0.slot i with rsp := some q }).setView 5 rShfStat (shfStatWord true i 1 0 0)
      let acts : List Act := (List.range n).map (fun k => let e := ent k
        ⟨leAt e 2 1, leAt e 4 2, leAt e 3 1, BitVec.ofNat 64 (leAt e 8 8), leAt e 0 2, [], st, false⟩)
      let m2 := m1.addActs y i acts
      if (m2.slot i).state = 1 ∧ (m2.slot i).acts.length = n then (m2.requestCommit i (leAt q.payload 2 2)).pump y else m2

/-- SHF's live registers (Tables 5.7 and 5.8), for accessor n. -/
def Half.shfRead (m : Half) (k : Nat) : Option Word :=
  let x := m.slot (m.rdF rShfSlotSel 0 5)
  let live (e : Nat × Slot) : Bool := decide (e.2.firstPg ≠ 0)
  if k = rShfJrnl then some (word ((m.shf.slots.filter live).length * 2 ^ 8 + m.jFree))
  else if k = rShfLastSeq then some (word m.shfSeq)
  else if k = rShfSlots then some (word (maskOf ((m.shf.slots.filter (fun e => decide (e.2.state ≠ 0))).map (·.1))))
  else if k = rShfSlotInfo then some (word ((if x.owner = 255 then 0 else x.owner) * 2 ^ 24 + x.state * 2 ^ 20 + x.acts.length))
  else if k = rShfSlotInfo + 4 then some (if x.state = 2 then x.coordSeq else x.seq)
  else if k = rShfSlotInfo + 8 then some (word (x.parts.length * 2 ^ 16 + x.coord))
  else if k = rShfSlotInfo + 12 then
    let orphan := m.rdF rShfCtrl 24 8 * oneSec
    some (word (if x.state = 2 ∧ x.isCoord then (x.deadline.toNat - m.tai.toNat) / 1000
      else if x.state = 2 ∨ (x.state = 3 ∧ x.isCoord) then (x.votedAt + orphan - m.up) / 1000 else 0))
  else none

/-- SHF.CTRL's ranges (Table 5.8). -/
def shfCtrlRule (v : Word) : Nat :=
  if fld v 24 8 = 0 ∨ fld v 16 8 = 0 ∨ fld v 0 16 = 0 ∨ 60000 < fld v 0 16 then 5 else 0

end Sys2Proof.Machine
end

