-- ==== Sys2Proof/Machine/CanBase.lean ====
section
/-! DEFINITION. CAN controllers: objects and the hash directory (R308 to R310), reception (R311, R312), transmission (R313,
R314), error confinement (R316, R317) and modes (R318). -/
namespace Sys2Proof.Machine

/-- A statistics counter of a controller (Table 12.6, from STAT_RXF on), with HALF_RANGE at half range. -/
def Half.canCount (m : Half) (c k : Nat) : Half := m.count (rCanCnt c k) 1 (0x070 + c) 4

/-- The controller takes part in its bus: powered, and not OFF. -/
def Half.canOn (m : Half) (c : Nat) : Bool := m.on (0x070 + c) && decide ((m.canOf c).mode ≠ 0)

/-- R315, R318: it drives no dominant bit: LISTEN, or no half holds a valid lease, or the bus has not been idle since one returned. -/
def Half.canListens (m : Half) (y : View) (c : Nat) : Bool := decide ((m.canOf c).mode = 2) || !y.any || (m.canOf c).idle

/-- R315: the lease returns: controllers that are not OFF resume at the next bus idle. -/
def Half.canLeaseBack (m : Half) : Half :=
  (List.range 16).foldl (fun m c => if (m.canOf c).mode = 0 then m else m.updCan c (fun x => { x with idle := true })) m

/-- CAN.TB at an instant (Table 12.6). -/
def Half.canTb (m : Half) (c since : Nat) : Word := word ((since - (m.canOf c).tb0) / 1000)

/-- R310: the bucket at which the search for an identifier starts. -/
def canHash (id : Nat) : Nat := (id ^^^ (id / 2 ^ 11) ^^^ (id / 2 ^ 22)) % 2 ^ 11

/-- R310: the eight buckets of an identifier, in order. -/
def canBuckets (id : Nat) : List Nat := (List.range 8).map (fun k => (canHash id + k) % 2048)

/-- The enabled extended object of an identifier; every lookup examines all eight buckets (R310). -/
def CanSt.findExt (x : CanSt) (id : Nat) : Option Nat :=
  ((canBuckets id).map (fun b => sget 0 x.hash b)).filterMap (fun n => if n = 0 then none else some (n - 1))
    |>.find? (fun o => decide (fld (x.obj o 1) 0 29 = id))

/-- The enabled object of an identifier and format. -/
def CanSt.findObj (x : CanSt) (ext : Bool) (id : Nat) : Option Nat :=
  if ext then x.findExt (id % 2 ^ 29) else if x.en (id % 2048) then some (id % 2048) else none

/-- Arbitration order of an object's frame: the base identifier, standard ahead of extended, then the rest (R314). -/
def CanSt.arbKey (x : CanSt) (o : Nat) : Nat :=
  if o < 2048 then o * 2 ^ 19
  else
    let id := fld (x.obj o 1) 0 29
    (id / 2 ^ 18) * 2 ^ 19 + 2 ^ 18 + id % 2 ^ 18

/-- The objects with a request pending. -/
def CanSt.pending (x : CanSt) : List Nat :=
  (x.objs.filter (fun e => decide (e.1 % 20 = 2) && flag e.2 29)).map (fun e => e.1 / 20)

/-- The earlier of two objects in arbitration. -/
def CanSt.earlier (x : CanSt) (a : Option Nat) (o : Nat) : Option Nat :=
  match a with
  | none => some o
  | some p => if x.arbKey o < x.arbKey p then some o else some p

/-- R314: the object whose frame contends first. A classical controller sends no FD frame (R306). -/
def CanSt.first (x : CanSt) (fdEn : Bool) : Option Nat :=
  (x.pending.filter (fun o => x.en o && x.isTx o && (fdEn || !flag (x.obj o 0) 29))).foldl x.earlier none

/-- The points bound to receive objects of a controller, whose devices it reports unreachable (R312). -/
def Half.canPoints (m : Half) (c : Nat) : List Nat :=
  m.sourcePoints (fun d => decide (bKind d = 2) && decide (bByte d 8 = c) && !(m.canOf c).isTx (bHalf d 9))

/-- A request is abandoned (R314): TX_PEND clears and TX_FAIL sets. -/
def CanSt.drop (x : CanSt) (o : Nat) : CanSt :=
  { x with latch := sdel x.latch o }.setWord o 2 (putFlag (putFlag (x.obj o 2) 29 false) 28 true)

/-- The data of an object's frame (R313): as they stood when its arbitration started, else as they stand. -/
def CanSt.frame (x : CanSt) (o : Nat) : List Byte := (sfind x.latch o).getD ((x.data o).take (x.txLen o))

/-- R313: arbitration for an object's frame starts: later commits go with the next request. -/
def CanSt.begin_ (x : CanSt) (o : Nat) : CanSt := { x with latch := sput x.latch o (x.frame o) }

/-- R314: a request is abandoned with the event; cause 1 retry limit, 2 single-shot at bus-off. -/
def Half.canAbandon (m : Half) (c o cause : Nat) : Half :=
  ((m.updCan c (fun x => x.drop o)).irq (0x070 + c) 2).ev 0x0E05 c o (fld ((m.canOf c).obj o 2) 0 4) cause

/-- Abandons a list of requests. -/
def Half.canAbandonAll (m : Half) (c cause : Nat) : List Nat → Half
  | [] => m
  | o :: os => (m.canAbandon c o cause).canAbandonAll c cause os

/-- CAN_ERROR_STATE_CHANGE (R317, Tables 12.2 and 12.3): one transition that TEC and REC call for. -/
def Half.canState1 (m : Half) (y : View) (c : Nat) : Half :=
  let x := m.canOf c
  let err := m.rdN (rCanLasterr c)
  if x.state = 0 ∧ (127 < x.tec ∨ 127 < x.rxc) then
    ((m.updCan c (fun x => { x with state := 1 })).irq (0x070 + c) 0).ev 0x0E01 c x.tec x.rxc err
  else if x.state = 1 ∧ 255 < x.tec then
    let m1 := ((m.updCan c (fun x => { x with state := 2, recov := false })).irq (0x070 + c) 0).ev 0x0E02 c x.rxc x.pending.length err
    let m2 := (m1.canCount c 10).canAbandonAll c 2 (x.pending.filter (fun o => flag (x.obj o 0) 27))
    m2.pointFlags y 5 true (m2.canPoints c)
  else if x.state = 1 ∧ x.tec ≤ 127 ∧ x.rxc ≤ 127 then
    ((m.updCan c (fun x => { x with state := 0 })).irq (0x070 + c) 0).ev 0x0E03 c 1 x.tec x.rxc
  else m

/-- The transitions that TEC and REC call for, one after the other. -/
def Half.canState (m : Half) (y : View) (c : Nat) : Half := (m.canState1 y c).canState1 y c

/-- Any to ERROR_ACTIVE with TEC and REC at 0 (Table 12.3). -/
def Half.canActive (m : Half) (c : Nat) : Half :=
  let x := m.canOf c
  let m1 := m.updCan c (fun x => { x with state := 0, tec := 0, rxc := 0, recov := false })
  if x.state = 0 then m1 else (m1.irq (0x070 + c) 0).ev 0x0E03 c x.state 0 0

/-- A frame has been received, or a transmission acknowledged (R316). -/
def Half.canHeard (m : Half) (c : Nat) : Half := m.updCan c (fun x => { x with alone := false, ackRun := 0, excep := false })

/-- A reception without error (ISO 11898-1): REC falls by one, or from above 127 to a value between 119 and 127. -/
def Half.canRxOk (m : Half) (y : View) (c : Nat) : Half :=
  let x := m.canOf c
  let m1 := m.canHeard c
  if m1.canListens y c then m1
  else if 127 < x.rxc then
    ({ m1.updCan c (fun x => { x with rxc := 119 + Config.canRec m.fresh % 9 }) with fresh := m.fresh + 1 }).canState y c
  else (m1.updCan c (fun x => { x with rxc := x.rxc - 1 })).canState y c

/-- R311: a set of LOST is counted, and the first in any second recorded. -/
def Half.canLost (m : Half) (c o : Nat) : Half :=
  let m1 := (m.canCount c 9).irq (0x070 + c) 3
  if m1.passed (m1.canOf c).lostAt oneSec then
    (m1.updCan c (fun x => { x with lostAt := some m1.up })).ev 0x0E07 c o (m1.rdN (rCanCnt c 9)) 0
  else m1

/-- R311: a frame that finds no enabled receive object is counted, and with CAN.RXQ.EN sent as a descriptor; remote frames are
only counted (R304). -/
def Half.canUnmatched (m : Half) (c : Nat) (f : CanFrame) : Half :=
  let m1 := m.canCount c 8
  if m1.rdB (rCanRxq c) 31 ∧ !f.rtr then
    let flags := f.ext.toNat + 2 * f.fd.toNat + 4 * f.brs.toNat + 8 * f.esi.toNat
    (m1.post (m1.rdF (rCanRxq c) 0 8) 0x03 (0x070 + c) m1.tai (mkStamp 4 0 (0x18 + c))
      ([BitVec.ofNat 8 c, BitVec.ofNat 8 flags, BitVec.ofNat 8 f.dlc, 0] ++ leBytes 4 f.id
        ++ leBytes 4 (m1.canTb c (m1.up - f.sof)).toNat)
      (f.data.take (dlcLen f.fd f.dlc))).1
  else m1

/-- R311, R312: a frame is stored in its object, its reflexes fire (R295) and its source bindings present it. -/
def Half.canStore (m : Half) (y : View) (c o : Nat) (f : CanFrame) : Half :=
  let x := m.canOf c
  let lost := flag (x.obj o 2) 31
  let stat := word (2 ^ 31 + lost.toNat * 2 ^ 30 + (x.obj o 2).toNat % 2 ^ 30 / 2 ^ 28 * 2 ^ 28 + f.fd.toNat * 2 ^ 27
    + f.esi.toNat * 2 ^ 26 + f.dlc % 16 * 2 ^ 16 + fld (x.obj o 2) 0 4)
  let bs := padTo (dlcLen f.fd f.dlc) f.data
  let m1 := m.updCan c (fun x => ((x.pokeData o 0 bs).setWord o 2 stat).setWord o 3 (m.canTb c (m.up - f.sof)))
  let m2 := m1.canCount c 0
  let m3 := if lost then m2.canLost c o else m2
  let data := (m3.canOf c).data o
  let time : Dword := BitVec.ofNat 64 ((m3.tai.toNat - f.sof) / 25 * 25)
  (m3.reflexCan y c o data).presentAll y (leNat data) time
    (m3.sources (fun d => decide (bKind d = 2) && decide (bByte d 8 = c) && decide (bHalf d 9 = o)))

/-- R306: a protocol exception: the controller integrates to bus idle, and the frame counts in CAN.STAT_FORM. -/
def Half.canExcept (m : Half) (c : Nat) : Half := (m.updCan c (fun x => { x with excep := true })).canCount c 5

/-- CAN_FRAME_STORED (R304, R306, R311). -/
def Half.canReceive (m : Half) (y : View) (c : Nat) (f : CanFrame) : Half :=
  if !m.canOn c || decide ((m.canOf c).state = 2) then m
  else
    let m0 := if f.arb then
        (match (m.canOf c).first (m.rdB (rCanCtrl c) 4) with
         | some o => (m.updCan c (fun x => x.begin_ o)).canCount c 7
         | none => m.canCount c 7)
      else m
    if f.fd ∧ !m.rdB (rCanCtrl c) 4 then m0.canExcept c
    else
      let m1 := m0.canRxOk y c
      let x := m1.canOf c
      if f.rtr then m1.canUnmatched c f
      else
        match x.findObj f.ext f.id with
        | some o => if x.isTx o then m1.canUnmatched c f else m1.canStore y c o f
        | none => m1.canUnmatched c f

/-- R313: the start of frame of an object's frame: the sheaf actions that wait for it are applied (R149). -/
def Half.canStarted (m : Half) (c o : Nat) : Half :=
  let ws := (m.canOf c).waits.filter (fun e => decide (e.1 / 32 = o))
  let m1 := m.updCan c (fun x => { x with waits := x.waits.filter (fun e => decide (e.1 / 32 ≠ o)) })
  ws.foldl (fun m e => m.msgsApplied e.2.slot e.2.acts) m1

/-- The controller may send the frame of object o now: NORMAL with a lease, not BUS_OFF, and o contends first (R314, R315). -/
def Half.canMaySend (m : Half) (y : View) (c o : Nat) : Bool :=
  let x := m.canOf c
  m.canOn c && !m.canListens y c && decide (x.state ≠ 2) && decide (x.first (m.rdB (rCanCtrl c) 4) = some o)

/-- CAN_FRAME_SENT (R311 to R314): the frame won arbitration, started and was acknowledged. -/
def Half.canSent (m : Half) (y : View) (c o : Nat) : Half :=
  if m.canMaySend y c o then
    let x := m.canOf c
    let m1 := m.canStarted c o
    let m2 := (m1.updCan c (fun x =>
      ({ x with latch := sdel x.latch o }.setWord o 2 (putFlag (x.obj o 2) 29 false)).setWord o 3 (m.canTb c m.up))).canHeard c
    let m3 := (m2.updCan c (fun x => { x with tec := x.tec - 1 })).canCount c 1
    ((m3.log (.can c o (x.frame o))).canState y c).pump y
  else m

/-- STAT counter of an error code of CAN.LASTERR. -/
def canErrCnt (kind : Nat) : Nat :=
  if kind = 1 then 3 else if kind = 2 then 5 else if kind = 3 then 6 else if kind = 4 ∨ kind = 5 then 2 else if kind = 6 then 4 else 5

/-- The statistics and CAN.LASTERR of an error. -/
def Half.canErr (m : Half) (c : Nat) (e : CanError) : Half :=
  (m.canCount c (canErrCnt e.kind)).wrN (rCanLasterr c) (e.dataPhase.toNat * 2 ^ 8 + e.kind % 8)

/-- R316: an attempt of object o has ended in error; ALONE at the 16th acknowledgement error in a row. -/
def Half.canAlone (m : Half) (y : View) (c o : Nat) (ack : Bool) : Half :=
  let n := if ack then (m.canOf c).ackRun + 1 else 0
  let m1 := m.updCan c (fun x => { x with ackRun := n, ackObj := o })
  if n = 16 ∧ !(m.canOf c).alone then
    let m2 := ((m1.updCan c (fun x => { x with alone := true })).irq (0x070 + c) 1).ev 0x0E04 c (m1.canOf c).tec o 0
    m2.pointFlags y 5 true (m2.canPoints c)
  else m1

/-- R314: TRIES counts the attempt, and the request is abandoned at RETRY. -/
def Half.canTry (m : Half) (c o : Nat) : Half :=
  let x := m.canOf c
  let n := fld (x.obj o 2) 0 4 + 1
  let limit := if flag (x.obj o 0) 27 then 1 else fld (x.obj o 0) 20 4
  let m1 := m.updCan c (fun x => x.setWord o 2 (putFld (x.obj o 2) 0 4 (min n 15)))
  if x.pend o ∧ limit ≠ 0 ∧ limit ≤ n then m1.canAbandon c o 1 else m1

/-- CAN_TX_ERROR (R314, R316, R317): an attempt of object o ended in error. -/
def Half.canTxError (m : Half) (y : View) (c o : Nat) (e : CanError) : Half :=
  if m.canMaySend y c o then
    let x := m.canOf c
    let keep := (decide (e.kind = 3) && decide (x.state = 1) && e.quiet) || e.arbStuff
    let m1 := ((m.canStarted c o).updCan c (fun x => x.begin_ o)).canErr c e
    let m2 := m1.updCan c (fun x => { x with tec := min (x.tec + (if keep then 0 else 8) + 8 * e.extra) 511 })
    (((m2.canTry c o).canState y c).canAlone y c o (decide (e.kind = 3))).pump y
  else m

/-- CAN_RECEIVE_ERROR (R306, R317): REC rises by one, and by eight for each further increment. While MODE is OFF the error is only
counted. -/
def Half.canRxError (m : Half) (y : View) (c : Nat) (e : CanError) : Half :=
  if !m.on (0x070 + c) || decide ((m.canOf c).state = 2) then m
  else if (m.canOf c).mode = 0 then m.canCount c (canErrCnt e.kind)
  else if e.kind = 0 then m.canExcept c
  else
    let m1 := m.canErr c e
    if m1.canListens y c then m1
    else (m1.updCan c (fun x => { x with rxc := min (x.rxc + 1 + 8 * e.extra) 255 })).canState y c

/-- BUS_OFF_RECOVERY_START (R317). -/
def Half.canRecovStart (m : Half) (c : Nat) : Half :=
  if m.on (0x070 + c) ∧ (m.canOf c).state = 2 ∧ m.rdB (rCanCtrl c) 5 then m.updCan c (fun x => { x with recov := true }) else m

/-- BUS_OFF_RECOVERED (Table 12.3). -/
def Half.canRecovered (m : Half) (c : Nat) : Half :=
  if m.canOn c ∧ (m.canOf c).state = 2 ∧ (m.canOf c).recov then m.canActive c else m

/-- CAN_MODE_EFFECT (R318): at bus idle CTRL.MODE comes into effect, and a controller that waited for it after a lease returned resumes
NORMAL (R315). Leaving OFF starts ERROR_ACTIVE (Table 12.3). -/
def Half.canModeEffect (m0 : Half) (c : Nat) : Half :=
  let new := m0.rdF (rCanCtrl c) 0 2
  let old := (m0.canOf c).mode
  let m := m0.updCan c (fun x => { x with idle := false })
  if !m.on (0x070 + c) || decide (new = old) then m
  else
    let m1 := m.updCan c (fun x => { x with mode := new, excep := false })
    if old = 0 then m1.canActive c else m1

/-- CAN.TXREQ without ABORT (R313): the status goes to the writer's CAN.TXSTAT. -/
def Half.canTxreqEff (m : Half) (n c : Nat) (v : Word) : Half × Nat :=
  let o := fld v 0 12
  if 3072 ≤ o then (m.setView n (rCanTxstat c) 5, 5)
  else
    match m.canRequest c o with
    | (m1, 0) => (m1.setView n (rCanTxstat c) 0, 0)
    | (m1, st) => (m1.setView n (rCanTxstat c) (word st), 8)

/-- CAN.TXREQ with ABORT (Table 12.6): the object's pending request is abandoned. -/
def Half.canAbortEff (m : Half) (n c : Nat) (v : Word) : Half × Nat :=
  let o := fld v 0 12
  if 3072 ≤ o then (m.setView n (rCanTxstat c) 5, 5)
  else if (m.canOf c).pend o then (((m.updCan c (fun x => x.drop o)).irq (0x070 + c) 2).setView n (rCanTxstat c) 0, 0)
  else (m.setView n (rCanTxstat c) 0, 0)

/-- A write of CAN.TXREQ. -/
def Half.canReqEff (m : Half) (n c : Nat) (v : Word) : Half × Nat :=
  if flag v 15 then m.canAbortEff n c v else m.canTxreqEff n c v

/-- CAN.CMD (Table 12.6): 1 RECOVER, 2 ABORT_ALL. -/
def Half.canCmdEff (m : Half) (c : Nat) (v : Word) : Half × Nat :=
  let x := m.canOf c
  if fld v 0 4 = 1 then
    (if x.state = 2 then (m.updCan c (fun x => { x with recov := true }), 0) else (m, 8))
  else if fld v 0 4 = 2 then
    (if x.pending.isEmpty then (m, 0)
     else ((x.pending.foldl (fun m o => m.updCan c (fun x => x.drop o)) m).irq (0x070 + c) 2, 0))
  else (m, 5)

/-- CAN.ACK (R311). -/
def Half.canAckEff (m : Half) (c : Nat) (v : Word) : Half × Nat :=
  let o := fld v 0 12
  if 3072 ≤ o then (m, 5)
  else (m.updCan c (fun x => x.setWord o 2 (putFlag (putFlag (x.obj o 2) 31 false) 30 false)), 0)

/-- CAN.CLR (Table 12.6). -/
def Half.canClrEff (m : Half) (c : Nat) (v : Word) : Half × Nat :=
  if flag v 0 then ((List.range 11).foldl (fun m k => m.wrN (rCanCnt c k) 0) m, 0) else (m, 0)

/-- R307: the data-phase rate exceeds 1 Mbit/s. -/
def Half.canFast (m : Half) (c : Nat) : Bool :=
  let w := m.rd (rCanDbt c)
  decide ((fld w 0 5 + 1) * (fld w 16 5 + fld w 8 4 + 3) < 40)

/-- CAN.CTRL (R306, R307, R318). -/
def Half.canCtrlEff (m : Half) (n c : Nat) (st : Stamp) (v : Word) : Half × Nat :=
  let k := rCanCtrl c
  let old := m.rdF k 0 2
  let new := fld v 0 2
  if new = 3 then (m, 5)
  else if old ≠ 0 ∧ flag v 4 ≠ m.rdB k 4 then (m, 5)
  else if new = 1 ∧ flag v 4 ∧ m.canFast c ∧ !m.rdB (rCanTdc c) 31 then (m, 5)
  else
    let m1 := m.plainWrite n k v
    if new = old then (m1, 0)
    else
      let m2 := m1.ev 0x0E06 c old new st.toNat
      let now := (m2.canOf c).mode
      (if new ≠ 1 ∧ now ≠ 1 then m2.canModeEffect c else m2, 0)

/-- R306: CAN.NBT, CAN.DBT and CAN.TDC take effect while MODE is OFF alone, for bit times of 8 quanta or more at the rates of
R304. -/
def Half.canTimingRule (m : Half) (c k : Nat) (v : Word) : Nat :=
  let nq := fld v 17 8 + fld v 10 7 + 3
  let nt := (fld v 0 8 + 1) * nq
  let dq := fld v 16 5 + fld v 8 4 + 3
  let dt := (fld v 0 5 + 1) * dq
  if m.rdF (rCanCtrl c) 0 2 ≠ 0 then 5
  else if k = rCanNbt c then
    (if nq < 8 ∨ nt < 40 ∨ 4000 < nt ∨ fld v 17 8 = 0 then 5 else 0)
  else if k = rCanDbt c then (if dq < 8 ∨ dt < 8 then 5 else 0)
  else 0

/-- The registers of a CAN page that have a rule: the effect of a write by accessor n with a stamp. -/
def Half.canWrite (m : Half) (n c k : Nat) (st : Stamp) (v : Word) : Half × Nat :=
  if k = rCanCtrl c then m.canCtrlEff n c st v
  else if k = rCanCmd c then m.canCmdEff c v
  else if k = rCanTxreq c then m.canReqEff n c v
  else if k = rCanAck c then m.canAckEff c v
  else if k = rCanClr c then m.canClrEff c v
  else
    let code :=
      if k = rCanNbt c ∨ k = rCanDbt c ∨ k = rCanTdc c then m.canTimingRule c k v
      else if k = rCanRxq c then m.queueRule k v false
      else if k = rCanRecov c then (if fld v 0 16 = 0 ∨ 60000 < fld v 0 16 then 5 else 0)
      else 0
    if code = 0 then (m.plainWrite n k v, 0) else (m, code)

/-- The live registers of a CAN page (Table 12.6). -/
def Half.canRead (m : Half) (y : View) (c k : Nat) : Option Word :=
  let x := m.canOf c
  if k = rCanStat c then
    some (word (x.recov.toNat * 2 ^ 7 + (!y.any).toNat * 2 ^ 6 + x.alone.toNat * 2 ^ 5
      + (decide (x.mode ≠ 0) && !x.excep).toNat * 2 ^ 4 + x.mode * 2 ^ 2 + x.state))
  else if k = rCanErrcnt c then some (word (x.tec * 2 ^ 16 + x.rxc))
  else if k = rCanTb c then some (m.canTb c m.up)
  else none

/-- The controller and the offset within its objects of an address from 0x5400_0000. -/
def canPlace (addr : Nat) : Nat × Nat := ((addr - 0x54000000) / 0x3E000, (addr - 0x54000000) % 0x3E000)

/-- A word of an object as software reads it. -/
def Half.canWord (m : Half) (addr : Nat) : Word :=
  let (c, off) := canPlace addr
  if 0x3C000 ≤ off then Config.canDirWord (sget 0 (m.canOf c).hash ((off - 0x3C000) / 4))
  else (m.canOf c).obj (off / 80) (off % 80 / 4)

/-- R310: disabling an extended object frees its bucket. -/
def CanSt.unhash (x : CanSt) (o : Nat) : CanSt := { x with hash := x.hash.filter (fun e => decide (e.2 ≠ o + 1)) }

/-- R310: enabling an extended object enters it at the first free bucket of its eight; FULL if none is free, REFUSED if another
enabled object holds the identifier. -/
def CanSt.enhash (x : CanSt) (o id : Nat) : CanSt × Nat :=
  if (x.findExt id).isSome then (x, 5)
  else
    match (canBuckets id).find? (fun b => decide (sget 0 x.hash b = 0)) with
    | none => (x, 12)
    | some b => ({ x with hash := sset 0 x.hash b (o + 1) }, 0)

/-- R309: the words of a commit enter an object: word 0, the identifier, and the data of a transmit object. -/
def CanSt.commit (x : CanSt) (o : Nat) (w0 : Word) (id : Nat) (data : List Byte) : CanSt :=
  let x1 := x.setWord o 0 w0
  let x2 := if 2048 ≤ o then x1.setWord o 1 (word id) else x1
  if flag w0 30 then x2.pokeData o 0 data else x2

/-- The fields of word 0 that a write sets (Table 12.1). -/
def canWord0 (o : Nat) (v : Word) : Word := (v &&& 0xFCFF3F00) ||| (if 2048 ≤ o then 0x02000000 else 0)

/-- R309, R310, Table 12.1: a commit of object o. Answers a status of Table 3.7. -/
def CanSt.commitObj (x : CanSt) (fdEn : Bool) (o : Nat) (v : Word) (idw : Word) (data : List Byte) : CanSt × Nat :=
  let w0 := canWord0 o v
  let id := if 2048 ≤ o then fld idw 0 29 else o
  let was := x.en o
  let willBe := flag w0 31
  let old := x.obj o 0
  if was && willBe && (decide (flag old 30 ≠ flag w0 30) || decide (flag old 29 ≠ flag w0 29)
      || decide (fld (x.obj o 1) 0 29 ≠ id)) then (x, 5)
  else if willBe && flag w0 29 && !fdEn then (x, 5)
  else if 59 < fld w0 8 6 then (x, 5)
  else if decide (2048 ≤ o) && willBe && !was then
    (match x.enhash o id with
     | (x1, 0) => (x1.commit o w0 id data, 0)
     | (_, st) => (x, st))
  else if decide (2048 ≤ o) && was && !willBe then ((x.unhash o).commit o w0 id data, 0)
  else (x.commit o w0 id data, 0)

/-- A refused store or load outside the register-page region (R37, R51). -/
def Half.refuseRegion (m : Half) (r : Req) (addr status : Nat) : Half :=
  let acc := if status = 12 then 6 else accStatus status
  (if status = 4 ∨ status = 1 ∨ status = 2 ∨ status = 3 ∨ status = 5 ∨ status = 12 then m.accRecord r addr acc else m).answer r
    status 0

/-- R54, R309: a word stored at an address of the CAN objects: staged, or for word 0 committed. Read-only words are discarded. -/
def Half.canRegion (m : Half) (r : Req) (addr : Nat) (v : Word) : Half :=
  let n := reqNum r
  let (c, off) := canPlace addr
  let o := off / 80
  if 16 ≤ c then m.refuseRegion r addr 1
  else if addr % 4 ≠ 0 then m.refuseRegion r addr 2
  else if !m.ready (0x070 + c) then m.refuseRegion r addr 4
  else if 0x3C000 ≤ off then m.answer r 0 0
  else if off % 80 ≠ 0 then
    ((if off % 80 / 4 = 2 ∨ off % 80 / 4 = 3 then m
      else m.updAcc n (fun a => { a with staged := sput a.staged addr ⟨v, 0⟩ }))).answer r 0 0
  else
    let x := m.canOf c
    let idw := (m.stagedWord n (addr + 4)).getD (x.obj o 1)
    let data := (List.range 16).flatMap (fun i => leBytes 4 ((m.stagedWord n (addr + 16 + 4 * i)).getD (x.obj o (4 + i))).toNat)
    match x.commitObj (m.rdB (rCanCtrl c) 4) o v idw data with
    | (x1, 0) => ((m.dropStaged n addr 20).updCan c (fun _ => x1)).answer r 0 0
    | (_, st) => m.refuseRegion r addr st

end Sys2Proof.Machine
end

