-- ==== Sys2Proof/Machine/Can.lean ====
section
/-! DEFINITION. The commands of the CAN controllers (R304 to R322). -/
namespace Sys2Proof.Machine

/-- CAN_FRAME_STORED (R311). -/
def execCanFrameStored (c : Fin 16) (f : CanFrame) (s : State) : Host.Outcome State Fault Refusal :=
  .next (s.lineInput (fun y m => m.canReceive y c.val f))

/-- CAN_TXREQ (R313). -/
def execCanTxreq (h : HalfId) (r : Req) (c : Fin 16) (v : Word) (s : State) : Host.Outcome State Fault Refusal :=
  .next (s.regCmd h r (rCanTxreq c.val) v (fun m => m.canTxreqEff (reqNum r) c.val v))

/-- CAN_TX_ABORT (Table 12.6): CAN.TXREQ written with ABORT. -/
def execCanTxAbort (h : HalfId) (r : Req) (c : Fin 16) (v : Word) (s : State) : Host.Outcome State Fault Refusal :=
  .next (s.regCmd h r (rCanTxreq c.val) (v ||| 0x8000) (fun m => m.canAbortEff (reqNum r) c.val v))

/-- CAN_FRAME_SENT (R314). -/
def execCanFrameSent (c : Fin 16) (o : Nat) (s : State) : Host.Outcome State Fault Refusal :=
  .next (s.lineInput (fun y m => m.canSent y c.val o))

/-- CAN_TX_ERROR (R314, R316). -/
def execCanTxError (c : Fin 16) (o : Nat) (e : CanError) (s : State) : Host.Outcome State Fault Refusal :=
  .next (s.lineInput (fun y m => m.canTxError y c.val o e))

/-- CAN_RECEIVE_ERROR (R317). -/
def execCanReceiveError (c : Fin 16) (e : CanError) (s : State) : Host.Outcome State Fault Refusal :=
  .next (s.lineInput (fun y m => m.canRxError y c.val e))

/-- BUS_OFF_RECOVERY_START (R317). -/
def execBusOffRecoveryStart (h : HalfId) (c : Fin 16) (s : State) : Host.Outcome State Fault Refusal :=
  .next (s.busLocal h (fun _ m => m.canRecovStart c.val))

/-- RECOVER (R317). -/
def execCanRecover (h : HalfId) (r : Req) (c : Fin 16) (s : State) : Host.Outcome State Fault Refusal :=
  .next (s.regCmd h r (rCanCmd c.val) 1 (fun m => m.canCmdEff c.val 1))

/-- BUS_OFF_RECOVERED (R317). -/
def execBusOffRecovered (c : Fin 16) (s : State) : Host.Outcome State Fault Refusal :=
  .next (s.busInput (fun _ m => m.canRecovered c.val))

/-- ABORT_ALL (R322). -/
def execCanAbortAll (h : HalfId) (r : Req) (c : Fin 16) (s : State) : Host.Outcome State Fault Refusal :=
  .next (s.regCmd h r (rCanCmd c.val) 2 (fun m => m.canCmdEff c.val 2))

/-- CAN_ACK (R311). -/
def execCanAck (h : HalfId) (r : Req) (c : Fin 16) (v : Word) (s : State) : Host.Outcome State Fault Refusal :=
  .next (s.regCmd h r (rCanAck c.val) v (fun m => m.canAckEff c.val v))

/-- CAN_OBJECT_COMMIT (R309): a word stored at an address of the objects. -/
def execCanObjectCommit (h : HalfId) (r : Req) (addr : Nat) (v : Word) (s : State) : Host.Outcome State Fault Refusal :=
  .next (s.onReq h r (fun h s => s.upd h (fun m => m.canRegion r addr v)))

/-- CAN_MODE_WRITE (R318). -/
def execCanModeWrite (h : HalfId) (r : Req) (c : Fin 16) (v : Word) (s : State) : Host.Outcome State Fault Refusal :=
  .next (s.regCmd h r (rCanCtrl c.val) v (fun m => m.canCtrlEff (reqNum r) c.val (reqStamp r) v))

/-- CAN_MODE_EFFECT (R318). -/
def execCanModeEffect (c : Fin 16) (s : State) : Host.Outcome State Fault Refusal :=
  .next (s.busInput (fun _ m => m.canModeEffect c.val))

/-- CAN_CLR (R322). -/
def execCanClr (h : HalfId) (r : Req) (c : Fin 16) (v : Word) (s : State) : Host.Outcome State Fault Refusal :=
  .next (s.regCmd h r (rCanClr c.val) v (fun m => m.canClrEff c.val v))

end Sys2Proof.Machine
end

