-- ==== Sys2Proof/Machine/Dali.lean ====
section
/-! DEFINITION. DALI-2 lines (R331 to R336, R339). -/
namespace Sys2Proof.Machine

/-- A statistics counter of a line (Table 13.7, from STAT_FWD on). -/
def Half.daliCount (m : Half) (l k : Nat) : Half := m.count (rDaliCnt l k) 1 (0x090 + l) 3

/-- The controller takes part in its line: powered, and not OFF. -/
def Half.daliOn (m : Half) (l : Nat) : Bool := m.on (0x090 + l) && decide ((m.daliOf l).mode ≠ 0)

/-- DALI.TX0 of a transaction (Table 13.8). -/
def DaliTx.tx0 (t : DaliTx) : Nat := t.reply.toNat * 2 ^ 31 + t.twice.toNat * 2 ^ 30 + t.long.toNat * 2 ^ 24 + t.prio * 2 ^ 16

/-- A descriptor of a line (Table 20.15) on its completion queue (high) or its forward-frame queue, with its interrupt source. -/
def Half.daliPost (m : Half) (l : Nat) (high : Bool) (type : Nat) (detail : List Byte) : Half :=
  if m.rdB (rDaliQueue l) 31 then
    match m.post (m.rdF (rDaliQueue l) (if high then 8 else 0) 8) type (0x090 + l) m.tai (mkStamp 4 0 (0x38 + l)) detail [] with
    | (m1, true) => m1.irq (0x090 + l) (if high then 0 else 1)
    | (m1, false) => m1
  else m

/-- R335: the raw value a query's result gives its source binding: the backward frame, 0x100 NO_REPLY, 0x200 CORRUPT. -/
def daliRaw (result : Nat) (back : Byte) : Option Nat :=
  if result = 2 then some back.toNat else if result = 3 then some 0x100 else if result = 4 then some 0x200 else none

/-- R333 to R335: a transaction has ended with a result: its accessor's DALI.TX_STAT, a completion descriptor, its binding, and
the event of one that could not be sent. -/
def Half.daliResult (m : Half) (y : View) (l : Nat) (t : DaliTx) (result : Nat) (back : Byte) : Half :=
  let m1 :=
    if t.src = 0 then
      let m0 := if sfind (m.daliOf l).last t.who = some t.order then
          m.setView t.who (rDaliTxStat l) (word (2 ^ 31 + result * 2 ^ 24 + back.toNat * 2 ^ 16))
        else m
      m0.daliPost l true 0x07 ([BitVec.ofNat 8 l, BitVec.ofNat 8 result, back, BitVec.ofNat 8 t.long.toNat]
        ++ leBytes 4 t.frame ++ leBytes 4 t.tx0)
    else m
  let m2 := match t.src, daliRaw result back with
    | 3, some x => m1.present y t.who x m1.tai
    | _, _ => m1
  if result = 5 ∨ result = 6 then m2.ev 0x0F13 l result t.frame 0 else m2

/-- The transaction that holds the line ends. -/
def Half.daliEnd (m : Half) (y : View) (l result : Nat) (back : Byte) : Half :=
  match (m.daliOf l).cur with
  | none => m
  | some t => (m.updDali l (fun x => { x with cur := none, phase := 0, second := false })).daliResult y l t result back

/-- The order in which two transactions are served (R333). -/
def DaliTx.before (a b : DaliTx) : Bool := decide (a.prio < b.prio) || (decide (a.prio = b.prio) && decide (a.order < b.order))

/-- R333: the transaction served next. -/
def daliNext (q : List DaliTx) : Option DaliTx :=
  q.foldl (fun a t => match a with | none => some t | some u => if t.before u then some t else some u) none

/-- R336: DALI.CTRL.MODE comes into effect; a transaction that held the line waits again. -/
def Half.daliModeEffect (m : Half) (l : Nat) : Half :=
  let new := m.rdF (rDaliCtrl l) 0 2
  if !m.on (0x090 + l) || decide ((m.daliOf l).mode = new) then m
  else m.updDali l (fun x =>
    { x with mode := new, idle := false, phase := 0, second := false, cur := none, heard := none
             q := match x.cur with | some t => t :: x.q | none => x.q })

/-- R336: the lease returns: a line in NORMAL waits as after a change to NORMAL. -/
def Half.daliLeaseBack (m : Half) : Half :=
  (List.range 8).foldl (fun m l => if (m.daliOf l).mode = 1 then m.updDali l (fun x => { x with idle := true }) else m) m

/-- DALI_SETTLING_END (R332, R333, R336): a mode or a lease that waits takes effect, or the next forward frame starts. -/
def Half.daliSettled (m : Half) (y : View) (l : Nat) : Half :=
  let x := m.daliOf l
  if m.rdF (rDaliCtrl l) 0 2 = 1 ∧ x.mode ≠ 1 then m.daliModeEffect l
  else if !m.daliOn l || decide (x.mode ≠ 1) || !y.any || x.down || decide (x.phase ≠ 0) then m
  else if x.idle then m.updDali l (fun x => { x with idle := false })
  else
    match x.cur with
    | some _ => m.updDali l (fun x => { x with phase := 1, heard := none })
    | none =>
      match daliNext x.q with
      | none => m
      | some t => m.updDali l (fun x =>
          { x with cur := some t, phase := 1, second := false, heard := none, q := x.q.filter (fun u => decide (u.order ≠ t.order)) })

/-- DALI_FORWARD_END (R333). -/
def Half.daliForwardEnd (m : Half) (y : View) (l : Nat) : Half :=
  let x := m.daliOf l
  match x.cur with
  | none => m
  | some t =>
    if x.phase ≠ 1 then m
    else
      let m1 := (m.daliCount l 0).log (.dali l t.frame t.long)
      if t.twice ∧ !x.second then m1.updDali l (fun x => { x with phase := 0, second := true })
      else if t.reply then m1.updDali l (fun x => { x with phase := 2 })
      else m1.daliEnd y l 1 0

/-- The QUERY bindings of a line whose forward frame is this one (Table 13.2). -/
def Half.daliQueries (m : Half) (l frame : Nat) (long : Bool) : List Nat :=
  m.sources (fun d => decide (bKind d = 4) && decide (bByte d 8 = l) && decide (bByte d 9 = 0)
    && decide (bByte d 13 = long.toNat)
    && decide ((bByte d 10 + 256 * bByte d 11 + (if long then 65536 * bByte d 12 else 0)) = frame))

/-- DALI_BACKWARD_FRAME (R333, R335). -/
def Half.daliBackward (m : Half) (y : View) (l : Nat) (f : DaliBackward) : Half :=
  let x := m.daliOf l
  if !m.daliOn l then m
  else
    let m1 := m.daliCount l (if f.corrupt then 3 else 1)
    if x.phase = 2 then m1.daliEnd y l (if f.corrupt then 4 else 2) f.value
    else
      match x.heard with
      | none => m1
      | some (frame, long) =>
        (m1.updDali l (fun x => { x with heard := none })).presentAll y (if f.corrupt then 0x200 else f.value.toNat) m1.tai
          (m1.daliQueries l frame long)

/-- DALI_REPLY_WINDOW_CLOSE (R332, R333). -/
def Half.daliClose (m : Half) (y : View) (l : Nat) : Half :=
  if (m.daliOf l).phase = 2 then (m.daliCount l 2).daliEnd y l 3 0
  else m.updDali l (fun x => { x with heard := none })

/-- DALI_COLLISION (R333). -/
def Half.daliCollision (m : Half) (y : View) (l : Nat) : Half :=
  let x := m.daliOf l
  match x.cur with
  | none => m
  | some t =>
    if x.phase ≠ 1 then m
    else
      let m1 := m.daliCount l 4
      if 3 ≤ t.tries then m1.daliEnd y l 5 0
      else m1.updDali l (fun x => { x with cur := some { t with tries := t.tries + 1 }, phase := 0, second := false })

/-- DALI_POLL (R335). -/
def Half.daliPoll (m : Half) (l b : Nat) : Half :=
  let d := m.srcDesc b
  if !m.daliOn l || !bEn d || decide (bKind d ≠ 4) || decide (bByte d 8 ≠ l) || decide (bByte d 9 ≠ 0)
      || (m.daliOf l).q.any (fun t => decide (t.src = 3) && decide (t.who = b)) then m
  else
    let long := decide (bByte d 13 = 1)
    let frame := bByte d 10 + 256 * bByte d 11 + (if long then 65536 * bByte d 12 else 0)
    (m.daliPush l ⟨frame, long, true, false, 5, 0, 3, b, 0⟩).1

/-- R335: an EVENT binding's MATCH and MASK take a received 24-bit frame. -/
def daliEvent (d : List Word) (l frame : Nat) : Bool :=
  let mtch := bByte d 10 + 256 * bByte d 11 + 65536 * bByte d 12
  let mask := bByte d 13 + 256 * bByte d 14 + 65536 * bByte d 15
  decide (bKind d = 4) && decide (bByte d 8 = l) && decide (bByte d 9 = 1) && decide (mtch &&& mask = frame &&& mask)

/-- DALI_FORWARD_RECEIVED (R335): a forward frame of another controller or of an input device. -/
def Half.daliForwardRx (m : Half) (y : View) (l : Nat) (f : DaliForward) : Half :=
  if !m.daliOn l then m
  else
    let frame := f.frame % 2 ^ (if f.long then 24 else 16)
    let m1 := (m.daliCount l 5).daliPost l false 0x08 ([BitVec.ofNat 8 l, BitVec.ofNat 8 f.long.toNat, 0, 0] ++ leBytes 4 frame)
    let m2 := m1.updDali l (fun x =>
      { x with heard := if (m1.daliQueries l frame f.long).isEmpty then none else some (frame, f.long) })
    if f.long then m2.presentAll y frame m2.tai (m2.sources (fun d => daliEvent d l frame)) else m2

/-- The points of a line's source bindings. -/
def Half.daliPoints (m : Half) (l : Nat) : List Nat := m.sourcePoints (fun d => decide (bKind d = 4) && decide (bByte d 8 = l))

/-- DALI_BUS_DOWN (R336). -/
def Half.daliDown (m : Half) (y : View) (l : Nat) : Half :=
  let x := m.daliOf l
  if !m.daliOn l || x.down then m
  else
    let all := x.cur.toList ++ x.q
    let m1 := m.updDali l (fun x =>
      { x with down := true, downAt := m.up, q := [], cur := none, phase := 0, second := false, heard := none })
    let m2 := ((m1.daliCount l 6).irq (0x090 + l) 2).ev 0x0F11 l all.length 0 0
    (all.foldl (fun m t => m.daliResult y l t 6 0) m2).pointFlags y 5 true (m2.daliPoints l)

/-- DALI_BUS_UP (R336). -/
def Half.daliUp (m : Half) (l : Nat) : Half :=
  let x := m.daliOf l
  if !m.daliOn l || !x.down then m
  else ((m.updDali l (fun x => { x with down := false })).irq (0x090 + l) 2).ev 0x0F12 l ((m.up - x.downAt) / oneMs) 0 0

/-- DALI.CTRL (R336). -/
def Half.daliCtrlEff (m : Half) (n l : Nat) (st : Stamp) (v : Word) : Half × Nat :=
  let k := rDaliCtrl l
  let old := m.rdF k 0 2
  let new := fld v 0 2
  if new = 3 then (m, 5)
  else
    let m1 := m.plainWrite n k v
    if new = old then (m1, 0)
    else
      let m2 := m1.ev 0x0F14 l old new st.toNat
      (if new = 1 then m2 else m2.daliModeEffect l, 0)

/-- DALI.CLR (Table 13.7). -/
def Half.daliClrEff (m : Half) (l : Nat) (v : Word) : Half × Nat :=
  if flag v 0 then ((List.range 7).foldl (fun m k => m.wrN (rDaliCnt l k) 0) m, 0) else (m, 0)

/-- A write of a DALI page register by accessor n with a stamp. -/
def Half.daliWrite (m : Half) (n l k : Nat) (st : Stamp) (v : Word) : Half × Nat :=
  if k = rDaliCtrl l then m.daliCtrlEff n l st v
  else if k = rDaliClr l then m.daliClrEff l v
  else if k = rDaliQueue l then (if m.queueRule k v true = 0 then (m.plainWrite n k v, 0) else (m, m.queueRule k v true))
  else (m.plainWrite n k v, 0)

/-- The live registers of a DALI page (Table 13.8). -/
def Half.daliRead (m : Half) (y : View) (l k : Nat) : Option Word :=
  let x := m.daliOf l
  if k = rDaliStat l then
    some (word (x.mode * 2 ^ 12 + x.cur.isSome.toNat * 2 ^ 10 + (!y.any).toNat * 2 ^ 9 + x.down.toNat * 2 ^ 8 + x.q.length))
  else if k = rDaliBusv l then some (word (if x.mode = 0 then 0 else Config.measured k m.up % 2 ^ 16))
  else none

/-- DALI_TX_SUBMIT (R334). -/
def execDaliTxSubmit (h : HalfId) (r : Req) (l : Fin 8) (v : Word) (s : State) : Host.Outcome State Fault Refusal :=
  .next (s.regCmd h r (rDaliTx l.val) v (fun m => m.daliTxEff l.val (reqNum r) (m.stWords (reqNum r) (rDaliTx l.val) 2 v)))

/-- DALI_SETTLING_END (R332). -/
def execDaliSettlingEnd (h : HalfId) (l : Fin 8) (s : State) : Host.Outcome State Fault Refusal :=
  .next (s.busLocal h (fun y m => m.daliSettled y l.val))

/-- DALI_FORWARD_END (R333). -/
def execDaliForwardEnd (l : Fin 8) (s : State) : Host.Outcome State Fault Refusal :=
  .next (s.lineInput (fun y m => m.daliForwardEnd y l.val))

/-- DALI_BACKWARD_FRAME (R333). -/
def execDaliBackwardFrame (l : Fin 8) (f : DaliBackward) (s : State) : Host.Outcome State Fault Refusal :=
  .next (s.busInput (fun y m => m.daliBackward y l.val f))

/-- DALI_REPLY_WINDOW_CLOSE (R333). -/
def execDaliReplyWindowClose (l : Fin 8) (s : State) : Host.Outcome State Fault Refusal :=
  .next (s.busInput (fun y m => m.daliClose y l.val))

/-- DALI_COLLISION (R333). -/
def execDaliCollision (l : Fin 8) (s : State) : Host.Outcome State Fault Refusal :=
  .next (s.busInput (fun y m => m.daliCollision y l.val))

/-- DALI_POLL (R335). -/
def execDaliPoll (h : HalfId) (l : Fin 8) (b : Nat) (s : State) : Host.Outcome State Fault Refusal :=
  .next (s.busLocal h (fun _ m => m.daliPoll l.val b))

/-- DALI_FORWARD_RECEIVED (R335). -/
def execDaliForwardReceived (l : Fin 8) (f : DaliForward) (s : State) : Host.Outcome State Fault Refusal :=
  .next (s.busInput (fun y m => m.daliForwardRx y l.val f))

/-- DALI_BUS_DOWN (R336). -/
def execDaliBusDown (l : Fin 8) (s : State) : Host.Outcome State Fault Refusal :=
  .next (s.busInput (fun y m => m.daliDown y l.val))

/-- DALI_BUS_UP (R336). -/
def execDaliBusUp (l : Fin 8) (s : State) : Host.Outcome State Fault Refusal :=
  .next (s.busInput (fun _ m => m.daliUp l.val))

/-- DALI_MODE_WRITE (R336). -/
def execDaliModeWrite (h : HalfId) (r : Req) (l : Fin 8) (v : Word) (s : State) : Host.Outcome State Fault Refusal :=
  .next (s.regCmd h r (rDaliCtrl l.val) v (fun m => m.daliCtrlEff (reqNum r) l.val (reqStamp r) v))

/-- DALI_CLR (R339). -/
def execDaliClr (h : HalfId) (r : Req) (l : Fin 8) (v : Word) (s : State) : Host.Outcome State Fault Refusal :=
  .next (s.regCmd h r (rDaliClr l.val) v (fun m => m.daliClrEff l.val v))

end Sys2Proof.Machine
end

