-- ==== Sys2Proof/Machine/DrillRun.lean ====
section
/-! DEFINITION. The Drill instruction set (R189 to R204): encodings, operands, arithmetic, timers, counters, sheaf instructions,
control flow and execution faults, and a period's release and end (R167, R168, R191). -/
namespace Sys2Proof.Machine

/-- OPCODE (Table 7.1). -/
def iOp (w : Word) : Nat := fld w 24 8
/-- AREA. -/
def iArea (w : Word) : Nat := fld w 20 4
/-- MOD. -/
def iMod (w : Word) : Nat := fld w 16 4
/-- OPERAND. -/
def iOpd (w : Word) : Nat := fld w 0 16

/-- Table 7.3: the areas an opcode takes ([] for none), and the steps it costs; none for an opcode that is not listed. -/
def iRow (op : Nat) : Option (List Nat × Nat) :=
  let arith := [0, 1, 2, 3, 4, 5, 7]
  if op = 0x00 then some ([], 1)
  else if 0x10 ≤ op ∧ op ≤ 0x13 then some ([0, 1, 2, 3, 4, 5, 6, 8], 2)
  else if 0x14 ≤ op ∧ op ≤ 0x17 then some ([], 2)
  else if 0x18 ≤ op ∧ op ≤ 0x1A then some ([], 1)
  else if 0x1B ≤ op ∧ op ≤ 0x1D then some ([1, 2, 5], 2)
  else if op = 0x1E ∨ op = 0x1F then some ([2], 4)
  else if op = 0x40 then some ([0, 1, 2, 5, 7, 3, 4, 6, 9], 2)
  else if op = 0x41 then some ([1, 2, 5], 2)
  else if op = 0x42 ∨ op = 0x43 then some (arith, 3)
  else if op = 0x44 then some (arith, 6)
  else if op = 0x45 ∨ op = 0x46 then some (arith, 40)
  else if 0x47 ≤ op ∧ op ≤ 0x49 then some (arith, 6)
  else if op = 0x4A then some (arith, 30)
  else if 0x4B ≤ op ∧ op ≤ 0x4D then some (arith, 2)
  else if 0x4E ≤ op ∧ op ≤ 0x50 then some ([7], 2)
  else if op = 0x51 then some (arith, 3)
  else if op = 0x52 then some (arith, 4)
  else if op = 0x53 ∨ op = 0x54 then some ([], 4)
  else if op = 0x55 ∨ op = 0x56 then some ([], 2)
  else if 0x80 ≤ op ∧ op ≤ 0x83 then some ([3], 8)
  else if op = 0x84 then some ([3], 4)
  else if op = 0x88 ∨ op = 0x89 then some ([4], 6)
  else if 0x8A ≤ op ∧ op ≤ 0x8C then some ([4], 4)
  else if op = 0xA0 then some ([1], 6)
  else if 0xA1 ≤ op ∧ op ≤ 0xA4 then some ([], 6)
  else if 0xC0 ≤ op ∧ op ≤ 0xC2 then some ([], 2)
  else if op = 0xC3 ∨ op = 0xC4 then some ([], 3)
  else if op = 0xC5 then some ([5], 3)
  else if op = 0xC6 then some ([], 2)
  else none

/-- Table 7.3, R189: extension words of an instruction. -/
def iExt (w : Word) : Nat :=
  let op := iOp w
  if op = 0x40 then (if iArea w = 7 then (if iMod w = 1 then 2 else 1) else 0)
  else if (0x42 ≤ op ∧ op ≤ 0x4D) ∨ op = 0x51 ∨ op = 0x52 then (if iArea w = 7 then 2 else 0)
  else if (0x80 ≤ op ∧ op ≤ 0x83) ∨ op = 0x8C then (if (iMod w).testBit 2 then 0 else 1)
  else if op = 0xA0 ∨ op = 0xA2 ∨ op = 0xC5 then 1
  else 0

/-- R202: bank verification marks every extension word: from the first word on, each instruction is followed by its own. n bounds the
walk. -/
def extMarks (code : Sparse Word) : Nat → Nat → List Nat
  | 0, _ => []
  | n + 1, a =>
    let k := iExt (sget 0 code a)
    (List.range k).map (fun i => a + 1 + i) ++ extMarks code (n - k) (a + 1 + k)

/-- The program that a bank's words hold, with its extension words marked (R181, R202). -/
def bankOf (raw : Sparse Word) : Program :=
  if raw.isEmpty then programEmpty
  else
    let p := (Config.bankProgram raw).getD programEmpty
    { p with ext := extMarks p.code p.codeLen 0 }

/-- Table 7.3: the modifier is one the opcode takes. -/
def iModOk (w : Word) : Bool :=
  let op := iOp w
  let k := iMod w
  if 0x10 ≤ op ∧ op ≤ 0x13 then decide (k ≤ (if iArea w = 4 then 3 else 1))
  else if (0x15 ≤ op ∧ op ≤ 0x17) ∨ op = 0x1B then decide (k ≤ 1)
  else if op = 0x40 then decide (k ≤ (if iArea w = 3 ∨ iArea w = 4 ∨ iArea w = 6 ∨ iArea w = 9 then 0 else 3))
  else if op = 0x41 then decide (k ≤ 3)
  else if op = 0x51 ∨ op = 0x52 then decide (k % 8 ≤ 5)
  else if 0x80 ≤ op ∧ op ≤ 0x83 then decide (k ≤ 7)
  else if op = 0x8C then decide (k = 0) || decide (k = 4)
  else decide (k = 0)

/-- Table 7.3: the operand bits that no operand area governs are zero. -/
def iOpdOk (w : Word) : Bool :=
  let op := iOp w
  let d := iOpd w
  if 0x4E ≤ op ∧ op ≤ 0x50 then decide (d < 64)
  else if iArea w = 7 then decide (d = 0)
  else if op = 0xA1 ∨ op = 0xA2 then decide (d < 256)
  else if op = 0xA3 then decide (d < 512)
  else if op = 0xA4 then decide (d < 64)
  else if 0xC0 ≤ op ∧ op ≤ 0xC3 then true
  else match iRow op with
    | some ([], _) => decide (d = 0)
    | _ => true

/-- R194: the word is a valid encoding, operands apart. -/
def iValid (w : Word) : Bool :=
  match iRow (iOp w) with
  | none => false
  | some (areas, _) =>
    if 0xC0 ≤ iOp w ∧ iOp w ≤ 0xC3 then decide (fld w 17 7 = 0)
    else (if areas.isEmpty then decide (iArea w = 0) else decide (iArea w ∈ areas)) && iModOk w && iOpdOk w

/-- R195: the steps of an instruction. -/
def iCost (w : Word) : Nat :=
  let op := iOp w
  let base := match iRow op with | some (_, n) => n | none => 0
  let mem := decide (iArea w = 2 ∨ iArea w = 3 ∨ iArea w = 4) && (decide (0x10 ≤ op ∧ op ≤ 0x1D) || decide (0x40 ≤ op ∧ op ≤ 0x56))
  base + iExt w + mem.toNat + (decide ((op = 0x40 ∨ op = 0x41) ∧ iMod w = 3)).toNat

/-- What an instruction does: the half after it, or the code of an execution fault (Table 7.5). -/
abbrev IRes := Except Nat Half

/-- A word of the active program's code. -/
def Half.code (m : Half) (a : Nat) : Word := sget 0 m.drl.active.code a

/-- The 64-bit constant in the two extension words of the instruction at an address. -/
def Half.ext64 (m : Half) (pc : Nat) : Dword := dword (m.code (pc + 1)) (m.code (pc + 2))

/-- An entry of the input list, by the operand's index; a bit that the layout leaves unused must be zero (R190). -/
def Half.iIn (m : Half) (t d unused : Nat) : Option InImg :=
  if d &&& unused ≠ 0 ∨ (m.taskCfg t).inputs.length ≤ d / 64 then none
  else some (sget ⟨0, 0, 0⟩ (m.task t).ins (d / 64))

/-- The index of an entry of the output list (R190). -/
def Half.iOut (m : Half) (t d unused : Nat) : Option Nat :=
  if d &&& (0xF000 ||| unused) ≠ 0 ∨ (m.taskCfg t).outputs.length ≤ d / 64 then none else some (d / 64)

/-- The index of a local word (R190). -/
def iLoc (d unused : Nat) : Option Nat := if d &&& (0xF000 ||| unused) ≠ 0 then none else some (d / 64)

/-- A timer or counter address (R190). -/
def iTC (d : Nat) : Option Nat := if d < 4096 then some d else none

/-- R191: a bit of an output: bit 0 of a BOOL point, or bits 0 to 63 of a BITS64 point. -/
def Half.iOutBit (m : Half) (t d : Nat) : Option (Nat × Nat) :=
  match m.iOut t d 0 with
  | none => none
  | some i =>
    let ty := recType (m.pt ((m.taskCfg t).outputs.getD i 0))
    if ty = 8 ∨ (ty = 0 ∧ d % 64 = 0) then some (i, d % 64) else none

/-- DN of a counter (R200). -/
def Counter.dn (c : Counter) : Bool := decide (c.pv.toInt ≤ c.cv.toInt)

/-- A bit operand (Table 7.2); none for an invalid encoding. -/
def Half.iBit (m : Half) (t : Nat) (w : Word) : Option Bool :=
  let d := iOpd w
  let x := m.task t
  let a := iArea w
  if a = 0 then (m.iIn t d 0).map (fun i => i.value.getLsbD (d % 64))
  else if a = 1 then (m.iOutBit t d).map (fun p => (sget 0 x.outs p.1).getLsbD p.2)
  else if a = 2 then some (m.marker d)
  else if a = 3 then (iTC d).map (fun i => (m.timer i).dn)
  else if a = 4 then (iTC d).map (fun i => if (iMod w).testBit 1 then (m.counter i).q else (m.counter i).dn)
  else if a = 5 then (iLoc d 0).map (fun i => (sget 0 x.locals i).getLsbD (d % 64))
  else if a = 6 then (m.iIn t d 0x38).map (fun i => i.quality.getLsbD (d % 8))
  else if a = 8 then
    (if d = 0 then some x.first else if d = 1 then some x.warm else if d = 2 then some true else if d = 3 then some false
     else if d = 4 then some x.z else if d = 5 then some x.n else if d = 6 then some x.v else none)
  else none

/-- A bit of a 64-bit value replaced. -/
def dbit (v : Dword) (i : Nat) (b : Bool) : Dword :=
  BitVec.ofNat 64 (v.toNat - nfld v.toNat i 1 * 2 ^ i + b.toNat * 2 ^ i)

/-- An entry of the output image is written, and its POINT_BIT forces override it (R179). -/
def Half.setOutImg (m : Half) (t i : Nat) (v : Dword) : Half :=
  m.updTask t (fun x => { x with outs := sput x.outs i (m.forceBits ((m.taskCfg t).outputs.getD i 0) v) })

/-- A local word is written. -/
def Half.setLoc (m : Half) (t i : Nat) (v : Dword) : Half :=
  m.updTask t (fun x => { x with locals := sset 0 x.locals i v })

/-- A bit operand is written: O, M or L. -/
def Half.iSetBit (m : Half) (t : Nat) (w : Word) (b : Bool) : IRes :=
  let d := iOpd w
  let x := m.task t
  if iArea w = 1 then
    (match m.iOutBit t d with
     | some (i, k) => .ok (m.setOutImg t i (dbit (sget 0 x.outs i) k b))
     | none => .error 1)
  else if iArea w = 2 then .ok (m.setMarker d b)
  else
    match iLoc d 0 with
    | some i => .ok (m.setLoc t i (dbit (sget 0 x.locals i) (d % 64) b))
    | none => .error 1

/-- LB := b. -/
def Half.setLb (m : Half) (t : Nat) (b : Bool) : Half := m.updTask t (fun x => { x with lb := b })

/-- V := 1 where the condition holds. -/
def Half.setV (m : Half) (t : Nat) (b : Bool) : Half := m.updTask t (fun x => { x with v := x.v || b })

/-- R192: ACC takes a result, with Z and N; Z is set by ±0.0 too where the result is a binary64. -/
def Half.setAcc (m : Half) (t : Nat) (v : Dword) (float : Bool) : Half :=
  m.updTask t (fun x => { x with acc := v, z := decide (v = 0) || (float && decide (v.toNat = 2 ^ 63)), n := v.getLsbD 63 })

/-- R197: an integer result, saturated. -/
def Half.setInt (m : Half) (t : Nat) (r : Int) : Half :=
  let (c, s) := clampInt (-(2 ^ 63)) (2 ^ 63 - 1) r
  (m.setAcc t (BitVec.ofInt 64 c) false).setV t s

/-- R197: a binary64 result: an infinity becomes the largest finite number, a NaN +0.0. -/
def Half.setF (m : Half) (t : Nat) (r : Fv) : Half :=
  match r with
  | .nan => (m.setAcc t 0 true).setV t true
  | _ =>
    let n := fenc f64 r
    let inf := decide (f64.infBits ≤ n % 2 ^ 63)
    (m.setAcc t (BitVec.ofNat 64 (if inf then f64.signed (n.testBit 63) f64.maxBits else n)) true).setV t inf

/-- A word operand of 64 bits (R190): ET zero-extended, CV sign-extended. -/
def Half.iWord (m : Half) (t pc : Nat) (w : Word) : Option Dword :=
  let d := iOpd w
  let x := m.task t
  let a := iArea w
  if a = 0 then (m.iIn t d 0x3F).map (·.value)
  else if a = 1 then (m.iOut t d 0x3F).map (fun i => sget 0 x.outs i)
  else if a = 2 then (if d % 64 = 0 then some (BitVec.ofNat 64 (m.markers d 64)) else none)
  else if a = 3 then (iTC d).map (fun i => BitVec.ofNat 64 (m.timer i).et)
  else if a = 4 then (iTC d).map (fun i => BitVec.ofInt 64 (m.counter i).cv.toInt)
  else if a = 5 then (iLoc d 0x3F).map (fun i => sget 0 x.locals i)
  else if a = 6 then (m.iIn t d 0x3F).map (fun i => BitVec.ofNat 64 i.quality.toNat)
  else if a = 7 then some (m.ext64 pc)
  else if a = 9 then (m.iIn t d 0x3F).map (fun i => BitVec.ofNat 64 i.level.toNat)
  else none

/-- R196: a binary32 widened to binary64; the sign and payload of a NaN are not given. -/
def widen (x : Nat) : Dword :=
  match fdec f32 x with
  | .nan => BitVec.ofNat 64 (0x7FF8000000000000 ||| (Config.nanBits x &&& 0x8007FFFFFFFFFFFF))
  | v => BitVec.ofNat 64 (fenc f64 v)

/-- R196: a binary64 rounded to binary32, an infinity held to the largest finite number and reported. -/
def narrow (x : Nat) : Nat × Bool :=
  match fdec f64 x with
  | .nan => (0x7FC00000 ||| (Config.nanBits x &&& 0x803FFFFF), false)
  | v => toFloat f32 v

/-- R196: the value LDW loads and whether it is a binary64; none for an invalid encoding. -/
def Half.iLoad (m : Half) (t pc : Nat) (w : Word) : Option (Dword × Bool) :=
  let a := iArea w
  let k := iMod w
  if a = 3 ∨ a = 4 ∨ a = 6 ∨ a = 9 then (m.iWord t pc w).map (fun v => (v, false))
  else
    let raw : Option Dword :=
      if a = 2 ∧ k ≠ 1 then (if iOpd w % 32 = 0 then some (BitVec.ofNat 64 (m.markers (iOpd w) 32)) else none)
      else if a = 7 ∧ k ≠ 1 then some (BitVec.ofNat 64 (m.code (pc + 1)).toNat)
      else m.iWord t pc w
    raw.map (fun v =>
      let lo := v.toNat % 2 ^ 32
      if k = 0 then (BitVec.ofInt 64 (sext 32 lo), false)
      else if k = 1 then (v, false)
      else if k = 2 then (BitVec.ofNat 64 lo, false)
      else (widen lo, true))

/-- R196: STW. -/
def Half.iStore (m : Half) (t : Nat) (w : Word) : IRes :=
  let d := iOpd w
  let k := iMod w
  let acc := (m.task t).acc
  let (f, inf) := narrow acc.toNat
  let lo := if k = 3 then f else acc.toNat % 2 ^ 32
  let all : Dword := if k = 1 then acc else if k = 0 then BitVec.ofInt 64 (sext 32 lo) else BitVec.ofNat 64 lo
  let m0 := m.setV t (decide (k = 3) && inf)
  if iArea w = 1 then
    (match m.iOut t d 0x3F with
     | some i => .ok (m0.setOutImg t i all)
     | none => .error 1)
  else if iArea w = 2 then
    let n := if k = 1 then 64 else 32
    if d % n = 0 then .ok (m0.setMarkers d all.toNat n) else .error 1
  else
    match iLoc d 0x3F with
    | some i =>
      let old := (sget 0 (m.task t).locals i).toNat
      .ok (m0.setLoc t i (if k = 0 then BitVec.ofNat 64 (old - old % 2 ^ 32 + lo) else all))
    | none => .error 1

/-- R193: a push onto the branch stack. -/
def Half.iPush (m : Half) (t : Nat) (e : Stk) : IRes :=
  if 16 ≤ (m.task t).stack.length then .error 4
  else .ok (m.updTask t (fun x => { x with stack := e :: x.stack }))

/-- A logic instruction that loads or combines a bit operand, negated by MOD[0]. -/
def Half.iLogic (m : Half) (t : Nat) (w : Word) (f : Bool → Bool → Bool) : IRes :=
  match m.iBit t w with
  | none => .error 1
  | some b => .ok (m.setLb t (f (m.task t).lb (xor b ((iMod w).testBit 0))))

/-- BPOPA, BPOPO, BPOPX (R193). -/
def Half.iPopLogic (m : Half) (t : Nat) (w : Word) (f : Bool → Bool → Bool) : IRes :=
  match (m.task t).stack with
  | .logic e :: l =>
    .ok ((m.updTask t (fun x => { x with stack := l })).setLb t (f e (xor (m.task t).lb ((iMod w).testBit 0))))
  | _ => .error 5

/-- An integer instruction on ACC and a word operand. -/
def Half.iArith (m : Half) (t pc : Nat) (w : Word) (f : Int → Int → Int) : IRes :=
  match m.iWord t pc w with
  | none => .error 1
  | some x => .ok (m.setInt t (f (m.task t).acc.toInt x.toInt))

/-- DIV and REM (R197): by zero ACC is 0 and V is set. -/
def Half.iDivRem (m : Half) (t pc : Nat) (w : Word) (f : Int → Int → Int) : IRes :=
  match m.iWord t pc w with
  | none => .error 1
  | some x => .ok (if x = 0 then (m.setInt t 0).setV t true else m.setInt t (f (m.task t).acc.toInt x.toInt))

/-- A binary64 instruction on ACC and a word operand. -/
def Half.iFloat (m : Half) (t pc : Nat) (w : Word) (f : Fv → Fv → Fv) : IRes :=
  match m.iWord t pc w with
  | none => .error 1
  | some x => .ok (m.setF t (f (fdec f64 (m.task t).acc.toNat) (fdec f64 x.toNat)))

/-- A bitwise instruction on ACC and a word operand. -/
def Half.iBitwise (m : Half) (t pc : Nat) (w : Word) (f : Dword → Dword → Dword) : IRes :=
  match m.iWord t pc w with
  | none => .error 1
  | some x => .ok (m.setAcc t (f (m.task t).acc x) false)

/-- The six conditions of CMP and FCMP, from less-than and equality. -/
def condHolds (c : Nat) (lt eq : Bool) : Bool :=
  if c = 0 then eq else if c = 1 then !eq else if c = 2 then !lt && !eq else if c = 3 then !lt else if c = 4 then lt else lt || eq

/-- LB takes a comparison, loaded or ANDed by MOD[3]. -/
def Half.iCond (m : Half) (t : Nat) (w : Word) (c : Bool) : Half :=
  m.setLb t (if (iMod w).testBit 3 then (m.task t).lb && c else c)

/-- CMP. -/
def Half.iCmp (m : Half) (t pc : Nat) (w : Word) : IRes :=
  match m.iWord t pc w with
  | none => .error 1
  | some x =>
    let a := (m.task t).acc.toInt
    .ok (m.iCond t w (condHolds (iMod w % 8) (decide (a < x.toInt)) (decide (a = x.toInt))))

/-- FCMP (R197): a NaN operand makes only NE true, and sets V. -/
def Half.iFcmp (m : Half) (t pc : Nat) (w : Word) : IRes :=
  match m.iWord t pc w with
  | none => .error 1
  | some x =>
    let a := fdec f64 (m.task t).acc.toNat
    let b := fdec f64 x.toNat
    if a = .nan ∨ b = .nan then .ok ((m.iCond t w (decide (iMod w % 8 = 1))).setV t true)
    else .ok (m.iCond t w (condHolds (iMod w % 8) (flt a b) (feq a b)))

/-- FTI: ties away from zero, saturated. -/
def Half.iFti (m : Half) (t : Nat) : Half :=
  let a := (m.task t).acc
  match fdec f64 a.toNat with
  | .nan => (m.setAcc t (Config.ftiNan a) false).setV t true
  | .inf neg => m.setInt t (if neg then -(2 ^ 64) else 2 ^ 64)
  | .fin neg n e => m.setInt t (roundAway neg n e)

/-- R194: the milliseconds of a timer's base. -/
def baseMs (k : Nat) : Nat := if k = 0 then 1 else if k = 1 then 10 else if k = 2 then 100 else 1000

/-- R199: Δ joins the remainder, and its whole base units move into ET, up to PT. -/
def Timer.grow (x : Timer) (delta unit : Nat) : Timer :=
  let r := x.rem + delta
  { x with et := min (x.et + r / unit) x.pt, rem := r % unit }

/-- R199, Table 7.4: TON. -/
def Timer.ton (x : Timer) (inp : Bool) (delta unit : Nat) : Timer :=
  let y := if inp then (if x.inLast then x.grow delta unit else x) else { x with et := 0, rem := 0 }
  { y with dn := inp && decide (y.et = y.pt) }

/-- R199, Table 7.4: TOF. -/
def Timer.tof (x : Timer) (inp : Bool) (delta unit : Nat) : Timer :=
  let y := if inp then { x with et := 0, rem := 0, armed := true }
    else if x.armed && !x.inLast then x.grow delta unit else x
  { y with dn := inp || (y.armed && decide (y.et < y.pt)) }

/-- R199, Table 7.4: TP. -/
def Timer.tp (x : Timer) (inp : Bool) (delta unit : Nat) : Timer :=
  let y := if x.run then x.grow delta unit
    else if inp && !x.inLast then { x with et := 0, rem := 0, run := true }
    else if !inp && decide (x.et = x.pt) then { x with et := 0 } else x
  let z := { y with run := y.run && decide (y.et < y.pt) }
  { z with dn := z.run && decide (z.et < z.pt) }

/-- R199, Table 7.4: TONR. -/
def Timer.tonr (x : Timer) (inp : Bool) (delta unit : Nat) : Timer :=
  let y := if inp && x.inLast then x.grow delta unit else x
  { y with dn := decide (y.et = y.pt) }

/-- R198: a preset saturated to 0 to 2^31 − 1, and whether it was. -/
def timerPreset (m : Half) (t pc : Nat) (w : Word) : Nat × Bool :=
  let p : Int := if (iMod w).testBit 2 then (m.task t).acc.toInt else (m.code (pc + 1)).toInt
  let (c, s) := clampInt 0 (2 ^ 31 - 1) p
  (c.toNat, s)

/-- A timer instruction (R198, R199). -/
def Half.iTimer (m : Half) (t pc : Nat) (w : Word) (f : Timer → Bool → Nat → Nat → Timer) : IRes :=
  match iTC (iOpd w) with
  | none => .error 1
  | some a =>
    let x := m.timer a
    let (pt, s) := timerPreset m t pc w
    let tk := m.task t
    let x1 := { x with pt := pt, et := min x.et pt }
    let delta := if tk.first then 0 else tk.relDt - x.last
    let y := { f x1 tk.lb delta (baseMs (iMod w % 4)) with inLast := tk.lb, last := tk.relDt }
    .ok (((m.setTimer a y).setV t s).setLb t y.dn)

/-- TRST. -/
def Half.iTrst (m : Half) (t : Nat) (w : Word) : IRes :=
  match iTC (iOpd w) with
  | none => .error 1
  | some a =>
    if (m.task t).lb then
      .ok (m.setTimer a { m.timer a with et := 0, dn := false, rem := 0, run := false, armed := false })
    else .ok m

/-- CTU and CTD (R200). -/
def Half.iCount (m : Half) (t : Nat) (w : Word) (up : Bool) : IRes :=
  match iTC (iOpd w) with
  | none => .error 1
  | some a =>
    let c := m.counter a
    let lb := (m.task t).lb
    let edge := lb && !(if up then c.edgeU else c.edgeD)
    let limit : Word := if up then 0x7FFFFFFF else 0x80000000
    let c1 := if !edge then c else if c.cv = limit then { c with q := true } else { c with cv := if up then c.cv + 1 else c.cv - 1 }
    let c2 := if up then { c1 with edgeU := lb } else { c1 with edgeD := lb }
    .ok ((m.setCounter a c2).setLb t c2.dn)

/-- CRST, CLD and CPV (R200): act when LB is 1. The value of CLD is ACC, that of CPV its extension word or ACC. -/
def Half.iCset (m : Half) (t pc : Nat) (w : Word) : IRes :=
  match iTC (iOpd w) with
  | none => .error 1
  | some a =>
    let c := m.counter a
    if !(m.task t).lb then .ok m
    else if iOp w = 0x8A then .ok (m.setCounter a { c with cv := 0, q := false })
    else
      let x : Int := if iOp w = 0x8C ∧ !(iMod w).testBit 2 then (m.code (pc + 1)).toInt else (m.task t).acc.toInt
      let (y, s) := clampInt (-(2 ^ 31)) (2 ^ 31 - 1) x
      let v : Word := BitVec.ofInt 32 y
      let c1 := if iOp w = 0x8B then { c with cv := v } else { c with pv := v }
      .ok ((m.setCounter a { c1 with q := c1.q || s }).setV t s)

/-- R179: the output image with every POINT_BIT force. -/
def Half.outsForced (m : Half) (t : Nat) : Sparse Dword :=
  (m.taskCfg t).outputs.zipIdx.foldl (fun l e => sput l e.2 (m.forceBits e.1 (sget 0 (m.task t).outs e.2))) []

/-- R168: the POINT_WRITE and GRN_WRITE actions that a period's sheaf holds if the scan ends now. -/
def Half.periodActs (m : Half) (t : Nat) : List Act :=
  let c := m.taskCfg t
  let x := m.task t
  let outs := m.outsForced t
  (c.outputs.zipIdx.filterMap (fun e =>
    let v := sget 0 outs e.2
    if x.first || decide (sfind x.last e.2 ≠ some v) then some (drlAct e.1 c.level false v) else none))
  ++ (c.retPages.zipIdx.filterMap (fun e =>
    let p := m.retPage t e.2
    if sfind x.retImg e.2 = some p then none else some ⟨8, e.1, 0, 0, 0, p, localStamp, false⟩))

/-- R201: a sheaf instruction executed with LB = 1 adds its action. -/
def Half.iAct (m : Half) (t : Nat) (a : Act) : IRes :=
  if !(m.task t).lb then .ok m
  else if 64 ≤ (m.periodActs t).length + (m.task t).acts.length then .error 6
  else .ok (m.updTask t (fun x => { x with acts := x.acts ++ [a] }))

/-- SPW (R201): the extension word has the level and the relinquish bit. -/
def Half.iSpw (m : Half) (t pc : Nat) (w : Word) : IRes :=
  let e := (m.code (pc + 1)).toNat
  match m.iOut t (iOpd w) 0x3F with
  | none => .error 1
  | some i =>
    if 64 ≤ e ∨ e % 32 = 0 ∨ 16 < e % 32 then .error 1
    else m.iAct t ⟨1, (m.taskCfg t).outputs.getD i 0, e, (m.task t).acc, 0, [], localStamp, false⟩

/-- SPROF (R201): the target is ACC rounded to binary32; V where that is a NaN or an infinity. -/
def Half.iSprof (m : Half) (t : Nat) (w : Word) : IRes :=
  let (n, v) : Nat × Bool := match fdec f64 (m.task t).acc.toNat with
    | .nan => (0x7FC00000 ||| (Config.nanBits (m.task t).acc.toNat &&& 0x803FFFFF), true)
    | x => (let n := fenc f32 x; (n, decide (f32.infBits ≤ n % 2 ^ 31)))
  match m.iAct t ⟨3, iOpd w, 0, BitVec.ofNat 64 n, 0, [], localStamp, false⟩ with
  | .ok m1 => .ok (m1.setV t ((m.task t).lb && v))
  | e => e

/-- R202: a branch to a code address: forward, or backward for LOOP, inside the program and not an extension word. -/
def Half.iTarget (m : Half) (pc a : Nat) (back : Bool) : Except Nat Unit :=
  if m.drl.active.codeLen ≤ a ∨ (if back then pc < a else a ≤ pc) then .error 2
  else if a ∈ m.drl.active.ext then .error 3
  else .ok ()

/-- JMP, JT and JF. -/
def Half.iJump (m : Half) (t pc : Nat) (w : Word) (take : Bool) : IRes :=
  let a := fld w 0 17
  match m.iTarget pc a false with
  | .error e => .error e
  | .ok _ => .ok (if take then m.updTask t (fun x => { x with pc := a }) else m)

/-- CALL: the wrapper has already advanced the task to the return address. -/
def Half.iCall (m : Half) (t pc : Nat) (w : Word) : IRes :=
  let a := fld w 0 17
  match m.iTarget pc a false with
  | .error e => .error e
  | .ok _ =>
    match m.iPush t (.call (m.task t).pc) with
    | .ok m1 => .ok (m1.updTask t (fun x => { x with pc := a }))
    | e => e

/-- RET. -/
def Half.iRet (m : Half) (t : Nat) : IRes :=
  match (m.task t).stack with
  | .call a :: l => .ok (m.updTask t (fun x => { x with stack := l, pc := a }))
  | _ => .error 5

/-- LOOP (R202): the local word counts down; the branch is taken while it is above zero. -/
def Half.iLoop (m : Half) (t pc : Nat) (w : Word) : IRes :=
  let a := (m.code (pc + 1)).toNat
  match iLoc (iOpd w) 0x3F, m.iTarget pc a true with
  | none, _ => .error 1
  | _, .error e => .error e
  | some i, .ok _ =>
    let v := sget 0 (m.task t).locals i - 1
    let m1 := m.setLoc t i v
    .ok (if 0 < v.toInt then m1.updTask t (fun x => { x with pc := a }) else m1)

/-- END (R168, R169, R201): the scan ends; the engine builds the period's sheaf, if it holds any action. -/
def Half.iEnd (m : Half) (t : Nat) : IRes :=
  let x := m.task t
  let acts := m.periodActs t ++ x.acts
  if !x.stack.isEmpty then .error 5
  else if 64 < acts.length then .error 6
  else
    let m1 := m.updTask t (fun x => { x with st := 4, outs := m.outsForced t })
    if acts.isEmpty then .ok (m1.periodDone t 0) else .ok (m1.drlPush ⟨(m.taskCfg t).engine, t, acts⟩)

/-- EXECUTION_FAULT (R203): the scan stops, and its commit sheaf is opened and aborted with reason SOFTWARE. -/
def Half.execFault (m : Half) (t code pc : Nat) (w : Word) : Half :=
  let m1 := m.updTask t (fun x => { x with st := 4 })
  ((m1.ev 0x0A0A t code pc w.toNat).irq 0x021 0).periodAborted t 1

/-- One instruction of the task that engine e runs, if its word has this opcode. A word of an opcode that is not listed is an
invalid encoding whichever instruction is commanded. -/
def Half.drlStep (m : Half) (e op : Nat) (f : Half → Nat → Nat → Word → IRes) : Half :=
  match m.running e with
  | none => m
  | some t =>
    let pc := (m.task t).pc
    let w := m.code pc
    if m.drl.active.codeLen ≤ pc then m.execFault t 1 pc 0
    else if (iRow (iOp w)).isNone then m.execFault t 1 pc w
    else if iOp w ≠ op then m
    else if !iValid w || decide (m.drl.active.codeLen < pc + 1 + iExt w) then m.execFault t 1 pc w
    else
      let m1 := m.updTask t (fun x => { x with pc := pc + 1 + iExt w, steps := x.steps + iCost w })
      match f m1 t pc w with
      | .ok m2 => m2
      | .error c => m.execFault t c pc w

/-- INPUT_SNAPSHOT (R167, R191): the task's images and registers at its release; the task is READY. -/
def Half.drlSnapshot (m : Half) (t : Nat) : Half :=
  let c := m.taskCfg t
  let ins := c.inputs.zipIdx.foldl (fun l e =>
    sput l e.2 (InImg.mk (m.forceBits e.1 (m.pt e.1).value) (m.pt e.1).quality (m.pt e.1).level)) []
  let m1 := m.updTask t (fun x =>
    { x with
      st := 2
      late := false
      ins := ins
      outs := c.outputs.zipIdx.foldl (fun l e => sput l e.2 (if x.first then (m.pt e.1).value else sget 0 x.last e.2)) []
      pc := c.entry
      lb := false
      acc := 0
      z := false
      n := false
      v := false
      stack := []
      locals := []
      acts := []
      relDt := m.drl.drillMs
      steps := 3 + 16 + 4 * c.inputs.length })
  m1.schedule c.engine

/-- R165, R170, R172, R183: a release instant of a task, where one is due. A task that its safe state takes out of WAITING misses it. -/
def Half.drlRelease (m : Half) (t : Nat) : Half :=
  if !m.on (0x030 + (m.taskCfg t).engine) || !m.hasTask t || !m.relDue t then m
  else
    let m1 := m.updTask t (fun x => { x with owed := false, relMs := some (m.tai.toNat / oneMs) })
    let x := m1.task t
    if x.st = 0 ∨ x.st = 6 then m1
    else if x.st = 1 ∧ x.safe = 0 then (if m.drl.swap = 2 then m1.updTask t (fun x => { x with st := 5 }) else m1.drlSnapshot t)
    else (m1.updTask t (fun x => { x with late := true })).taskMiss t none

/-- The points a task reads at its snapshot. -/
def Half.taskReads (m : Half) (t : Nat) : List Nat := (m.taskCfg t).inputs ++ (m.taskCfg t).outputs

end Sys2Proof.Machine
end

