-- ==== Sys2Proof/Machine/Drill.lean ====
section
/-! DEFINITION. The commands of the Drill engines: releases (R165), task commands (R170 to R174), forces (R178), and the exchange
of the program (R182 to R185). -/
namespace Sys2Proof.Machine

/-- TASK_RELEASE (R165): the records that the snapshot reads are verified (R118), and the release is taken or missed. -/
def execTaskRelease (h : HalfId) (t : Fin 64) (s : State) : Host.Outcome State Fault Refusal :=
  .next (s.onHalf h (fun s =>
    let s1 := s.mendAll h ((s.half h).taskReads t.val)
    s1.upd h (fun m => (m.drlRelease t.val).pump (s1.view h))))

/-- R173: a safe-state commit that has aborted is tried again. -/
def Half.safeRetry (m : Half) (y : View) (t : Nat) : Half :=
  let c := m.taskCfg t
  if (m.task t).safe = 0 ∨ m.safeBusy t then m
  else (m.drlPush ⟨c.engine, t + 64, safeActs c⟩).pump y

/-- SAFE_STATE_RETRY (R173). -/
def execSafeStateRetry (h : HalfId) (t : Fin 64) (s : State) : Host.Outcome State Fault Refusal :=
  .next (s.local_ h (fun y m => m.safeRetry y t.val))

/-- The task of DRLC.TASK_SEL. -/
def Half.selTask (m : Half) : Nat := m.rdF rDrlcTaskSel 0 6

/-- TASK_CMD RESUME (Table 6.4). -/
def Half.taskResume (m : Half) (st : Stamp) : Half × Nat :=
  let t := m.selTask
  if !m.hasTask t ∨ (m.task t).st ≠ 6 then (m, 8)
  else
    match m.withFaults (m.updTask t (fun x => { x with st := 1, consec := 0, cause := 0, first := true })) with
    | (m1, 0) => (m1.ev 0x0A03 t st.toNat 0 0, 0)
    | r => r

/-- R174, Table 6.4: a task stops without a safe state: a safe-state sheaf that still waits for its engine's slot is given up with it. -/
def Half.taskHalt (m : Half) (t : Nat) : Half :=
  let x := m.slot (m.taskCfg t).engine
  let m1 := if x.state ≠ 0 ∧ x.task = t + 64 then m
    else { m with drl := { m.drl with jobs := m.drl.jobs.filter (fun j => decide (j.code ≠ t + 64)) } }
  m1.updTask t (fun x => { x with st := 0, safe := 0 })

/-- STOP with SAFE: the safe-state sheaf is committed first; one under way for another cause serves. -/
def Half.taskSafe (m : Half) (t : Nat) : Half :=
  if (m.task t).safe = 0 then m.safeStart t 3 else m.updTask t (fun x => { x with safe := 3 })

/-- TASK_CMD STOP (R174): with SAFE the safe-state sheaf is committed first. -/
def Half.taskStop (m : Half) (y : View) (safe : Bool) : Half × Nat :=
  let t := m.selTask
  if !m.hasTask t then (m, 8)
  else
    match m.withFaults (if safe then m.taskSafe t else m.taskHalt t) with
    | (m1, 0) => ((m1.schedule (m.taskCfg t).engine).pump y, 0)
    | r => r

/-- TASK_CMD START (Table 6.4). -/
def Half.taskStart (m : Half) : Half × Nat :=
  let t := m.selTask
  if !m.hasTask t ∨ (m.task t).st ≠ 0 then (m, 8)
  else (m.updTask t (fun x => { x with st := 1, first := true }), 0)

/-- TASK_CMD CLR_STATS (R188). -/
def Half.taskClr (m : Half) : Half × Nat :=
  let t := m.selTask
  if !m.hasTask t then (m, 8) else (m.updTask t (fun x => { x with overruns := 0, abandoned := 0, maxs := 0 }), 0)

/-- DRLC.TASK_CMD (Table 6.11). -/
def Half.taskCmdEff (m : Half) (y : View) (st : Stamp) (v : Word) : Half × Nat :=
  if fld v 0 4 = 1 then m.taskResume st
  else if fld v 0 4 = 2 then m.taskStop y (flag v 8)
  else if fld v 0 4 = 3 then m.taskStart
  else if fld v 0 4 = 4 then m.taskClr
  else (m, 5)

/-- RESUME (R170). -/
def execResume (h : HalfId) (r : Req) (s : State) : Host.Outcome State Fault Refusal :=
  .next (s.regCmd h r rDrlcTaskCmd 1 (fun m => m.taskResume (reqStamp r)))

/-- STOP (R174). -/
def execStop (h : HalfId) (r : Req) (safe : Bool) (s : State) : Host.Outcome State Fault Refusal :=
  .next (s.regCmdV h r rDrlcTaskCmd (word (2 + safe.toNat * 256)) (fun y m => m.taskStop y safe))

/-- START (R170). -/
def execStart (h : HalfId) (r : Req) (s : State) : Host.Outcome State Fault Refusal :=
  .next (s.regCmd h r rDrlcTaskCmd 3 (fun m => m.taskStart))

/-- CLR_STATS (R188). -/
def execClrStats (h : HalfId) (r : Req) (s : State) : Host.Outcome State Fault Refusal :=
  .next (s.regCmd h r rDrlcTaskCmd 4 (fun m => m.taskClr))

/-- R174: every task stops; where the granary refuses the FAULTED mask, the FAULTED tasks stay (R180). -/
def Half.tasksHalt (m : Half) : Half :=
  match m.withFaults (m.taskList.foldl (fun m t => m.taskHalt t) m) with
  | (m1, 0) => m1
  | _ => (m.taskList.filter (fun t => decide ((m.task t).st ≠ 6))).foldl (fun m t => m.taskHalt t) m

/-- DRLC.CTRL.RUN at 1 (Table 6.4): stopped tasks wait for their release, with FIRST set. A foster's copies stay
stopped until their instance starts (R398). -/
def Half.tasksGo (m : Half) : Half :=
  let asleep := [0, 1].flatMap (fun k => if (m.fslot k).runs then [] else m.reserveTasks k)
  (m.taskList.filter (fun t => decide (t ∉ asleep))).foldl (fun m t => if (m.task t).st = 0 then m.updTask t (fun x => { x with st := 1, first := true }) else m) m

/-- DRLC.CTRL is written (R174). -/
def Half.drlcCtrlEff (m : Half) (n : Nat) (v : Word) : Half × Nat :=
  let m1 := m.plainWrite n rDrlcCtrl v
  if m.rdB rDrlcCtrl 0 && !m1.rdB rDrlcCtrl 0 then (m1.tasksHalt, 0)
  else if !m.rdB rDrlcCtrl 0 && m1.rdB rDrlcCtrl 0 then (m1.tasksGo, 0)
  else (m1, 0)

/-- DRILL_RUN_WRITE (R174). -/
def execDrillRunWrite (h : HalfId) (r : Req) (v : Word) (s : State) : Host.Outcome State Fault Refusal :=
  .next (s.regCmd h r rDrlcCtrl v (fun m => m.drlcCtrlEff (reqNum r) v))

/-- DRL.CLR (Table 6.8). -/
def Half.drlClrEff (m : Half) (e : Nat) (v : Word) : Half × Nat := (if flag v 0 then m.wrN (rDrlMinIdle e) 0xFFFFFFFF else m, 0)

/-- DRL_CLR (R187). -/
def execDrlClr (h : HalfId) (r : Req) (e : Fin 8) (v : Word) (s : State) : Host.Outcome State Fault Refusal :=
  .next (s.regCmd h r (rDrlClr e.val) v (fun m => m.drlClrEff e.val v))

/-- R183: the tasks that wait HELD take their snapshot. -/
def Half.unheld (m : Half) : Half :=
  (m.taskList.filter (fun t => decide ((m.task t).st = 5) && decide ((m.task t).safe = 0))).foldl (fun m t => m.drlSnapshot t) m

/-- SWAP_REFUSED (R182, R183): the exchange ends with a RESULT of Table 6.11; the banks are unchanged. -/
def Half.swapRefuse (m : Half) (result : Nat) : Half :=
  let us := (m.up - m.drl.swapAt) / 1000
  let m1 := { m with drl := { m.drl with swap := 0 } }
  ((((m1.wrN rDrlcSwapStat (result * 2 ^ 24 + us % 2 ^ 24)).irq 0x038 1).ev 0x0A09 m.drl.swapId.toNat result us 0).unheld)

/-- DRLC.SWAP (R182): an exchange is requested. -/
def Half.swapEff (m : Half) (v : Word) : Half × Nat :=
  if m.drl.swap ≠ 0 then
    (((m.wrF rDrlcSwapStat 24 8 8).irq 0x038 1).ev 0x0A09 v.toNat 8 ((m.up - m.drl.swapAt) / 1000) 0, 8)
  else ({ m with drl := { m.drl with swap := 1, swapId := v, swapAt := m.up } }, 0)

/-- PROGRAM_SWAP (R182). -/
def execProgramSwap (h : HalfId) (r : Req) (v : Word) (s : State) : Host.Outcome State Fault Refusal :=
  .next (s.regCmd h r rDrlcSwap v (fun m => m.swapEff v))

/-- R182: what the verification of the shadow bank finds, beside the other half's CRC where it is compared: a RESULT, 0 for a bank
that passes. -/
def Half.swapVerdict (m : Half) (o : Option Word) : Nat :=
  let p := m.drl.shadow
  if !p.valid then 2
  else if !p.crcOk then 3
  else if p.id ≠ m.drl.swapId then 4
  else match o with
    | some c => if c = p.crc then 0 else 5
    | none => 0

/-- SHADOW_VERIFIED (R182): the exchange drains, or is refused. -/
def execShadowVerified (h : HalfId) (s : State) : Host.Outcome State Fault Refusal :=
  .next (s.onHalf h (fun s =>
    let o := other h
    let theirs := if (s.role o = .inCharge ∨ s.role o = .follower) ∧ s.yoke.xup then some (s.half o).drl.shadow.crc else none
    s.upd h (fun m =>
      if m.drl.swap ≠ 1 then m
      else
        match m.swapVerdict theirs with
        | 0 => { m with drl := { m.drl with swap := 2 } }
        | c => m.swapRefuse c)))

/-- R184: a Drill force persists over the exchange. -/
def forceStays (p : Program) (f : Force) : Bool :=
  if f.kind = 1 then inRanges p.markers f.addr else if f.kind = 2 then decide (f.addr ∈ Half.drlPoints p) else true

/-- R184: the forces that the new program does not keep are released, and counted. -/
def Half.dropForces (m : Half) (old new : Word) : Half × Nat :=
  (m.ptab.forces.filter (fun e => !forceStays m.drl.active e.2)).foldl (fun (r : Half × Nat) e =>
    match r.1.putForce e.1 none with
    | some m1 => (((m1.forceChanged).ev 0x0A06 (forceKey e.2) (e.2.value.toNat % 2 ^ 32) old.toNat new.toNat).irq 0x038 2, r.2 + 1)
    | none => r) (m, 0)

/-- The addresses of used-address maps, as numbers. -/
def rangeList (l : List AddrRange) : List Nat := l.flatMap (fun r => (List.range r.count).map (· + r.first))

/-- Initial values of the markers, timers and counters that a program uses, but for addresses that keep their values (R181). -/
def Half.initVars (m : Half) (p : Program) (keepM keepT keepC : Nat → Bool) : Half :=
  let ms := m.drl.markers.filter (fun e => keepM e.1 && inRanges p.markers e.1)
  let ts := m.drl.timers.filter (fun e => keepT e.1 && inRanges p.timers e.1)
  let cs := m.drl.counters.filter (fun e => keepC e.1 && inRanges p.counters e.1)
  let ms1 := (p.initMark.filter (fun a => inRanges p.markers a && !keepM a)).foldl (fun l a => sput l a true) ms
  let fresh := ((p.initCv.map (·.1)) ++ (p.initPv.map (·.1))).eraseDups.filter (fun a => inRanges p.counters a && !keepC a)
  let cs1 := fresh.foldl (fun l a =>
    sset counterReset l a { counterReset with cv := sget 0 p.initCv a, pv := sget 0 p.initPv a }) cs
  { m with drl := { m.drl with markers := ms1, timers := ts, counters := cs1 } }

/-- R183: step 3: tasks that the new program does not have commit their RELINQUISH safe actions, and every task of it starts with
FIRST set. A task that goes leaves the FAULTED mask with its granary commit; where that is refused the mask keeps it (R180). -/
def Half.swapTasks (m : Half) (old : Program) : Half :=
  let new := m.drl.active
  let gone := old.tasks.filter (fun e => (sfind new.tasks e.1).isNone)
  let m0 := gone.foldl (fun m e => m.drlPush ⟨e.2.engine, e.1 + 128, (safeActs e.2).filter (fun a => a.aux.testBit 5)⟩) m
  let drop (keep : Bool) : Half :=
    (gone.filter (fun e => !keep || decide ((m.task e.1).st ≠ 6))).foldl (fun m e => m.updTask e.1 (fun _ => taskReset)) m0
  let m1 := match m0.withFaults (drop false) with
    | (m2, 0) => m2
    | _ => drop true
  new.tasks.foldl (fun m e =>
    let fresh := (sfind old.tasks e.1).isNone
    m.updTask e.1 (fun x =>
      { x with
        st := if fresh then (if m.rdB rDrlcCtrl 0 then 1 else 0) else x.st
        first := true
        last := []
        retImg := m1.retNow e.1 })) m1

/-- R183 to R185: the exchange: the banks exchange roles, with all that follows. -/
def Half.exchange (m : Half) (y : View) : Half :=
  let d := m.drl
  let old := d.active
  let new := d.shadow
  let us := (m.up - d.swapAt) / 1000
  let m1 := { m with drl := { d with active := new, shadow := old, actRaw := d.shdRaw, shdRaw := d.actRaw, bank := !d.bank, swap := 0 } }
  let m2 := m1.initVars new (inRanges old.markers) (inRanges old.timers) (inRanges old.counters)
  let m3 := m2.swapTasks old
  let (m4, n) := m3.dropForces old.id new.id
  let m5 := if m4.grn.frozen then m4 else m4.gPut (28 * 64 + 8) (leBytes 4 new.id.toNat)
  let m6 := ((m5.wrN rDrlcSwapStat (2 ^ 24 + us % 2 ^ 24)).irq 0x038 0).ev 0x0A08 old.id.toNat new.id.toNat us n
  (m6.unheld).pump y

/-- R183: no task on any engine is READY, RUNNING or COMMITTING. -/
def Half.drained (m : Half) : Bool := m.drl.tasks.all (fun e => decide (e.2.st ≠ 2) && decide (e.2.st ≠ 3) && decide (e.2.st ≠ 4))

/-- SWAP_DRAIN_END (R183). -/
def execSwapDrainEnd (h : HalfId) (s : State) : Host.Outcome State Fault Refusal :=
  .next (s.local_ h (fun y m => if m.drl.swap = 2 ∧ m.drained then m.exchange y else m))

/-- SWAP_DRAIN_TIMEOUT (R183). -/
def execSwapDrainTimeout (h : HalfId) (s : State) : Host.Outcome State Fault Refusal :=
  .next (s.local_ h (fun _ m => if m.drl.swap = 2 then m.swapRefuse 6 else m))

/-- R174, R183: PFW: an exchange is refused and every task stops. The FAULTED mask in the force region stays, so that a warm restart
finds it (Table 6.5). -/
def Half.drlPfw (m : Half) : Half :=
  let m1 := if m.drl.swap ≠ 0 then m.swapRefuse 7 else m
  m1.taskList.foldl (fun m t => m.taskHalt t) m1

/-- FORCE_SET (R178). -/
def execForceSet (h : HalfId) (r : Req) (v : Word) (s : State) : Host.Outcome State Fault Refusal :=
  .next (s.regCmd h r rDrlcFrc (putFlag v 28 false) (fun m =>
    let ws := m.stWords (reqNum r) rDrlcFrc 3 v
    m.frcEff (reqNum r) (reqStamp r) (putFlag v 28 false) (dword (ws.getD 1 0) (ws.getD 2 0))))

/-- FORCE_RELEASE (R180). -/
def execForceRelease (h : HalfId) (r : Req) (v : Word) (s : State) : Host.Outcome State Fault Refusal :=
  .next (s.regCmd h r rDrlcFrc (putFlag v 28 true) (fun m => m.frcEff (reqNum r) (reqStamp r) (putFlag v 28 true) 0))

/-- FORCE_PERSIST (R178): a command of KIND 3. -/
def execForcePersist (h : HalfId) (r : Req) (v : Word) (s : State) : Host.Outcome State Fault Refusal :=
  .next (s.regCmd h r rDrlcFrc (putFld v 30 2 3) (fun m => m.frcEff (reqNum r) (reqStamp r) (putFld v 30 2 3) 0))

/-- DRL's and DRLC's live registers (Tables 6.8 to 6.11). -/
def Half.drlRead (m : Half) (k : Nat) : Option Word :=
  let p := k / 4096
  if 0x030 ≤ p ∧ p ≤ 0x037 then
    let e := p - 0x030
    let ts := m.engineTasks e
    if k = rDrlStat e then
      let busy := ts.find? (fun t => decide ((m.task t).st = 3) || decide ((m.task t).st = 4))
      some (word (busy.isSome.toNat * 2 ^ 31 + busy.getD 0 * 2 ^ 24 + ts.length * 2 ^ 8
        + (ts.filter (fun t => decide ((m.task t).st = 2))).length))
    else if k = rDrlLoad e then some (word (m.engLoad e))
    else if k = rDrlTasks e then some (word (maskOf (ts.filter (fun t => decide (t < 32)))))
    else if k = rDrlTasks e + 4 then some (word (maskOf ((ts.filter (fun t => decide (32 ≤ t))).map (· - 32))))
    else none
  else if p = 0x038 then
    let t := m.selTask
    let c := m.taskCfg t
    let x := m.task t
    let f := sfind m.ptab.forces (m.rdF rDrlcFrcSel 0 8)
    if k = rDrlcStat then
      some (word (m.taskList.length * 2 ^ 16 + (m.drl.tasks.filter (fun e => decide (e.2.st = 6))).length * 2 ^ 8 + m.drl.swap * 2 ^ 4
        + m.drl.bank.toNat))
    else if k = rDrlcProgId then some m.drl.active.id
    else if k = rDrlcShadowId then some (if m.drl.shadow.valid then m.drl.shadow.id else 0)
    else if k = rDrlcTaskCfg0 then some (word (c.engine * 2 ^ 24 + c.prio * 2 ^ 16 + c.period))
    else if k = rDrlcTaskCfg1 then some (word (c.limit * 2 ^ 28 + c.level * 2 ^ 16 + c.phase))
    else if k = rDrlcTaskStat then
      some (word (x.st * 2 ^ 28 + x.first.toNat * 2 ^ 27 + x.warm.toNat * 2 ^ 26 + x.consec * 2 ^ 16 + x.cause))
    else if k = rDrlcTaskOvr then some (word (x.abandoned * 2 ^ 16 + x.overruns))
    else if k = rDrlcTaskWcet then some c.wcet
    else if k = rDrlcTaskMaxs then some (word x.maxs)
    else if k = rDrlcFrcInfo then some (match f with | some f => word (forceKey f) | none => 0)
    else if k = rDrlcFrcInfo + 4 then some (match f with | some f => loWord f.value | none => 0)
    else if k = rDrlcFrcInfo + 8 then some (match f with | some f => hiWord f.value | none => 0)
    else if k = rDrlcFrcInfo + 12 then some (match f with | some f => word f.stamp.toNat | none => 0)
    else none
  else none

/-- DRLC.FRC_BASE's rule (Table 6.10): 52 SAFETY pages with OWNER 3. -/
def Half.frcBaseRule (m : Half) (v : Word) : Nat :=
  let p := fld v 0 8
  if p < 32 ∨ 204 < p ∨ !((List.range 52).all (fun i => decide (m.gClass (p + i) = 3) && decide (m.gOwner (p + i) = 3))) then 5
  else 0

end Sys2Proof.Machine
end

