-- ==== Sys2Proof/Machine/Energy.lean ====
section
/-! DEFINITION. Energy metering: cycles (R261 to R263), windows (R255 to R260, R269, R270), demand (R265 to R268), rounds
(R273, R274), and the commands of the NRG page. -/
namespace Sys2Proof.Machine

/-- One volt or one ampere of scaled points: GAIN 1.0 (R271), full scale at 0.5 V (R251), scales in thousandths. -/
def nrgOne : Nat := 2 ^ 22 * 500000000 * 1000

/-- Full scale of scaled points for a scale in thousandths of a volt or ampere. -/
def nrgFull (scale : Nat) : Nat := 2 ^ 22 * 500000000 * scale

/-- The points held of the window in progress by input: 256 + voltage input for those delayed by 32 points. -/
def Half.winPts (m : Half) (i : Nat) : List Int := sget [] m.nrg.cur i

/-- The frequency of a cycle in mHz (R256): 0 where no zero crossings are found. -/
def cycMhz (x : EnergyCycle) : Nat := if x.ns = 0 then 0 else (10 ^ 12 + x.ns / 2) / x.ns

/-- R256: the frequency lies outside the measured range. -/
def freqBad (mhz : Nat) : Bool := decide (mhz < 42500) || decide (69000 < mhz)

/-- The sampling period in units of 1/1,024 ns. -/
def samplePeriod : Int := 128000000

/-- A conversion reaches ±1.0 V: it is clipped (R251). -/
def clips (x : Int) : Bool := decide (10 ^ 9 ≤ x.natAbs)

/-- What a clipped input converts. -/
def clipAt (x : Int) : Int := max (-(10 ^ 9)) (min (10 ^ 9) x)

/-- The samples a cycle presents for an input: 0 to 3 of its set, or 32 + channel. -/
def cycRaw (x : EnergyCycle) (i : Nat) : List Int :=
  (if i < 32 then x.volts.getD (i % 4) []
   else match x.amps.find? (fun e => decide (e.1 = i - 32)) with
    | some e => e.2
    | none => [])

/-- R252: first-order high-pass filter with its corner at 0.1 Hz, 2^-40 × 86,352,050 a sample at 8 kHz: the DC found, in 2^-32 nV, and
the samples without it. (DESIGN CHOICE, log entry 73: the arithmetic of the filter.) -/
def highPass : Int → List Int → Int × List Int
  | d, [] => (d, [])
  | d, x :: l =>
    let d1 := d + (x * 2 ^ 32 - d) * 86352050 / 2 ^ 40
    let r := highPass d1 l
    (r.1, (x - d1 / 2 ^ 32) :: r.2)

/-- An input's samples of a cycle without DC, with the DC found (R252). -/
def Half.cycAc (m : Half) (x : EnergyCycle) (i : Nat) : Int × List Int := highPass (sget 0 m.nrg.dc i) ((cycRaw x i).map clipAt)

/-- The samples kept of an input before a cycle. -/
def Half.cycHist (m : Half) (i : Nat) : List Int := lastN 64 (sget [] m.nrg.hist i)

/-- GAIN of an input in force (R271). -/
def Half.inGain (m : Half) (i : Nat) : Int :=
  (m.calIn (if i < 32 then rNvsGain (i / 4) (i % 4) else rNciGain ((i - 32) / 32) ((i - 32) % 32))).toNat

/-- Group delay of a sensor in units of 1/1,024 ns (Table 10.1). -/
def sensorDelay (type : Nat) : Int := if type = 0 then 4096000 else if type = 1 then 2048000 else if type = 2 then 512000 else 0

/-- R252: the delay of an input, its sensor's group delay less PHASE in force, in units of 1/1,024 ns. -/
def Half.inDelay (m : Half) (i : Nat) : Int :=
  let c := i - 32
  let ph (k : Nat) : Int := sext 16 (fld (m.calIn k) 0 16) * 125000
  if i < 32 then -ph (rNvsPhase (i / 4) (i % 4))
  else sensorDelay (m.rdF (rNciSensor (c / 32) (c % 32)) 0 2) - ph (rNciPhase (c / 32) (c % 32))

/-- The value of an input at a place among its samples, in units of 1/1,024 ns from the first: a sample where the place is one's, else
what resampling finds. (Log entry 73.) -/
def sampleAt (l : List Int) (place : Int) : Int :=
  if l.isEmpty then 0
  else if place % samplePeriod = 0 ∧ 0 ≤ place ∧ (place / samplePeriod).toNat < l.length then l.getD (place / samplePeriod).toNat 0
  else Config.interpolated l place

/-- R252, R256: the points of an input in a cycle, in 2^-22 nV, and the same points `late` points before: GAIN, delay, and 128 points
a cycle or, while the frequency is bad, the samples themselves; a channel that NCI.INVERT names is negated. -/
def Half.cycPts (m : Half) (x : EnergyCycle) (i late : Nat) : List Int :=
  let now := (m.cycAc x i).2
  if now.isEmpty then []
  else
    let g := m.inGain i
    let l := (m.cycHist i ++ now).map (· * g)
    let bad := freqBad (cycMhz x)
    let at0 : Int := 64 * samplePeriod - m.inDelay i - (if bad then 0 else x.lead * 1024)
    let step : Int := if bad then samplePeriod else 8 * x.ns
    let neg := decide (32 ≤ i) && m.rdB (rNciInvert ((i - 32) / 32)) ((i - 32) % 32)
    (List.range (if bad then now.length else 128)).map (fun (n : Nat) =>
      let v := sampleAt l (at0 + ((n : Int) - late) * step)
      if neg then -v else v)

/-- Points of a voltage input; zeros for a disabled one (R255). -/
def Half.vPoints (m : Half) (vs k : Nat) (l : List Int) : List Int := if m.vEn vs k then l else l.map (fun _ => 0)

/-- Points of a current, in 2^−22 nV: its channel, or the difference of its pair (R253); src answers a channel's points. -/
def Half.iPoints (m : Half) (c : Nat) (src : Nat → List Int) : List Int :=
  if m.paired c then diff (src c) (src (c + 1)) else src c

/-- U_FS of a voltage set in mV. -/
def Half.vScale (m : Half) (vs : Nat) : Nat := m.rdN (rNvsScale vs)

/-- Scaled points. -/
def scaled (scale : Nat) (l : List Int) : List Int := l.map (· * (scale : Int))

/-- R255: a phase voltage, u_Lk − u_N, from the points of the set's inputs. -/
def Half.uPhase (m : Half) (vs k : Nat) (src : Nat → List Int) : List Int :=
  diff (m.vPoints vs k (src k)) (m.vPoints vs 3 (src 3))

/-- The points of a meter's current in a cycle. -/
def Half.cycI (m : Half) (x : EnergyCycle) (c : Nat) : List Int := m.iPoints c (fun c => m.cycPts x (32 + c) 0)

/-- R261: the active and reactive energy of a meter in a cycle: sums of products of scaled points. -/
def Half.energyOf (m : Half) (i vs : Nat) (x : EnergyCycle) : Int × Int :=
  (cfgPhases (m.meter i).cfg).foldl (fun a p =>
    let u (late : Nat) : List Int := scaled (m.vScale vs) (m.uPhase vs p.1 (fun k => m.cycPts x (4 * vs + k) late))
    let cur := scaled (m.iScale p.2) (m.cycI x p.2)
    (a.1 + dot (u 0) cur, a.2 + dot (u 32) cur))
    (0, 0)

/-- R261: a sum of products of scaled points as energy in units of 2^−24 mWh, cut towards zero: Δt is 1 ÷ (128 f), or the
sampling period while the frequency lies outside the measured range. -/
def energyUnits (mhz : Nat) (n : Nat) : Nat :=
  if freqBad mhz then n * (10 * 2 ^ 24) / (nrgOne * nrgOne * 8000 * 36)
  else n * (1000 * 10 * 2 ^ 24) / (nrgOne * nrgOne * 128 * mhz * 36)

/-- R262: every current of a meter lies below 0.02 % of its full scale. -/
def Half.creeps (m : Half) (i : Nat) (x : EnergyCycle) : Bool :=
  (cfgPhases (m.meter i).cfg).all (fun p =>
    let l := m.cycI x p.2
    decide (25000000 * dot l l < (l.length : Int) * (2 ^ 22 * 500000000) ^ 2) || l.isEmpty)

/-- R261: an amount in units of 2^−24 joins a register: whole units are added, the rest is carried. Answers the whole units. -/
def Half.accFine (m : Half) (i r n : Nat) : Half × Nat :=
  let t := sget 0 (m.meter i).res r + n
  let m1 := m.updMeter i (fun x => { x with res := sset 0 x.res r (t % 2 ^ 24) })
  ((if t / 2 ^ 24 = 0 then m1 else m1.accAdd i r (t / 2 ^ 24)), t / 2 ^ 24)

/-- R261, R262: one meter's energy sample of a cycle. -/
def Half.meterCycle (m : Half) (vs : Nat) (x : EnergyCycle) (i : Nat) : Half :=
  if m.creeps i x then m.updMeter i (fun y => { y with flags := y.flags ||| 0x10 })
  else
    let (p, q) := m.energyOf i vs x
    let r := if 0 ≤ p then (if 0 ≤ q then 2 else 5) else (if 0 ≤ q then 3 else 4)
    let (m1, whole) := m.accFine i (if 0 ≤ p then 0 else 1) (energyUnits (cycMhz x) p.natAbs)
    let m2 := m1.updMeter i (fun y =>
      if 0 ≤ p then { y with curImp := y.curImp + whole, ivImp := y.ivImp + whole }
      else { y with curExp := y.curExp + whole, ivExp := y.ivExp + whole })
    (m2.accFine i r (energyUnits (cycMhz x) q.natAbs)).1

/-- INPUT_CLIPPED (R251): n clipped samples of an input, 0 to 31 or 32 + channel; the event counts those of the last second. -/
def Half.clipped (m : Half) (i n : Nat) : Half :=
  let l := (m.up, n) :: (sget [] m.nrg.clipN i).filter (fun e => decide (m.up - e.1 < oneSec))
  let m1 := (m.updN (fun s => { s with clipNow := insNat s.clipNow i, clipN := sset [] s.clipN i l })).irq 0x060 4
  if m1.passed (sfind m1.nrg.clipAt i) oneSec then
    (m1.updN (fun s => { s with clipAt := sput s.clipAt i m.up })).ev 0x0C0C
      (decide (32 ≤ i)).toNat (if i < 32 then i else i - 32) ((l.map (·.2)).foldl (· + ·) 0) 0
  else m1

/-- The inputs of a meter: its phase voltages, its neutral and its channels, with the odd ones of its pairs. -/
def Half.meterInputs (m : Half) (i : Nat) : List Nat :=
  let x := m.meter i
  (cfgPhases x.cfg).flatMap (fun p => [4 * x.vs + p.1, 32 + p.2] ++ (if m.paired p.2 then [33 + p.2] else [])) ++ [4 * x.vs + 3]

/-- The inputs whose samples a cycle of a voltage set presents: the set's own, and the channels whose window is the set's (R255). -/
def Half.cycInputs (m : Half) (vs : Nat) (x : EnergyCycle) : List Nat :=
  (List.range 4).map (4 * vs + ·) ++ (x.amps.map (·.1)).filterMap (fun c => if m.chanSet c = vs ∧ c < 192 then some (32 + c) else none)

/-- What a voltage set has counted at reset. -/
def vsetReset : VSet := ⟨0, 0, 0, 0, 0, 0, 0⟩

/-- A voltage set's counts. -/
def Half.vset (m : Half) (vs : Nat) : VSet := sget vsetReset m.nrg.sets vs

/-- Writes a voltage set's counts. -/
def Half.setVset (m : Half) (vs : Nat) (x : VSet) : Half :=
  m.updN (fun n => { n with sets := sset vsetReset n.sets vs x })

/-- The input belongs to the window of a voltage set (R255); 256 + voltage input: its delayed points. -/
def Half.inWindow (m : Half) (vs i : Nat) : Bool :=
  if i < 32 then decide (i / 4 = vs) else if 256 ≤ i then decide ((i - 256) / 4 = vs) else decide (m.chanSet (i - 32) = vs)

/-- The window in progress of a voltage set begins anew. -/
def Half.freshWindow (m : Half) (vs : Nat) : Half :=
  (m.setVset vs { m.vset vs with cycles := 0, ns := 0, taken := 0 }).updN (fun n => { n with
    cur := n.cur.filter (fun e => !m.inWindow vs e.1), raw := n.raw.filter (fun e => !m.inWindow vs e.1) })

/-- FREQ_BAD (R256) of a set, with its event on the change, and the flag of its meters' intervals. Windows hold points or samples, so a
change begins the window anew. (DESIGN CHOICE, log entry 75.) -/
def Half.freqTest (m : Half) (vs mhz : Nat) : Half :=
  let bad := freqBad mhz
  let m1 := if m.rdB (rNvsStat vs) 8 = bad then m
    else (((m.wrB (rNvsStat vs) 8 bad).wrN (rNvsFreq vs) (if bad then 0 else m.rdN (rNvsFreq vs))).ev 0x0C09 vs mhz bad.toNat 0).freshWindow vs
  if bad then (m1.metersOf vs).foldl (fun m i => m.updMeter i (fun x => { x with flags := x.flags ||| 0x80 })) m1 else m1

/-- The points and samples of a cycle join the window in progress, and the DC and the last samples of each input are kept. -/
def Half.cycKeep (m : Half) (vs : Nat) (x : EnergyCycle) : Half :=
  let ins := m.cycInputs vs x
  let put (s : Sparse (List Int)) (k : Nat) (l : List Int) : Sparse (List Int) := sset [] s k (sget [] s k ++ l)
  let v := m.vset vs
  (m.updN (fun n => { n with
    cur := (List.range 4).foldl (fun a k => put a (256 + 4 * vs + k) (m.cycPts x (4 * vs + k) 32))
      (ins.foldl (fun a i => put a i (m.cycPts x i 0)) n.cur)
    raw := ins.foldl (fun a i => put a i (m.cycAc x i).2) n.raw
    dc := ins.foldl (fun a i => sset 0 a i (m.cycAc x i).1) n.dc
    hist := ins.foldl (fun a i => sset [] a i (lastN 64 (sget [] a i ++ (m.cycAc x i).2))) n.hist })).setVset vs
    { v with cycles := v.cycles + 1, ns := v.ns + x.ns, taken := v.taken + (cycRaw x (4 * vs)).length }

/-- One cycle of a voltage set (R251, R252, R256, R261 to R263); at its end staged calibration applies (R271). -/
def Half.energyCycle (m : Half) (vs : Nat) (x : EnergyCycle) : Half :=
  if !m.nrgRun then m.calApplySet vs
  else
    let cut := ((m.cycInputs vs x).map (fun i => (i, ((cycRaw x i).filter clips).length))).filter (fun e => decide (e.2 ≠ 0))
    let m1 := cut.foldl (fun m e => m.clipped e.1 e.2) m
    let m2 := (m1.metersOf vs).foldl (fun m i =>
      if (m.meterInputs i).any (fun k => cut.any (fun e => decide (e.1 = k))) then
        m.updMeter i (fun y => { y with flags := y.flags ||| 0x40 })
      else m) m1
    let m3 := if m2.nrg.stopped then m2 else (m2.metersOf vs).foldl (fun m i => m.meterCycle vs x i) m2
    ((m3.freqTest vs (cycMhz x)).cycKeep vs x).calApplySet vs

/-- ENERGY_CYCLE (R261). -/
def execEnergyCycle (vs : Fin 8) (x : EnergyCycle) (s : State) : Host.Outcome State Fault Refusal :=
  .next (s.input (fun _ m => m.energyCycle vs.val x))

/-- What Table 10.2 makes of one phase of a meter. -/
structure PhaseRes where
  u : Fv
  i : Fv
  p : Fv
  q : Fv
  sa : Fv
  deriving DecidableEq, Repr

/-- A mean square root of scaled points. -/
def rmsOf (l : List Int) : Fv := sqrtFv (dot l l).toNat (l.length * nrgOne * nrgOne)

/-- Table 10.2 for one phase: points of its voltage, of the delayed voltage, and of its current. -/
def phaseRes (u late i : List Int) : PhaseRes :=
  let d := i.length * nrgOne * nrgOne
  if d = 0 then ⟨fint 0, fint 0, fint 0, fint 0, fint 0⟩
  else ⟨rmsOf u, rmsOf i, ratFv (dot u i) d, ratFv (dot late i) d, sqrtFv ((dot u u).toNat * (dot i i).toNat) (d * d)⟩

/-- PF (Table 10.2): 0 where S is 0. -/
def pfOf (p sa : Fv) : Fv := if feq sa (fint 0) then fint 0 else fdiv p sa

/-- The scaled points of a phase voltage in the window. -/
def Half.winU (m : Half) (vs k : Nat) : List Int :=
  scaled (m.vScale vs) (m.uPhase vs k (fun j => m.winPts (4 * vs + j)))

/-- The same points delayed by 32 (Table 10.2). -/
def Half.winLate (m : Half) (vs k : Nat) : List Int :=
  scaled (m.vScale vs) (m.uPhase vs k (fun j => m.winPts (256 + 4 * vs + j)))

/-- The scaled points of a current in the window. -/
def Half.winI (m : Half) (c : Nat) : List Int := scaled (m.iScale c) (m.iPoints c (fun c => m.winPts (32 + c)))

/-- The phases of a meter with their results. -/
def Half.meterPhases (m : Half) (i : Nat) : List (Nat × PhaseRes) :=
  let x := m.meter i
  (cfgPhases x.cfg).map (fun p =>
    (p.1, phaseRes (m.winU x.vs p.1) (m.winLate x.vs p.1) (m.winI p.2)))

/-- The sum of one quantity over phases. -/
def sumFv (l : List Fv) : Fv := l.foldl fadd (fint 0)

/-- R257: the totals of a meter. -/
def totals (l : List (Nat × PhaseRes)) : PhaseRes :=
  ⟨fint 0, fint 0, sumFv (l.map (·.2.p)), sumFv (l.map (·.2.q)), sumFv (l.map (·.2.sa))⟩

/-- The channel whose window is that of a voltage set, and that has a result (R251, R253, R255). -/
def Half.chansOf (m : Half) (vs : Nat) : List Nat := (List.range 192).filter (fun c => decide (m.chanSet c = vs))

/-- RAW of an input: the RMS in µV of its samples of the window before GAIN, DC removed (R252, R271). -/
def rawRms (l : List Int) : Word := word (rawFv (sqrtFv (dot l l).toNat (l.length * 1000000))).toNat

/-- The registers of a current channel at the end of its window (Table 10.11). -/
def Half.chanResult (m : Half) (bad : Bool) (c : Nat) : Half :=
  let g := c / 32
  let n := c % 32
  let m0 := m.wrB (rNciClip g) n (decide (32 + c ∈ m.nrg.clipNow))
  if !m.chanOk c then (((m0.wrN (rNciRaw g n) 0).wrN (rNciIrms g n) 0).wrN (rNciP g n) 0).wrN (rNciThd g n) 0
  else
    let i := m.winI c
    let p := match m.metersOn.findSome? (fun k =>
        ((cfgPhases (m.meter k).cfg).find? (fun p => decide (p.2 = c))).map (fun p => (k, p.1))) with
      | some (k, ph) => ratFv (dot (m.winU (m.meter k).vs ph) i) (i.length * nrgOne * nrgOne)
      | none => fint 0
    let thd := if bad then fint 0 else thdOf nrgOne (nrgFull (m.iScale c)) i
    (((m0.wr (rNciRaw g n) (rawRms (sget [] m.nrg.raw (32 + c)))).wr (rNciIrms g n) (w32 (rmsOf i))).wr (rNciP g n)
      (if i.isEmpty then 0 else w32 p)).wr (rNciThd g n) (w32 thd)

/-- The neutral displacement's points, times 3 (Table 10.2). -/
def Half.displ3 (m : Half) (vs : Nat) : List Int :=
  let p (k : Nat) : List Int := m.vPoints vs k (m.winPts (4 * vs + k))
  diff (diff (diff ((p 3).map (· * 3)) (p 0)) (p 1)) (p 2)

/-- The lag of input k behind input 0 at the fundamental, in units of 2^−40 degrees, in [0, 360). -/
def Half.lagOf (m : Half) (vs k : Nat) : Int :=
  let ang (k : Nat) : Int := angleOf (harm (m.vPoints vs k (m.winPts (4 * vs + k))) 1)
  (ang 0 - ang k) % (2 * halfTurn)

/-- The registers of a voltage set at the end of its window (Table 10.10). -/
def Half.setResult (m : Half) (vs mhz : Nat) : Half :=
  let bad := m.rdB (rNvsStat vs) 8
  let clip := maskOf ((List.range 4).filter (fun k => decide (4 * vs + k ∈ m.nrg.clipNow)))
  let m1 := (m.wrF (rNvsStat vs) 0 4 clip).wrN (rNvsFreq vs) (if bad then 0 else mhz)
  let m2 := (List.range 4).foldl (fun a k => a.wr (rNvsRaw vs k) (rawRms (sget [] m.nrg.raw (4 * vs + k)))) m1
  let m3 := (List.range 3).foldl (fun a k =>
    (a.wr (rNvsUrms vs k) (w32 (rmsOf (m.winU vs k)))).wr (rNvsThd vs k)
      (w32 (if bad then fint 0 else thdOf nrgOne (nrgFull (m.vScale vs)) (m.winU vs k)))) m2
  let d := m.displ3 vs
  let m4 := m3.wr (rNvsUrms vs 3) (w32 (sqrtFv ((dot d d).toNat * m.vScale vs ^ 2) (9 * d.length * nrgOne ^ 2)))
  (List.range 2).foldl (fun a k =>
    a.wr (rNvsAng vs k) (w32 (if bad then fint 0 else degrees (m.lagOf vs (k + 1))))) m4

/-- WRONG_SEQUENCE (R269): the test of one window. -/
def Half.seqTest (m : Half) (vs : Nat) (bad : Bool) : Half :=
  let low (k : Nat) : Bool :=
    let l := m.winU vs k
    decide (100 * dot l l < (l.length : Int) * (nrgFull (m.vScale vs)) ^ 2) || l.isEmpty
  if bad || !(m.vEn vs 0 && m.vEn vs 1 && m.vEn vs 2) || low 0 || low 1 || low 2 then m
  else
    let near (a c : Int) : Bool := decide ((a - c * 2 ^ 40).natAbs ≤ 30 * 2 ^ 40)
    let x := m.vset vs
    if near (m.lagOf vs 1) 120 && near (m.lagOf vs 2) 240 then
      let m1 := m.setVset vs { x with wrong := 0, right := x.right + 1 }
      if 3 ≤ x.right + 1 ∧ m.rdB (rNvsStat vs) 9 then
        ((m1.wrB (rNvsStat vs) 9 false).irq 0x060 3).ev 0x0C03 vs 0 0 0
      else m1
    else
      let m1 := m.setVset vs { x with wrong := x.wrong + 1, right := 0 }
      if 3 ≤ x.wrong + 1 ∧ !m.rdB (rNvsStat vs) 9 then
        ((m1.wrB (rNvsStat vs) 9 true).irq 0x060 3).ev 0x0C02 vs (m1.rdN (rNvsAng vs 0)) (m1.rdN (rNvsAng vs 1)) 0
      else m1

/-- NEUTRAL_MISSING (R270): the test of one window. -/
def Half.neutralTest (m : Half) (vs : Nat) : Half :=
  if !(m.vEn vs 0 && m.vEn vs 1 && m.vEn vs 2 && m.vEn vs 3) then m
  else
    let d := m.displ3 vs
    let den := 9 * d.length * (2 ^ 22 * 500000000) ^ 2
    let num := (dot d d).toNat * 10000 ^ 2
    let lim := m.rdF rNrgNeut 0 16
    let pct := (rawFv (sqrtFv num den)).toNat
    let x := m.vset vs
    if lim ^ 2 * den < num then
      let m1 := m.setVset vs { x with displ := x.displ + 1, good := 0 }
      if 3 ≤ x.displ + 1 ∧ !m.rdB (rNvsStat vs) 10 then
        ((m1.wrB (rNvsStat vs) 10 true).irq 0x060 3).ev 0x0C04 vs pct lim 0
      else m1
    else
      let good := decide (25 * num ≤ 16 * lim ^ 2 * den)
      let m1 := m.setVset vs { x with displ := 0, good := if good then x.good + 1 else 0 }
      if good ∧ 3 ≤ x.good + 1 ∧ m.rdB (rNvsStat vs) 10 then
        ((m1.wrB (rNvsStat vs) 10 false).irq 0x060 3).ev 0x0C05 vs pct 0 0
      else m1

/-- The registers of a meter at the end of its window. -/
def Half.meterResult (m : Half) (i : Nat) : Half :=
  let t := totals (m.meterPhases i)
  m.updMeter i (fun x => { x with tot := [w32 t.p, w32 t.q, w32 t.sa, w32 (pfOf t.p t.sa)] })

/-- A number in thousandths. -/
def milli (x : Fv) : Int := rawFv (fmul x (fint 1000))

/-- The raw value of an NRG source binding (Table 10.3); none where the address names nothing. -/
def Half.nrgRaw (m : Half) (n q ph mhz : Nat) : Option Int :=
  if q = 0x15 then some (milli (fdec f32 (m.rdN (rNvsUrms (n / 4) (n % 4)))))
  else
    let x := m.meter n
    let phs := m.meterPhases n
    let r : Option PhaseRes := if ph = 0 then some (totals phs) else (phs.find? (fun e => decide (e.1 + 1 = ph))).map (·.2)
    let thd (fs : Nat) (l : List Int) : Int := if freqBad mhz then 0 else milli (thdOf nrgOne fs l)
    if 1 ≤ q ∧ q ≤ 6 then some (x.reg (q - 1)).toNat
    else if q = 0x10 then r.map (fun r => milli r.p)
    else if q = 0x11 then r.map (fun r => milli r.q)
    else if q = 0x12 then r.map (fun r => milli r.sa)
    else if q = 0x13 then r.map (fun r => rawFv (fmul (pfOf r.p r.sa) (fint 1000000)))
    else if q = 0x14 then some (if freqBad mhz then 0 else mhz)
    else if q = 0x16 then (if ph = 0 then none else r.map (fun r => milli r.i))
    else if q = 0x17 then (if 1 ≤ ph ∧ ph ≤ 3 then some (thd (nrgFull (m.vScale x.vs)) (m.winU x.vs (ph - 1))) else none)
    else if q = 0x18 then
      ((cfgPhases x.cfg).find? (fun p => decide (p.1 + 1 = ph))).map (fun p => thd (nrgFull (m.iScale p.2)) (m.winI p.2))
    else if q = 0x20 then some x.dem.toNat
    else if q = 0x21 then some x.demx.toNat
    else if q = 0x22 then some x.peak.toNat
    else none

/-- R260: the NRG source bindings of a voltage set send at the end of its window. -/
def Half.nrgBindings (m : Half) (y : View) (vs mhz : Nat) : Half :=
  let bs := m.sources (fun d => decide (bKind d = 7)
    && decide ((if bByte d 9 = 0x15 then bByte d 8 / 4 else (m.meter (bByte d 8)).vs) = vs)
    && (decide (bByte d 9 = 0x15) || (m.meter (bByte d 8)).en))
  bs.foldl (fun a b =>
    let d := m.srcDesc b
    match m.nrgRaw (bByte d 8) (bByte d 9) (bByte d 10) mhz with
    | some v => a.present y b (twos 64 v) m.tai
    | none => a) m

/-- The window has ended: its scaled points are kept (R258), and the next one begins. -/
def Half.nextWindow (m : Half) (vs : Nat) (bad : Bool) : Half :=
  let vk := (List.range 4).map (fun k => (4 * vs + k, scaled (m.vScale vs) (m.vPoints vs k (m.winPts (4 * vs + k)))))
  let ik := (m.chansOf vs).filterMap (fun c =>
    if (sfind m.nrg.cur (32 + c)).isSome ∨ (sfind m.nrg.last (32 + c)).isSome then
      some (32 + c, if m.chanOk c then m.winI c else [])
    else none)
  (m.updN (fun n => { n with
    last := (vk ++ ik).foldl (fun a e => sset [] a e.1 (if bad then [] else e.2)) n.last
    clipNow := n.clipNow.filter (fun i => !m.inWindow vs i) })).freshWindow vs

/-- R256: the set's window is complete: 10 cycles, 12 at 60 Hz, or 1,600 samples while the frequency is bad. -/
def Half.windowFull (m : Half) (vs : Nat) : Bool :=
  if m.rdB (rNvsStat vs) 8 then decide (1600 ≤ (m.vset vs).taken)
  else decide ((if m.rdB rNrgCtrl 1 then 12 else 10) ≤ (m.vset vs).cycles)

/-- The frequency that a set measured over its window, in mHz; 0 while it is bad (R256). -/
def Half.windowMhz (m : Half) (vs : Nat) : Nat :=
  let v := m.vset vs
  if m.rdB (rNvsStat vs) 8 ∨ v.ns = 0 then 0 else (v.cycles * 10 ^ 12 + v.ns / 2) / v.ns

/-- NRG_WINDOW_END (R255 to R260, R269, R270): every result of the set's complete window replaces the previous one. -/
def Half.windowEnd (m : Half) (y : View) (vs : Nat) : Half :=
  if !m.nrgRun || !m.windowFull vs then m
  else
    let bad := m.rdB (rNvsStat vs) 8
    let mhz := m.windowMhz vs
    let m1 := m.setResult vs mhz
    let m2 := (m1.chansOf vs).foldl (fun m c => m.chanResult bad c) m1
    let m3 := (m2.metersOf vs).foldl (fun m i => m.meterResult i) m2
    let m4 := (m3.seqTest vs bad).neutralTest vs
    (((m4.nrgBindings y vs mhz).nextWindow vs bad).irq 0x060 0)

/-- NRG_WINDOW_END (R259): the energy engine of a half ends a window. -/
def execNrgWindowEnd (h : HalfId) (vs : Fin 8) (s : State) : Host.Outcome State Fault Refusal :=
  .next (s.local_ h (fun y m => m.windowEnd y vs.val))

/-- NRG.CTRL.DEM_MIN. -/
def Half.demMin (m : Half) : Nat := m.rdF rNrgCtrl 8 6

/-- R266: 60 × energy of the last L minutes ÷ L. -/
def demandOf (len : Nat) (l : List Nat) : Nat := 60 * (l.take len).foldl (· + ·) 0 / len

/-- R266: one meter at a minute boundary. -/
def minuteOf (len : Nat) (x : Meter) : Meter :=
  let imp := (x.curImp :: x.minImp).take 60
  let exp := (x.curExp :: x.minExp).take 60
  let d := word (min (demandOf len imp) 0xFFFFFFFF)
  { x with
    minImp := imp, minExp := exp, curImp := 0, curExp := 0
    dem := d, demx := word (min (demandOf len exp) 0xFFFFFFFF)
    peak := if x.peak.toNat < d.toNat then d else x.peak }

/-- DEMAND_MINUTE (R265, R266): every UTC minute that the time base has passed since the last one ends; those after the first hold
nothing. While metering is stopped they hold nothing too. -/
def Half.demandMinute (m : Half) (leap : Nat) : Half :=
  let now := m.utcMinute leap
  let n := min (now - m.nrg.minute).toNat 61
  if n = 0 then m
  else (m.metersOn.foldl (fun m' i => m'.updMeter i (fun x => Nat.repeat (minuteOf m.demMin) n x)) m).updN (fun s => { s with minute := now })

/-- DEMAND_MINUTE (R266). -/
def execDemandMinute (s : State) : Host.Outcome State Fault Refusal := .next (s.input (fun y m => m.demandMinute y.leap))

/-- Table 10.5: the interval record of a meter. -/
def Half.intervalRec (m : Half) (i : Nat) : List Byte :=
  let x := m.meter i
  let top := 2 ^ 64 - 1
  let sat := decide (top < x.ivImp) || decide (top < x.ivExp)
  let fl := (x.flags &&& 0xFE) ||| (decide (x.ivImp ≠ 0) && decide (x.ivExp ≠ 0)).toNat ||| (if sat then 2 else 0)
  leBytes 8 m.tai.toNat ++ leBytes 8 (min x.ivImp top) ++ leBytes 8 (min x.ivExp top) ++ leBytes 2 i ++ leBytes 2 fl
    ++ leBytes 4 x.dem.toNat

/-- R267: one meter at the end of an interval: its record stays in M_IREC, and its next interval begins. -/
def Half.intervalOf (m : Half) (i : Nat) : Half :=
  let r := m.intervalRec i
  m.updMeter i (fun x => { x with
    irec := (List.range 8).map (fun k => word (leAt r (4 * k) 4))
    ivImp := 0, ivExp := 0
    flags := x.flags &&& 0xE02 })

/-- R267, R503: the record goes to the queue of NRG.IQ; one that finds it full sets IQ_LOST. -/
def Half.intervalSend (m : Half) (i : Nat) (r : List Byte) : Half :=
  if !m.rdB rNrgIq 31 then m
  else match m.post (m.rdF rNrgIq 0 8) 0x09 0x060 m.tai 0 r [] with
    | (m1, true) => m1
    | (m1, false) => m1.updMeter i (fun x => { x with flags := x.flags ||| 0x200 })

/-- R267: every enabled meter's record, and source bit 1; the next interval begins at a UTC minute. -/
def Half.intervalClose (m : Half) (now : Int) : Half :=
  ((m.metersOn.foldl (fun m i => (m.intervalOf i).intervalSend i (m.intervalRec i)) m).irq 0x060 1).updN
    (fun s => { s with ivMin := now })

/-- R267: a boundary of an L-minute interval, aligned to the UTC hour, lies between two UTC minutes. -/
def Half.ivPassed (m : Half) (now : Int) : Bool := decide (m.nrg.ivMin / (m.demMin : Int) < now / (m.demMin : Int))

/-- DEMAND_INTERVAL_END (R267): at a boundary of the interval, after the minute that ends with it. -/
def Half.intervalEnd (m : Half) (leap : Nat) : Half :=
  let now := m.utcMinute leap
  if !m.ivPassed now then m
  else
    let m1 := m.demandMinute leap
    if m1.nrgRun then m1.intervalClose now else m1.updN (fun s => { s with ivMin := now })

/-- DEMAND_INTERVAL_END (R267). -/
def execDemandIntervalEnd (s : State) : Host.Outcome State Fault Refusal := .next (s.input (fun y m => m.intervalEnd y.leap))

/-- R268: a forward step of the time base: the minutes passed over count as zero, and where an interval boundary was passed the current
interval closes at the step, PARTIAL. -/
def Half.timeForward (m : Half) (leap : Nat) : Half :=
  ((if m.ivPassed (m.utcMinute leap) then m.partialAll else m).demandMinute leap).intervalEnd leap

/-- R268: a backward step: the interval in progress is PARTIAL, and runs to the next boundary after the step. -/
def Half.timeBack (m : Half) (leap : Nat) : Half :=
  let now := m.utcMinute leap
  m.partialAll.updN (fun s => { s with minute := min s.minute now, ivMin := min s.ivMin now })

/-- ENERGY_ROUND (R273): a round is made while metering accumulates. -/
def execEnergyRound (h : HalfId) (s : State) : Host.Outcome State Fault Refusal :=
  .next (s.local_ h (fun _ m => if m.accumulates then m.nrgCommit 1 else m))

/-- R274, R439: at PFW + 2 ms accumulation stops, a last round is committed with KIND 2, and the power-fail store begins. -/
def Half.snapshotRound (m : Half) (y : View) : Half :=
  if !y.fail || m.grn.frozen then m
  else
    let m1 := if m.accumulates then (m.nrgCommit 2).updN (fun n => { n with stopped := true }) else m
    { m1 with grn := { m1.grn with request := some (3, none) } }

/-- ENERGY_SNAPSHOT_ROUND (R274). -/
def execEnergySnapshotRound (h : HalfId) (s : State) : Host.Outcome State Fault Refusal :=
  .next (s.local_ h (fun y m => m.snapshotRound y))

/-- NRG_CAL_APPLY (R271). -/
def execNrgCalApply (h : HalfId) (r : Req) (v : Word) (s : State) : Host.Outcome State Fault Refusal :=
  .next (s.regCmd h r rNrgCalApply v (fun m => m.calApplyEff (reqStamp r) v))

/-- NRG.M_CMD (Table 10.9) on the selected meter. -/
def Half.mCmdEff (m : Half) (v : Word) : Half × Nat :=
  let i := m.rdN rNrgMSel
  if fld v 0 4 = 1 then (m.updMeter i (fun x => { x with peak := 0 }), 0)
  else if fld v 0 4 = 2 then (m.updMeter i (fun x => { x with flags := x.flags &&& 0xC02, gap := false }), 0)
  else if fld v 0 4 = 3 then
    (m.updMeter i (fun x => { x with acc := [], sat := [], flags := x.flags &&& 0xFFD }), 0)
  else (m, 5)

/-- CLR_PEAK (R266). -/
def execClrPeak (h : HalfId) (r : Req) (s : State) : Host.Outcome State Fault Refusal :=
  .next (s.regCmd h r rNrgMCmd 1 (fun m => m.mCmdEff 1))

/-- CLR_FLAGS of a meter (Table 10.9). -/
def execNrgClrFlags (h : HalfId) (r : Req) (s : State) : Host.Outcome State Fault Refusal :=
  .next (s.regCmd h r rNrgMCmd 2 (fun m => m.mCmdEff 2))

/-- CLR_ACC (R263). -/
def execClrAcc (h : HalfId) (r : Req) (s : State) : Host.Outcome State Fault Refusal :=
  .next (s.regCmd h r rNrgMCmd 3 (fun m => m.mCmdEff 3))

/-- REACTIVE_LOAD (R276): the low word of NRG.M_LOAD commits the accessor's staged words. -/
def execReactiveLoad (h : HalfId) (r : Req) (v : Word) (s : State) : Host.Outcome State Fault Refusal :=
  .next (s.regCmd h r rNrgMLoad v (fun m => m.mLoadEff (reqStamp r) (m.commitWords (reqNum r) rNrgMLoad 8 v)))

/-- M_CFG_WRITE (R254). -/
def execMCfgWrite (h : HalfId) (r : Req) (v : Word) (s : State) : Host.Outcome State Fault Refusal :=
  .next (s.regCmd h r rNrgMCfg v (fun m => m.mCfgEff v))

/-- R265: the interval lengths DEM_MIN takes. -/
def demLens : List Nat := [1, 2, 3, 4, 5, 6, 10, 12, 15, 20, 30, 60]

/-- R272, R265, R268: NRG.CTRL is written. RUN = 1 is refused while the energy area is not its own; RUN going to 1 makes the
intervals PARTIAL and lets accumulation run; RUN going to 0 commits a last round with KIND 2. -/
def Half.nrgCtrlEff (m : Half) (n : Nat) (v : Word) : Half × Nat :=
  let run := m.rdB rNrgCtrl 0
  if fld v 8 6 ∉ demLens then (m, 5)
  else if run ∧ (fld v 1 2 ≠ m.rdF rNrgCtrl 1 2) then (m, 8)
  else
    let m1 := m.plainWrite n rNrgCtrl v
    if flag v 0 ∧ !m1.nrgAreaOk then (m, 8)
    else if flag v 0 ∧ !run then ((List.range 8).foldl (fun m vs => m.freshWindow vs) (m1.partialAll.updN (fun n => { n with stopped := false })), 0)
    else if run ∧ !flag v 0 then ((if m.accumulates then m.nrgCommit 2 else m).plainWrite n rNrgCtrl v, 0)
    else (m1, 0)

/-- NRG_RUN_WRITE (R272). -/
def execNrgRunWrite (h : HalfId) (r : Req) (v : Word) (s : State) : Host.Outcome State Fault Refusal :=
  .next (s.regCmd h r rNrgCtrl v (fun m => m.nrgCtrlEff (reqNum r) v))

/-- Registers of NRG, NVS and NCI that change only while RUN is 0 (R254). -/
def nrgFrozen (k : Nat) : Bool :=
  decide (k = rNrgGrnBase) ||
    (decide (0x061 ≤ k / 4096) && decide (k / 4096 ≤ 0x068) && (decide (k % 4096 = 0x040) || decide (k % 4096 = 0x048))) ||
    (decide (0x069 ≤ k / 4096) && decide (k / 4096 ≤ 0x06E)
      && (decide (k % 4096 = 0x040) || (decide (0x100 ≤ k % 4096) && decide (k % 32 = 0))))

/-- The rules of the other registers of NRG, NVS and NCI (R254, Tables 10.8 to 10.11). -/
def Half.nrgRegEff (m : Half) (n k : Nat) (v : Word) : Half × Nat :=
  if nrgFrozen k ∧ m.rdB rNrgCtrl 0 then (m, 8)
  else if k = rNrgGrnBase ∧ fld v 0 8 < 32 then (m, 5)
  else if k = rNrgNeut ∧ (fld v 0 16 = 0 ∨ 10000 < fld v 0 16) then (m, 5)
  else if k = rNrgMSel ∧ 191 < v.toNat then (m, 5)
  else if k = rNrgHSel ∧ (fld v 0 6 = 0 ∨ (if flag v 31 then 191 else 31) < fld v 8 8) then (m, 5)
  else if k = rNrgIq ∧ m.queueRule k v false ≠ 0 then (m, m.queueRule k v false)
  else (m.plainWrite n k v, 0)

/-- The last window's points of the input that NRG.H_SEL names. -/
def Half.hPoints (m : Half) : List Int :=
  let i := m.rdF rNrgHSel 8 8
  sget [] m.nrg.last (if m.rdB rNrgHSel 31 then 32 + i else i)

/-- NRG.H_MAG (R258): zero while the window held no cycles. -/
def Half.hMag (m : Half) : Word :=
  if m.hPoints.isEmpty then 0 else w32 (harmMag nrgOne m.hPoints (m.rdF rNrgHSel 0 6))

/-- NRG.H_PH (R258): the phase of the selection relative to the fundamental of its set's u_1. -/
def Half.hPh (m : Half) : Word :=
  if m.hPoints.isEmpty then 0
  else
    let i := m.rdF rNrgHSel 8 8
    let vs := if m.rdB rNrgHSel 31 then m.chanSet i else i / 4
    let u := diff (sget [] m.nrg.last (4 * vs)) (sget [] m.nrg.last (4 * vs + 3))
    w32 (degrees (wrapAngle (angleOf (harm m.hPoints (m.rdF rNrgHSel 0 6)) - angleOf (harm u 1))))

/-- The registers of the NRG page that read as the selected meter's (Table 10.8). -/
def Half.nrgRead (m : Half) (k : Nat) : Option Word :=
  let i := m.rdN rNrgMSel
  let x := m.meter i
  if k = rNrgStat then some m.nrgStat
  else if k = rNrgMCfg then some x.cfg
  else if k = rNrgMStat then some (m.mStat i)
  else if rNrgMAcc ≤ k ∧ k < rNrgMAcc + 48 then
    (let d := x.reg ((k - rNrgMAcc) / 8); some (if k % 8 = 0 then loWord d else hiWord d))
  else if k = rNrgMTail then some x.tail
  else if k = rNrgMDem then some x.dem
  else if k = rNrgMDemx then some x.demx
  else if k = rNrgMDempk then some x.peak
  else if rNrgMRes 0 ≤ k ∧ k ≤ rNrgMRes 3 then some (x.tot.getD ((k - rNrgMRes 0) / 4) 0)
  else if rNrgMIrec ≤ k ∧ k < rNrgMIrec + 32 then some (x.irec.getD ((k - rNrgMIrec) / 4) 0)
  else if k = rNrgHMag then some m.hMag
  else if k = rNrgHPh then some m.hPh
  else none

/-- R277: the NRG, NVS and NCI pages refuse retention and off while NRG.CTRL.RUN is 1 and a meter is enabled. -/
def Half.nrgRefuses (m : Half) : Bool := m.rdB rNrgCtrl 0 && !m.metersOn.isEmpty

end Sys2Proof.Machine
end

