-- ==== Sys2Proof/Machine/MzBase.lean ====
section
/-! DEFINITION. The Merzin switch and its ports (R360 to R381): links, keys, the ingress checks, forwarding, and the bypass
relays. -/
namespace Sys2Proof.Machine

/-- The port leaves DISABLED (Table 15.2, R532). -/
def Half.mzpEnabled (m : Half) (p : Nat) : Bool :=
  m.on (mzPage p) && m.on 0x0C0 && m.rdB (rMzpCtrl p) 0 && decide (m.addr ≠ 0) && decide (m.addr ≠ 0xFFFF)

/-- MZP.STAT.LINK (Table 15.1). -/
def Half.mzLink (m : Half) (p : Nat) : Nat := if m.mzpEnabled p then max 1 (m.mzp p).link else 0

/-- A port changes its link state, with its interrupt. -/
def Half.mzSetLink (m : Half) (p st : Nat) : Half := (m.updMzp p (fun x => { x with link := st })).irq (mzPage p) 0

/-- Any to DISABLED. -/
def Half.mzDisable (m : Half) (p : Nat) : Half := if (m.mzp p).link = 0 then m else m.mzSetLink p 0

/-- MZ_LINK_LOST (Table 15.2): causes 1 signal, 2 code errors, 3 no LINK frame, 4 relay. -/
def Half.mzLost (m : Half) (p cause : Nat) : Half :=
  let l := m.mzLink p
  if l < 2 then m
  else
    let m0 := if cause = 2 then m.mzpCount p 4 16 else m
    ((m0.mzpCount p 12 1).mzSetLink p 1).ev 0x1102 p l cause 0

/-- A closed relay joins the lines of a ring port past it. -/
def View.shut (y : View) (p : Nat) : Bool := y.relay && decide (p < 2)

/-- MZ_SIGNAL_DETECT (Table 15.2): MZP.DELAY starts at 310 ns (R364). -/
def Half.mzSignal (m : Half) (y : View) (p : Nat) : Half :=
  if m.mzLink p = 1 ∧ !y.shut p then
    ((m.updMzp p (fun x => { x with keyed := false, delays := [], fails := 0, echoTx := 0, echoAt := 0 })).mzSetLink p 2).wrN
      (rMzpDelay p) 310
  else m

/-- MZ_SYNC_TIMEOUT (Table 15.2). -/
def Half.mzSyncOut (m : Half) (p : Nat) : Half := if m.mzLink p = 2 then m.mzSetLink p 1 else m

/-- R362: the relays operate: RELAY_OPS and the event, and a closed relay takes the ring ports down. -/
def Half.relayMoves (m : Half) (closed : Bool) (cause : Nat) : Half :=
  let m1 := ((m.mzpCount 0 13 1).mzpCount 1 13 1).ev 0x1108 closed.toNat cause 0 0
  if closed then (m1.mzLost 0 4).mzLost 1 4 else m1

/-- R362: the Yoke closes both relays. -/
def State.relayClose (s : State) (cause : Nat) : State :=
  if s.yoke.relay then s
  else ({ s with yoke := { s.yoke with relay := true } }).onInput (fun h s => s.upd h (fun m => m.relayMoves true cause))

/-- R362: the Yoke opens both relays when a half is in charge or follower and the module is not Dormant. A module without an
address keeps them closed (R532). -/
def State.relayOpen (s : State) : State :=
  if s.yoke.relay && (s.speaks .a || s.speaks .b) && decide (s.yoke.pwr.state ≠ 3) && decide (s.a.addr ≠ 0)
      && decide (s.a.addr ≠ 0xFFFF) then
    ({ s with yoke := { s.yoke with relay := false } }).onInput (fun h s => s.upd h (fun m => m.relayMoves false 5))
  else s

/-- The receive counter of a slot: the last accepted one, plus one. -/
def MzpSt.rxCnt (x : MzpSt) (slot : Nat) : Nat := if slot = 0 then x.rxCnt0 else x.rxCnt1

/-- R369: the link counter that a start ordered set's 23 bits stand for: the nearest above the last accepted one. -/
def MzpSt.counter (x : MzpSt) (slot low : Nat) : Nat :=
  let n := x.rxCnt slot
  n + (low + 2 ^ 23 - n % 2 ^ 23) % 2 ^ 23

/-- R369, R370: the link tag of a frame verifies, as one that a sender's port has computed under the slot of the start ordered set and the
counter rebuilt from it. With AUTH at 0, tags are computed with an all-zero key. -/
def Half.mzTagOk (m : Half) (p sender port : Nat) (r : MzRx) : Bool :=
  let x := m.mzp p
  let slot := r.slot.val
  (!m.rdB (rMzpKeyCtrl p) 8 || (m.rdB (rMzpKeyCtrl p) (4 + slot) && (x.key slot).isSome))
    && decide (r.tag = mzLinkTag (m.mzKey p slot) sender port slot (x.counter slot r.counter) (mzLinkBytes r.frame r.hcheck r.grain))

/-- A tag has verified: the slot's last accepted counter. -/
def Half.mzTagGood (m : Half) (p slot low : Nat) : Half :=
  m.updMzp p (fun x =>
    let c := x.counter slot low + 1
    let k := x.keyed || m.rdB (rMzpKeyCtrl p) 8
    if slot = 0 then { x with rxCnt0 := c, fails := 0, keyed := k } else { x with rxCnt1 := c, fails := 0, keyed := k })

/-- A tag has failed (R371): RX_TAG, TAG_FAIL, event 0x1103 once per second, and UNKEYED after 16 in a row (Table 15.2). -/
def Half.mzTagBad (m : Half) (p slot src : Nat) : Half :=
  let m1 := (m.mzpCount p 6 1).irq (mzPage p) 2
  let x := m1.mzp p
  let l := lastSecond m1.up x.tagN ++ [m1.up]
  let m2 := if m1.passed x.tagAt oneSec then
      (m1.updMzp p (fun x => { x with tagAt := some m1.up, tagN := l })).ev 0x1103 p l.length slot src
    else m1.updMzp p (fun x => { x with tagN := l })
  let n := x.fails + 1
  if 16 ≤ n ∧ m2.mzLink p = 4 then (m2.updMzp p (fun x => { x with fails := 0 })).mzSetLink p 3
  else m2.updMzp p (fun x => { x with fails := n })

/-- R364: one result of the span delay; MZP.DELAY holds the largest of the last 16. -/
def Half.mzDelay (m : Half) (p tEcho turn : Nat) : Half :=
  if tEcho = 0 then m
  else
    let d := (m.up - tEcho - turn + 1) / 2
    let l := ((m.mzp p).delays ++ [d])
    let l := l.drop (l.length - 16)
    (m.updMzp p (fun x => { x with delays := l })).wrN (rMzpDelay p) (l.foldl max 0 % 2 ^ 16)

/-- A LINK frame whose check 7 (Table 15.7) has answered ok (R363, R364, R370). Below UP a LINK frame that does not verify still counts as
one received, since two ends of a link are keyed one after the other. Answers whether the port has entered UP. -/
def Half.mzLinkOk (m : Half) (p : Nat) (pay : List Byte) (ok : Bool) : Half × Bool :=
  let l := m.mzLink p
  let sender := leAt pay 0 2
  if l = 4 ∧ !ok then (m, false)
  else
    let old := (m.mzp p).neigh
    let m2 := if old ≠ 0 ∧ old ≠ sender then m.ev 0x1109 p old sender 0 else m
    let m3 := (m2.updMzp p (fun x => { x with neigh := sender, nport := leAt pay 2 1, echoTx := leAt pay 4 8, echoAt := m.up
                                              lastLink := m.up })).mzDelay p (leAt pay 12 8) (leAt pay 20 4)
    let m4 := if l = 2 then m3.mzSetLink p 3 else m3
    if m4.mzLink p = 3 ∧ ok ∧ m4.rdB (rMzpKeyCtrl p) 8 then
      ((m4.mzSetLink p 4).ev 0x1101 p sender (m4.rdF (rMzpDelay p) 0 16) 0, true)
    else (m4, false)

/-- MZ_LINK_RECEIVE: a LINK frame (Table 15.5) under checks 1, 5, 6 and 7 of Table 15.7; it is forwarded nowhere, so checks 2 to 4 do not
concern it. Answers whether the port has entered UP. -/
def Half.mzLinkRx (m : Half) (p : Nat) (r : MzRx) : Half × Bool :=
  let f := r.frame
  if m.mzLink p < 2 ∨ f.kind ≠ 1 ∨ f.payload.length ≠ 24 then (m, false)
  else
    let m0 := (m.mzpCount p 0 1).mzpCount p 1 52
    if r.hcheck ≠ mzHcheck f ∨ f.dest = 0 then (m0.mzpCount p 5 1, false)
    else if !r.ended then (m0.mzpCount p 8 1, false)
    else if r.grain ≠ mzGrain f then (m0.mzpCount p 7 1, false)
    else
      let ok := m.mzTagOk p (leAt f.payload 0 2) (leAt f.payload 2 1) r
      (if ok then m0.mzTagGood p r.slot.val r.counter else m0.mzTagBad p r.slot.val f.src).mzLinkOk p f.payload ok

/-- LINK_FRAME_SEND (R364, Table 15.5). -/
def Half.mzLinkSend (m : Half) (y : View) (p : Nat) : Half :=
  if m.mzLink p < 2 ∨ !m.mzMaySend y p ∨ y.shut p then m
  else
    let x := m.mzp p
    let seq := sget 0 m.mz.seqs 0 + 1
    let pay := leBytes 2 m.addr ++ [BitVec.ofNat 8 p, BitVec.ofNat 8 (halfNum m.self)] ++ leBytes 8 m.up ++ leBytes 8 x.echoTx
      ++ leBytes 4 (if x.echoTx = 0 then 0 else m.up - x.echoAt)
    let f : MzFrame := ⟨0xFFFF, m.addr, 0, seq, m.budgetFor 0xFFFF, 1, peerStamp, 0, pay⟩
    let m1 := { m with mz := { m.mz with seqs := sset 0 m.mz.seqs 0 seq } }
    m1.mzLeave y p f (mzGrain f) true

/-- R372: the hop cost of a port in 10 ns units. -/
def Half.hopCost (m : Half) (p : Nat) : Nat := (m.rdF (rMzpDelay p) 0 16 + m.rdF rMzFwdNs 0 16 + 9) / 10

/-- Table 15.6: the ports a frame that arrived on port p leaves on. -/
def Half.mzOuts (m : Half) (p : Nat) (f : MzFrame) : List Nat :=
  let all := decide (f.dest = 0xFFFF)
  if f.dest = m.addr then []
  else
    let up := if m.toUp f then [2] else []
    let down := if m.toDown f then [3] else []
    if p = 1 then [0] ++ up ++ down
    else if p = 0 then [1] ++ up ++ down
    else if p = 2 then (if all || m.inRing f.dest then [0, 1] else []) ++ down
    else if all || !m.inDown f.dest then [0, 1] ++ up
    else []

/-- R373, R374: the duplicate table's judgement of a frame: none to drop it, or the entry it leaves. -/
def dupJudge (e : MzDup) (s : Word) (resync : Bool) (now : Nat) : Option MzDup :=
  let d := seqDist 32 s.toNat e.high.toNat
  let below := (2 ^ 32 - d) % 2 ^ 32
  if seqNewer 32 s.toNat e.high.toNat then
    some ⟨s, if d ≤ 64 then (e.hist * 2 ^ d + 2 ^ (d - 1)) % 2 ^ 64 else 0, now⟩
  else if 1 ≤ below ∧ below ≤ 64 ∧ !e.hist.testBit (below - 1) then some ⟨e.high, e.hist ||| 2 ^ (below - 1), now⟩
  else if resync ∧ 64 < below then some ⟨s, 0, now⟩
  else none

/-- The flight of the first copy of a frame. -/
def Half.mzFirst (m : Half) (f : MzFrame) : Option MzFlight :=
  m.mz.flights.find? (fun x => !x.held && decide (x.frame.src = f.src) && decide (x.frame.stream = f.stream)
    && decide (x.frame.seq = f.seq))

/-- R374: an entry is not forgotten yet. -/
def Half.dupFresh (m : Half) (e : MzDup) : Bool := decide (m.up < e.since + m.rdF rMzForget 0 16 * oneMs)

/-- R373, R374: a frame is accepted provisionally, its copies under way; DROP_DUP where it is not. -/
def Half.mzAccept (m : Half) (p : Nat) (f : MzFrame) : Half :=
  let k := dupKey f.src f.stream
  let fly (m : Half) (old : Option MzDup) : Half :=
    { m with mz := { m.mz with flights := m.mz.flights ++ [⟨f, p, m.mzOuts p f, old, false, false⟩] } }
  let put (m : Half) (e : MzDup) : Half := { m with mz := { m.mz with dups := sput m.mz.dups k e } }
  match (sfind m.mz.dups k).filter (fun e => m.dupFresh e) with
  | some e =>
    (match dupJudge e f.seq (f.flags.testBit 1) m.up with
     | some e' => fly (put m e') (some e)
     | none => m.mzpCount p 11 1)
  | none =>
    if (sfind m.mz.dups k).isSome ∨ m.mz.dups.length < 4096 then fly (put m ⟨f.seq, 0, m.up⟩) none
    else
      let m1 := (m.countH (rMzCnt 0) 1 0x0C0 1 rMzHalf 0).irq 0x0C0 0
      let m2 := if m1.passed m1.mz.dupAt oneSec then
          ({ m1 with mz := { m1.mz with dupAt := some m1.up } }).ev 0x1106 f.src f.stream (m1.rdN (rMzCnt 0)) 0
        else m1
      fly m2 none

/-- R371, R372: a frame's budget is spent: DROP_BUDGET and event 0x1105 once per second. -/
def Half.mzSpent (m : Half) (p : Nat) (f : MzFrame) : Half :=
  let m1 := m.mzpCount p 10 1
  let x := m1.mzp p
  let l := lastSecond m1.up x.budN ++ [m1.up]
  if m1.passed x.budAt oneSec then
    (m1.updMzp p (fun x => { x with budAt := some m1.up, budN := l })).ev 0x1105 p l.length f.src f.dest
  else m1.updMzp p (fun x => { x with budN := l })

/-- MZ_HEADER_RECEIVED (R371 to R374): checks 1 to 4 of Table 15.7. -/
def Half.mzHeader (m : Half) (y : View) (p : Nat) (r : MzRx) : Half :=
  let f := r.frame
  let l := m.mzLink p
  if y.shut p || !(decide (l = 4) || (decide (l = 3) && decide (f.kind = 2))) || decide (f.kind = 1) then m
  else
    let m0 := (m.mzpCount p 0 1).mzpCount p 1 (28 + f.payload.length)
    if decide (r.hcheck ≠ mzHcheck f) || decide (f.dest = 0) then m0.mzpCount p 5 1
    else if f.budget ≤ m0.hopCost p then m0.mzSpent p f
    else
      let f1 := { f with budget := f.budget - m0.hopCost p }
      match m0.mzFirst f with
      | some _ => { m0 with mz := { m0.mz with flights := m0.mz.flights ++ [⟨f1, p, m0.mzOuts p f1, none, true, false⟩] } }
      | none => m0.mzAccept p f1

/-- R378: the correction field of a PTP event message takes the residence time. -/
def ptpCorrect (f : MzFrame) (ns : Nat) : MzFrame :=
  if f.kind = 0x40 ∧ leAt f.payload 0 1 % 16 < 4 ∧ 16 ≤ f.payload.length then
    let c := (beAt f.payload 8 8 + ns * 2 ^ 16) % 2 ^ 64
    { f with payload := f.payload.take 8 ++ beBytes 8 c ++ f.payload.drop 16 }
  else f

/-- The copies of a frame leave (R368, R372, R378). -/
def Half.mzForward (m : Half) (y : View) (f : MzFrame) (outs : List Nat) : Half :=
  if outs.isEmpty then m
  else
    let ns := Config.residence m.fresh
    let m1 := { m with fresh := m.fresh + 1, mz := { m.mz with fwdMax := max m.mz.fwdMax ns } }
    m1.mzEmitAll y (ptpCorrect f ns) outs

/-- R375: the forwarded copies are stomped; they carry the grain tag that came. -/
def Half.mzStomp (m : Half) (y : View) (f : MzFrame) (grain : Word) (check : Nat) : List Nat → Half
  | [] => m
  | p :: ps =>
    (if m.mzMaySend y p && m.mzCarries p f.kind then
       let m1 := ((m.mzLeave y p f grain false).mzpCount p 9 1).irq (mzPage p) 3
       m1.ev 0x1104 p check f.src (m1.rdN (rMzpCnt p 9))
     else m).mzStomp y f grain check ps

/-- The flight of a frame that arrived on port p. -/
def Half.mzFlight (m : Half) (p : Nat) (f : MzFrame) : Option MzFlight :=
  m.mz.flights.find? (fun x => decide (x.port = p) && decide (x.frame.src = f.src) && decide (x.frame.stream = f.stream)
    && decide (x.frame.seq = f.seq))

/-- A flight is over. -/
def Half.mzLand (m : Half) (x : MzFlight) : Half := { m with mz := { m.mz with flights := m.mz.flights.filter (fun z => decide (z ≠ x)) } }

/-- The held copies of a frame. -/
def Half.mzHeld (m : Half) (f : MzFrame) : List MzFlight :=
  m.mz.flights.filter (fun x => x.held && decide (x.frame.src = f.src) && decide (x.frame.stream = f.stream)
    && decide (x.frame.seq = f.seq))

/-- R373: a failed first copy withdraws its provisional entry. -/
def Half.mzWithdraw (m : Half) (x : MzFlight) : Half :=
  let k := dupKey x.frame.src x.frame.stream
  match sfind m.mz.dups k with
  | none => m
  | some e =>
    if e.high = x.frame.seq then
      (match x.old with
       | some o => { m with mz := { m.mz with dups := sput m.mz.dups k o } }
       | none => { m with mz := { m.mz with dups := sdel m.mz.dups k } })
    else
      let below := seqDist 32 e.high.toNat x.frame.seq.toNat
      if below ≤ 64 then
        { m with mz := { m.mz with dups := sput m.mz.dups k { e with hist := e.hist &&& (2 ^ 64 - 1 - 2 ^ (below - 1)) } } }
      else m

/-- Table 15.7, checks 5 to 7, of a frame at its tail: the first that fails, 0 for none. Check 6 computes the grain tag (R366). -/
def Half.mzTailCheck (m : Half) (p : Nat) (r : MzRx) : Nat :=
  if !r.ended then 5 else if r.grain ≠ mzGrain r.frame then 6 else if !m.mzTagOk p (m.mzp p).neigh (m.mzp p).nport r then 7 else 0

/-- R371, R373: a copy has failed at its tail. A held copy whose tail has passed takes its place; one still arriving becomes the
first copy. Answers the frame to deliver. -/
def Half.mzFailed (m : Half) (y : View) (x : MzFlight) (grain : Word) (check : Nat) : Half × Option (Nat × MzFrame) :=
  let m1 := m.mzLand x
  if x.held then (m1, none)
  else
    let m2 := (m1.mzWithdraw x).mzStomp y x.frame grain check x.outs
    match m2.mzHeld x.frame with
    | [] => (m2, none)
    | h :: _ =>
      let m3 := (m2.mzLand h).mzAccept h.port h.frame
      if h.good then
        (match m3.mzFirst h.frame with
         | some z => ((m3.mzLand z).mzForward y h.frame z.outs, some (h.port, h.frame))
         | none => (m3, none))
      else (m3, none)

/-- R371 to R375: MZ_FRAME_TAIL within the switch. Answers the frame that goes on to check 8, with its port. -/
def Half.mzTail (m : Half) (y : View) (p : Nat) (r : MzRx) : Half × Option (Nat × MzFrame) :=
  match m.mzFlight p r.frame with
  | none => (m, none)
  | some x =>
    match m.mzTailCheck p r with
    | 0 =>
      let m1 := m.mzTagGood p r.slot.val r.counter
      if x.held then
        (if (m1.mzFirst x.frame).isSome then
           ({ m1 with mz := { m1.mz with flights := m1.mz.flights.map (fun z => if z = x then { z with good := true } else z) } }, none)
         else ((m1.mzLand x).mzpCount p 11 1, none))
      else
        let rest := m1.mzHeld x.frame
        let m2 := rest.foldl (fun m h => if h.good then (m.mzLand h).mzpCount h.port 11 1 else m) (m1.mzLand x)
        (m2.mzForward y x.frame x.outs, some (p, x.frame))
    | c =>
      let m1 := if c = 5 then m.mzpCount p 8 1 else if c = 6 then m.mzpCount p 7 1 else m.mzTagBad p r.slot.val r.frame.src
      m1.mzFailed y x r.grain c

/-- R77: the stamp of a received frame is one that a module may carry. -/
def stampOk (st : Stamp) : Bool :=
  let c := stampClass st
  decide (c ≤ 6) && (decide (c = 2) == decide (stampTenant st ≠ 0))

/-- R77: a frame with an invalid stamp is dropped and counted, with event 0x0704 once per second. -/
def Half.stampDrop (m : Half) (p : Nat) (f : MzFrame) : Half :=
  let m1 := m.stick rFenceRefuseCnt 1
  let (x, due) := m1.dropNow (m1.rate 64)
  let m2 := m1.setRate 64 x
  if due then m2.ev 0x0704 p f.src f.stamp.toNat x.rlDrops.length else m2

/-- Check 8 of Table 15.7: the frame is for this module and its stamp is valid; a delivery is counted. -/
def Half.mzArrive (m : Half) (p : Nat) (f : MzFrame) : Half × Bool :=
  if !m.mzMine f then (m, false)
  else if !stampOk f.stamp then (m.stampDrop p f, false)
  else (m.countH (rMzCnt 1) 1 0x0C0 1 rMzHalf 1, true)

/-- DUP_ENTRY_FORGET (R374): an entry is forgotten after MZ.FORGET.MS without a frame. -/
def Half.dupForget (m : Half) (k : Nat) : Half :=
  match sfind m.mz.dups k with
  | none => m
  | some e => if m.dupFresh e then m else { m with mz := { m.mz with dups := sdel m.mz.dups k } }

/-- FWD_NS_UPDATE (R372): the longest forwarding latency of the second that ends, rounded up to 10 ns. -/
def Half.fwdNs (m : Half) : Half :=
  if m.mz.fwdMax = 0 then m
  else ({ m with mz := { m.mz with fwdMax := 0 } }).wrN rMzFwdNs ((m.mz.fwdMax + 9) / 10 * 10 % 2 ^ 16)

/-- MZ.WAKE_TX (R377): a WAKE frame with MZ.WAKE_CODE. -/
def Half.wakeTxEff (m : Half) (y : View) (v : Word) : Half × Nat :=
  if flag v 0 then
    (m.mzSend y (fld v 16 16) 0x02 0x02 peerStamp 0 (leBytes 4 (m.rdN rMzWakeCode) ++ [0, 0, 0, 0]), 0)
  else (m, 0)

/-- R370: a key slot is committed; its link counters start at 0. -/
def Half.mzKeyEff (m : Half) (n p slot : Nat) (v : Word) : Half × Nat :=
  let k := if slot = 0 then rMzpKey0 p else rMzpKey1 p
  if m.rdF (rMzpKeyCtrl p) 0 1 = slot then (m, 8)
  else
    let ws := v :: (List.range 7).map (fun i => (m.stagedWord n (k + 4 * (i + 1))).getD 0)
    (m.updMzp p (fun x =>
      if slot = 0 then { x with key0 := some ws, txCnt0 := 0, rxCnt0 := 0 } else { x with key1 := some ws, txCnt1 := 0, rxCnt1 := 0 }), 0)

/-- MZP.KEY_CTRL (R370, Table 15.13). -/
def Half.mzKeyCtrlEff (m : Half) (n p : Nat) (st : Stamp) (v : Word) : Half × Nat :=
  let k := rMzpKeyCtrl p
  let slot := fld v 0 1
  if fld v 4 2 = 0 then (m, 5)
  else if ((m.mzp p).key slot).isNone then (m, 8)
  else
    let m1 := m.plainWrite n k v
    let m2 := if slot ≠ m.rdF k 0 1 then m1.ev 0x1107 p slot (fld v 4 2) st.toNat else m1
    (if !flag v 8 && decide (m2.mzLink p = 4) then m2.mzSetLink p 3 else m2, 0)

/-- MZ.CLR (Table 15.11). -/
def Half.mzClrEff (m : Half) (v : Word) : Half × Nat :=
  if flag v 0 then (((List.range 3).foldl (fun m k => m.wrN (rMzCnt k) 0) m).wr rMzHalf 0, 0) else (m, 0)

/-- MZP.CLR (Table 15.12). -/
def Half.mzpClrEff (m : Half) (p : Nat) (v : Word) : Half × Nat :=
  if flag v 0 then (((List.range 14).foldl (fun m k => m.wrN (rMzpCnt p k) 0) m).wr (rMzpHalf p) 0, 0) else (m, 0)

/-- A write of an MZ page register by accessor n. -/
def Half.mzWrite (m : Half) (y : View) (n k : Nat) (v : Word) : Half × Nat :=
  if k = rMzWakeTx then m.wakeTxEff y v
  else if k = rMzClr then m.mzClrEff v
  else if k = rMzBudget ∧ (fld v 0 16 = 0 ∨ fld v 16 16 = 0) then (m, 5)
  else if k = rMzForget ∧ (fld v 0 16 < 100 ∨ 10000 < fld v 0 16) then (m, 5)
  else (m.plainWrite n k v, 0)

/-- A write of a Merzin port's register by accessor n. -/
def Half.mzpWrite (m : Half) (n p k : Nat) (st : Stamp) (v : Word) : Half × Nat :=
  if k = rMzpClr p then m.mzpClrEff p v
  else if k = rMzpKeyCtrl p then m.mzKeyCtrlEff n p st v
  else if k = rMzpKey0 p then m.mzKeyEff n p 0 v
  else if k = rMzpKey1 p then m.mzKeyEff n p 1 v
  else if k = rMzpCtrl p then ((if flag v 0 then m else m.mzDisable p).plainWrite n k v, 0)
  else (m.plainWrite n k v, 0)

/-- The live registers of the MZ page (Table 15.11). -/
def Half.mzRead (m : Half) (y : View) (k : Nat) : Option Word :=
  if k = rMzStat then
    some (word (m.mz.dups.length * 2 ^ 16 + y.relay.toNat * 2 ^ 9 + y.relay.toNat * 2 ^ 8
      + maskOf ((List.range 4).filter (fun p => decide (m.mzLink p = 4)))))
  else none

/-- The live registers of a Merzin port's page (Tables 15.12 and 15.13). -/
def Half.mzpRead (m : Half) (y : View) (p k : Nat) : Option Word :=
  let x := m.mzp p
  let cnt := if m.rdB (rMzpKeyCtrl p) 0 then x.txCnt1 else x.txCnt0
  if k = rMzpStat p then
    some (word (x.neigh * 2 ^ 16 + (decide (2 ≤ p) && !y.any).toNat * 2 ^ 7 + x.keyed.toNat * 2 ^ 6 + (y.shut p).toNat * 2 ^ 4
      + m.mzLink p))
  else if k = rMzpTxcnt p then some (word cnt)
  else if k = rMzpTxcnt p + 4 then some (word (cnt / 2 ^ 32))
  else none

end Sys2Proof.Machine
end

