-- ==== Sys2Proof/Machine/Granary.lean ====
section
/-! DEFINITION. The granary (ch. 18): page buffers and commits (R433, R434), stores (R437 to R441), bank states and recall (R442 to
R445), and the registers of the GRN page. -/
namespace Sys2Proof.Machine

/-- Changes the granary's state. -/
def Half.updG (m : Half) (f : GrnSt → GrnSt) : Half := { m with grn := f m.grn }

/-- The page an accessor's PAGE_SEL names. -/
def Half.selPage (m : Half) (n : Nat) : Nat := fld (m.view n rGrnPageSel) 0 8

/-- The accessor's byte pointer (R433). -/
def Half.selPtr (m : Half) (n : Nat) : Nat := fld (m.view n rGrnPageSel) 8 6

/-- Replaces the accessor's page buffer. -/
def Half.setBuf (m : Half) (n : Nat) (bs : List Byte) : Half :=
  (List.range 16).foldl (fun m i => m.setView n (rGrnBuf i) (word (leAt bs (4 * i) 4))) m

/-- R433: GRN.PAGE_SEL is written. -/
def Half.pageSelEff (m : Half) (n : Nat) (v : Word) : Half × Nat :=
  if fld v 0 8 < 32 then (m, 5)
  else
    let m1 := m.setView n rGrnPageSel (v &&& 0x3FFF)
    (if flag v 15 then m1.setBuf n (m1.gPage (fld v 0 8)) else m1, 0)

/-- R433: four bytes go to the pointer and the three places after it, modulo 64. -/
def Half.grnDataEff (m : Half) (n : Nat) (v : Word) : Half × Nat :=
  let p := m.selPtr n
  let bs := (List.range 4).foldl (fun l i => l.set ((p + i) % 64) (BitVec.ofNat 8 (fld v (8 * i) 8))) (m.gBuf n)
  ((m.setBuf n bs).setView n rGrnPageSel (putFld (m.view n rGrnPageSel) 8 6 ((p + 4) % 64)), 0)

/-- R434: a commit of an accessor's buffer is taken. -/
def Half.grnCommitOk (m : Half) (n : Nat) : Bool := m.gMay 0 (m.selPage n)

/-- R434: GRN.COMMIT is written. -/
def Half.grnCommitEff (m : Half) (n : Nat) (v : Word) : Half × Nat :=
  if !flag v 0 then (m, 0)
  else if m.grnCommitOk n then ((m.gPut (m.selPage n * 64) (m.gBuf n)).setView n rGrnCommitStat 0, 0)
  else (m.setView n rGrnCommitStat 5, 8)

/-- Table 18.14: a store's outcome as GRN.STORE_STAT gives it. -/
def storeResult (result kind dur : Nat) : Word := word (result * 2 ^ 24 + kind * 2 ^ 16 + min dur 0xFFFF)

/-- A store's outcome: for every accessor, and for the one that commanded it. -/
def Half.storeStat (m : Half) (who : Option Nat) (w : Word) : Half :=
  m.updG (fun g => { g with
    lastStat := w
    accStat := match who with | some n => sput g.accStat n w | none => g.accStat })

/-- A store is in progress (R439): accepted and waiting for its capture, or programming. -/
def Half.storing (m : Half) : Bool := m.grn.request.isSome || m.grn.busy.isSome

/-- R439: the capture of the last commanded or periodic store of this run lies less than 60 s back. -/
def Half.storeSoon (m : Half) : Bool :=
  match m.grn.lastCap with
  | some t => decide (m.up < t + 60 * oneSec)
  | none => false

/-- R439: a commanded store is refused, with event 0x0507. cause: 1 interval, 2 PFW, 3 busy. -/
def Half.storeRefuse (m : Half) (n : Nat) (st : Stamp) (cause : Nat) : Half × Nat :=
  let secs := match m.grn.lastCap with
    | some t => (m.up - t) / oneSec
    | none => 0xFFFFFFFF
  ((m.updG (fun g => { g with accStat := sput g.accStat n (storeResult 2 1 0) })).ev 0x0507 cause secs st.toNat 0, 8)

/-- R439, Table 18.14: GRN.STORE_CTRL is written. -/
def Half.storeCtrlEff (m : Half) (y : View) (n : Nat) (st : Stamp) (v : Word) : Half × Nat :=
  if 1440 < fld v 0 11 then (m, 5)
  else if flag v 31 && (y.pfw || y.fail) then m.storeRefuse n st 2
  else if flag v 31 && (m.storing || m.grn.frozen) then m.storeRefuse n st 3
  else if flag v 31 && m.storeSoon then m.storeRefuse n st 1
  else
    let m1 := m.plainWrite n rGrnStoreCtrl (v &&& 0x7FF)
    (if flag v 31 then m1.updG (fun g => { g with request := some (1, some n) }) else m1, 0)

/-- R439: a periodic store falls due PERIOD_MIN minutes after the last commanded or periodic capture, or after the start. -/
def Half.periodicStore (m : Half) (y : View) : Half :=
  let due := m.grn.lastCap.getD m.grn.startAt + m.rdF rGrnStoreCtrl 0 11 * 60 * oneSec
  if m.rdF rGrnStoreCtrl 0 11 = 0 ∨ m.up < due ∨ m.grn.frozen ∨ y.fail ∨ m.storing ∨ m.storeSoon then m
  else m.updG (fun g => { g with request := some (2, none) })

/-- Table 18.2: system state as a store finds it: module address, role, FOST.FOSTER, active Drill program and configuration version. -/
def Half.sysState (m : Half) (role : Nat) : Half :=
  if m.grn.frozen then m
  else
    m.gPut (28 * 64) (leBytes 2 m.addr ++ leBytes 2 role ++ leBytes 4 (m.rdF rFostFoster 0 16)
      ++ leBytes 4 m.drl.active.id.toNat ++ leBytes 4 (match sfind m.upd.slots m.upd.run with
        | some x => x.cfgVer.toNat
        | none => 0))

/-- A bank, by its number. -/
def GrnSt.bank (g : GrnSt) (b : Nat) : Bank := if b = 0 then g.bank0 else g.bank1

/-- Replaces a bank. -/
def GrnSt.setBank (g : GrnSt) (b : Nat) (x : Bank) : GrnSt := if b = 0 then { g with bank0 := x } else { g with bank1 := x }

/-- R438: the bank the next store writes. -/
def GrnSt.target (g : GrnSt) : Nat := if g.current = some 0 then 1 else 0

/-- Table 18.4: the CRC of a bank's trailer: CRC-32C over the 16,384 bytes and the trailer's bytes 0 to 11. -/
def Bank.crcNow (b : Bank) : Word :=
  word (crc32c ((List.range 16384).map (sget 0 b.image) ++ leBytes 4 b.seq.toNat ++ leBytes 4 b.count.toNat
    ++ [BitVec.ofNat 8 b.kind, 0, 0, 0]))

/-- R441: GRN.STORE_CNT counts a store whose programming begins; at 1,000,000 WEAR is set. -/
def Half.storeCount (m : Half) : Half :=
  let c := stickTo 0xFFFFFFFF m.grn.count.toNat 1
  let m1 := m.updG (fun g => { g with count := word c })
  if c = 1000000 then ((m1.updG (fun g => { g with wear := true })).irq 0x004 2).ev 0x0506 c 0 0 0 else m1

/-- R437: the store engine captures all 256 pages and begins to program its bank. At the capture of a power-fail store FROZEN is
set (R439). -/
def Half.storeCapture (m : Half) (y : View) : Half :=
  match m.grn.request with
  | none => m
  | some (kind, who) =>
    let m1 := (m.sysState (roleCode y.role)).storeCount
    let g := m1.grn
    let b := g.target
    let bank : Bank := ⟨2, g.array, if g.current.isSome then g.curSeq + 1 else 1, g.count, kind, none⟩
    { m1 with grn := { (g.setBank b bank) with
        request := none
        busy := some ⟨kind, b, g.array, m.up, who⟩
        frozen := g.frozen || decide (kind = 3)
        lastCap := if kind = 3 then g.lastCap else some m.up } }

/-- R437, R442: programming and verification end: the bank becomes VALID and CURRENT, or INVALID with event 0x0501. -/
def Half.storeEnd (m : Half) (ok : Bool) : Half :=
  match m.grn.busy with
  | none => m
  | some x =>
    let b := m.grn.bank x.bank
    let dur := (m.up - x.since) / 10000
    if ok then
      let m1 := m.updG (fun g => { (g.setBank x.bank { b with st := 1, crc := some b.crcNow }) with
        busy := none, current := some x.bank, curSeq := b.seq, lastDone := some m.up })
      (m1.storeStat x.who (storeResult 1 x.kind dur)).irq 0x004 0
    else
      let m1 := m.updG (fun g => { (g.setBank x.bank { b with st := 3, crc := none }) with busy := none })
      ((m1.storeStat x.who (storeResult 3 x.kind dur)).irq 0x004 1).ev 0x0501 x.kind x.bank 1 b.seq.toNat

/-- R440: at PFW a commanded or periodic store in progress is abandoned, and its bank becomes INVALID. -/
def Half.storeAbandon (m : Half) : Half :=
  let m1 := match m.grn.request with
    | some (kind, who) => if kind = 3 then m else (m.updG (fun g => { g with request := none })).storeStat who (storeResult 4 kind 0)
    | none => m
  match m1.grn.busy with
  | some x =>
    if x.kind = 3 then m1
    else
      let b := m1.grn.bank x.bank
      let m2 := m1.updG (fun g => { (g.setBank x.bank { b with st := 3, crc := none }) with busy := none })
      ((m2.storeStat x.who (storeResult 4 x.kind ((m.up - x.since) / 10000))).irq 0x004 1).ev 0x0501 x.kind x.bank 2 b.seq.toNat
  | none => m1

/-- R443: a bank as a recall judges it from its contents. -/
def Bank.judge (b : Bank) : Nat :=
  match b.crc with
  | some c => if c = b.crcNow then 1 else 3
  | none => if b.st = 0 then 0 else 3

/-- R443: the newer of two VALID banks. -/
def newerBank (a b : Bank) : Nat :=
  if a.seq = b.seq then (if a.count.toNat < b.count.toNat then 1 else 0) else if seqNewer 32 b.seq.toNat a.seq.toNat then 1 else 0

/-- R443: the array takes a bank's image, and the bank becomes CURRENT. -/
def Half.recallFrom (m : Half) (b recSt : Nat) : Half :=
  let x := m.grn.bank b
  m.updG (fun g => { g with
    array := x.image, current := some b, curSeq := x.seq, recSt := recSt, recKind := x.kind, count := x.count })

/-- GRANARY_RECALL (R443). -/
def Half.grnRecall (m : Half) : Half :=
  let j0 := m.grn.bank0.judge
  let j1 := m.grn.bank1.judge
  let m0 := m.updG (fun g => { g with
    bank0 := { g.bank0 with st := j0 }, bank1 := { g.bank1 with st := j1 }, array := [], current := none, curSeq := 0, recKind := 0,
    frozen := false, request := none, busy := none, lastCap := none, lastDone := none, lastStat := 0, accStat := [],
    startAt := m.up })
  let m1 :=
    if j0 = 1 ∧ j1 = 1 then
      let b := newerBank m.grn.bank0 m.grn.bank1
      let x := m.grn.bank b
      (m0.recallFrom b 1).ev 0x0502 b x.seq.toNat x.kind x.count.toNat
    else if j0 = 1 ∨ j1 = 1 then
      let b := if j0 = 1 then 0 else 1
      let x := m.grn.bank b
      if (if j0 = 1 then j1 else j0) = 3 then (m0.recallFrom b 2).ev 0x0503 b x.seq.toNat (1 - b) x.kind
      else (m0.recallFrom b 1).ev 0x0502 b x.seq.toNat x.kind x.count.toNat
    else if j0 = 0 ∧ j1 = 0 then m0.updG (fun g => { g with recSt := 0, count := 0 })
    else ((m0.updG (fun g => { g with recSt := 3, count := 0 })).ev 0x0504 j0 j1 0 0).irq 0x004 3
  m1.updG (fun g => { g with
    wear := decide (1000000 ≤ g.count.toNat), recMap := (List.range 256).foldl (fun a p => sset 0 a p (sget 0 g.array p)) [] })

/-- R445: the half counts as older than the other half. -/
def Half.olderThan (m o : Half) : Bool :=
  o.grn.current.isSome && (m.grn.current.isNone || seqNewer 32 o.grn.curSeq.toNat m.grn.curSeq.toNat)

/-- RECALL_SEQ_EXCHANGE (R445): the half copies the other half's array, with the SEQ of its CURRENT bank. -/
def Half.grnAdopt (m o : Half) : Half :=
  (m.updG (fun g => { g with
    array := o.grn.array, current := o.grn.current, curSeq := o.grn.curSeq, recKind := o.grn.recKind, recSt := 4
    recMap := (List.range 256).foldl (fun a p => sset 0 a p (sget 0 o.grn.array p)) [] })).ev 0x0508 (halfNum o.self)
      o.grn.curSeq.toNat 0 0

/-- R444: the configured allocation map takes pages 0 to 3; after a recall, user pages whose byte differs are cleared. -/
def Half.grnMap (m : Half) (map : Sparse Byte) : Half :=
  let bad := if m.grn.recSt = 0 ∨ m.grn.recSt = 3 then []
    else (List.range 224).map (· + 32) |>.filter (fun p => decide (sget 0 m.grn.recMap p ≠ sget 0 map p))
  let m1 := m.gPutPages (bad.map (fun p => (p, List.replicate 64 0)))
  let m2 := (m1.gPut 0 ((List.range 256).map (fun p => sget 0 map p))).updG (fun g => { g with cfgMap := map })
  match bad with
  | [] => m2
  | p :: _ => m2.ev 0x0505 p bad.length (sget 0 m.grn.recMap p).toNat (sget 0 map p).toNat

/-- The state of a bank as GRN.BANK_STAT gives it: a half whose recall was COPIED shows the CURRENT bank it took over (R445). -/
def GrnSt.bankSt (g : GrnSt) (b : Nat) : Nat := if g.current = some b then 1 else (g.bank b).st

/-- The SEQ of a bank as GRN.BANK_SEQ gives it: 0 if not VALID. -/
def GrnSt.bankSeq (g : GrnSt) (b : Nat) : Word :=
  if g.current = some b then g.curSeq else if (g.bank b).st = 1 then (g.bank b).seq else 0

/-- The registers of the GRN page that are not stored (Tables 18.13 and 18.14). -/
def Half.grnRead (m : Half) (n k : Nat) : Option Word :=
  let g := m.grn
  if k = rGrnStat then
    some (word (g.frozen.toNat * 2 ^ 31 + g.busy.isSome.toNat * 2 ^ 30 + g.wear.toNat * 2 ^ 29 + g.recSt * 2 ^ 24 + g.recKind * 2 ^ 16))
  else if k = rGrnStoreStat then some (sget g.lastStat g.accStat n)
  else if k = rGrnStoreCnt then some g.count
  else if k = rGrnBankStat then
    some (word (g.current.getD 0 * 2 ^ 9 + g.current.isSome.toNat * 2 ^ 8 + g.bankSt 1 * 2 ^ 4 + g.bankSt 0))
  else if k = rGrnBankSeq 0 then some (g.bankSeq 0)
  else if k = rGrnBankSeq 1 then some (g.bankSeq 1)
  else if k = rGrnAlloc then
    let p := m.rdF rGrnAllocSel 0 8
    some (word ((sget 0 g.recMap p).toNat * 256 + (sget 0 g.cfgMap p).toNat))
  else if k = rGrnFree then some (word ((List.range 224).filter (fun i => decide (m.gClass (32 + i) = 0))).length)
  else if k = rGrnLastAge then
    some (match g.lastDone with
      | some t => word (min ((m.up - t) / oneSec) 0xFFFFFFFF)
      | none => 0xFFFFFFFF)
  else none

/-- PAGE_SEL_WRITE (R433). -/
def execPageSelWrite (h : HalfId) (r : Req) (v : Word) (s : State) : Host.Outcome State Fault Refusal :=
  .next (s.regCmd h r rGrnPageSel v (fun m => m.pageSelEff (reqNum r) v))

/-- GRN_DATA_WRITE (R433). -/
def execGrnDataWrite (h : HalfId) (r : Req) (v : Word) (s : State) : Host.Outcome State Fault Refusal :=
  .next (s.regCmd h r rGrnData v (fun m => m.grnDataEff (reqNum r) v))

/-- GRN_COMMIT (R434). -/
def execGrnCommit (h : HalfId) (r : Req) (v : Word) (s : State) : Host.Outcome State Fault Refusal :=
  .next (s.regCmd h r rGrnCommit v (fun m => m.grnCommitEff (reqNum r) v))

/-- STORE_GO (R439). -/
def execStoreGo (h : HalfId) (r : Req) (v : Word) (s : State) : Host.Outcome State Fault Refusal :=
  .next (s.regCmdV h r rGrnStoreCtrl (putFlag v 31 true) (fun y m => m.storeCtrlEff y (reqNum r) (reqStamp r) (putFlag v 31 true)))

/-- PERIODIC_STORE (R439). -/
def execPeriodicStore (h : HalfId) (s : State) : Host.Outcome State Fault Refusal :=
  .next (s.local_ h (fun y m => m.periodicStore y))

/-- STORE_CAPTURE (R437). -/
def execStoreCapture (h : HalfId) (s : State) : Host.Outcome State Fault Refusal :=
  .next (s.local_ h (fun y m => m.storeCapture y))

end Sys2Proof.Machine
end

