-- ==== Sys2Proof/Machine/Recorder.lean ====
section
/-! DEFINITION. The event recorder (R504 to R514): storing, the granary tail and export, freezing, discarding, and its restart. -/
namespace Sys2Proof.Machine

/-- SOURCE[7:0] of Table 21.1: the page of the block that reports an event, from the event's range (Table 21.2) and its first
parameter, which names the instance in the ranges of blocks that have several. -/
def evPage (code p0 p1 : Nat) : Nat :=
  let r := code / 256
  if r = 0x01 then (if code = 0x0101 ∨ code = 0x0106 then 0x000 else 0x005)
  else if r = 0x02 then 0x001
  else if r = 0x03 then (if code = 0x0308 then 0x0D0 else 0x002)
  else if r = 0x04 then (if 0x0407 ≤ code ∧ code ≤ 0x0409 then 0x0C8 else 0x003)
  else if r = 0x05 then 0x004
  else if r = 0x06 then (if code = 0x060C then 0x008 else 0x007)
  else if r = 0x07 then (if code = 0x0703 ∨ code = 0x0706 then 0x012 else if code = 0x0704 ∨ code = 0x0705 then 0x011 else 0x010)
  else if r = 0x08 then 0x020
  else if r = 0x09 then 0x021
  else if r = 0x0A then 0x038
  else if r = 0x0B then 0x040
  else if r = 0x0C then
    (if (0x0C02 ≤ code ∧ code ≤ 0x0C05) ∨ code = 0x0C09 then 0x061 + p0
     else if code = 0x0C0C then (if p0 = 0 then 0x061 + p1 / 4 else 0x069 + p1 / 32) else 0x060)
  else if r = 0x0D then (if 0x0D07 ≤ code then 0x0E0 else if code = 0x0D05 then 0x050 + p0 else 0x050 + p0 / 16)
  else if r = 0x0E then 0x070 + p0
  else if r = 0x0F then (if code < 0x0F10 then 0x080 + p0 else 0x090 + p0)
  else if r = 0x10 then
    (if code = 0x1004 ∨ code = 0x1005 then 0x0A2 else if p0 = 1 then 0x0A0 else if p0 = 2 then 0x0A1 else if p0 = 3 then 0x0B8
     else if p0 < 0x10 then 0x0A8 + (p0 - 8) else 0x0B0 + (p0 - 0x10))
  else if r = 0x11 then (if code = 0x1106 ∨ code = 0x1108 then 0x0C0 else 0x0C1 + p0)
  else if r = 0x12 then 0x0F0
  else 0x006

/-- Table 21.1: the bytes of a record, its CODE with the EXPORTED mark or without. -/
def EvRec.bytes (x : EvRec) (exported : Bool) : List Byte :=
  leBytes 2 (x.code + exported.toNat * 0x8000) ++ leBytes 2 x.src ++ leBytes 4 x.seq.toNat ++ leBytes 8 x.time.toNat
    ++ leBytes 4 x.p0 ++ leBytes 4 x.p1 ++ leBytes 4 x.p2 ++ leBytes 4 x.p3

/-- A record as its 32 bytes hold it. -/
def evOf (l : List Byte) : EvRec :=
  ⟨leAt l 0 2 % 0x8000, leAt l 2 2, word (leAt l 4 4), BitVec.ofNat 64 (leAt l 8 8), leAt l 16 4, leAt l 20 4, leAt l 24 4, leAt l 28 4⟩

/-- Changes the recorder's private state. -/
def Half.updE (m : Half) (f : EvrSt → EvrSt) : Half := { m with evr := f m.evr }

/-- EVR.STAT.FROZEN (R513). -/
def Half.evFrozen (m : Half) : Bool := m.rdB rEvrStat 31

/-- R506: NEXT − OLDEST. -/
def Half.evSpan (m : Half) : Nat := seqDist 32 (m.rdN rEvrNext) (m.rdN rEvrOldest)

/-- R506: NEXT − OLDEST is 65,536. -/
def Half.evFull (m : Half) : Bool := decide (65536 ≤ m.evSpan)

/-- The byte of the volatile array at which tail slot s mod 16 begins (R509). -/
def tailOff (s : Nat) : Nat := (20 + s % 16 / 2) * 64 + 32 * (s % 2)

/-- R509: a tail slot written, unless the granary refuses commits. -/
def Half.tailPut (m : Half) (s : Nat) (bs : List Byte) : Half := if m.grn.frozen then m else m.gPut (tailOff s) bs

/-- The bytes of a tail slot. -/
def Half.tailSlot (m : Half) (i : Nat) : List Byte := (List.range 32).map (fun j => sget 0 m.grn.array (tailOff i + j))

/-- R506, R509, R522: a record is put into its slot and the tail, APPEND is set, and its address goes onto EVR.QUEUE. -/
def Half.evPut (m : Half) (x : EvRec) : Half :=
  let i := x.seq.toNat % 65536
  let m1 := (m.updE (fun e => { e with recs := sput e.recs i x })).tailPut x.seq.toNat (x.bytes false)
  let m2 := m1.irq 0x005 0
  if m2.rdB rEvrQueue 31 then (m2.push (m2.rdF rEvrQueue 0 8) (0x5E000000 + i * 32)).1 else m2

/-- Table 21.3: an event is stored, or counted. src is the half that SOURCE names. -/
def Half.evStore (m : Half) (e : Event) (src : HalfId) : Half :=
  if m.evFrozen then m.stick rEvrFrzCnt 1
  else if m.evFull then m.stick rEvrOvf 1
  else
    let s := m.rd rEvrNext
    let x : EvRec := ⟨e.code, halfNum src * 256 + evPage e.code e.p0 e.p1, s, e.time, e.p0, e.p1, e.p2, e.p3⟩
    let m1 := (m.evPut x).wr rEvrNext (s + 1)
    if m1.evFull then m1.irq 0x005 1 else m1

/-- R507: the half that SOURCE names for an event that a half stores itself. -/
def Half.evSrc (m : Half) (y : View) : HalfId := if y.role = .follower then other m.self else m.self

/-- An event stored at once, as part of the command that causes it (R508, R513, R514). -/
def Half.evNow (m : Half) (y : View) (code p0 p1 p2 p3 : Nat) : Half := m.evStore ⟨code, p0, p1, p2, p3, m.tai⟩ (m.evSrc y)

/-- R507: one half is in charge and the other follows, so the half in charge assigns every SEQ. -/
def State.paired (s : State) : Bool :=
  (decide (s.role .a = .inCharge) && decide (s.role .b = .follower)) || (decide (s.role .b = .inCharge) && decide (s.role .a = .follower))

/-- Two halves report one event alike (R507): they differ in the instant at most. -/
def sameEvent (a b : Event) : Bool :=
  decide (a.code = b.code) && decide (a.p0 = b.p0) && decide (a.p1 = b.p1) && decide (a.p2 = b.p2) && decide (a.p3 = b.p3)

/-- The event that a half reports first leaves its list. -/
def Half.evTake (m : Half) (e : Event) : Half × Bool :=
  match m.evr.arising.find? (sameEvent e) with
  | some x => (m.updE (fun r => { r with arising := r.arising.erase x }), true)
  | none => (m, false)

/-- EVENT_ARISE (R506, R507): the oldest event that has arisen in a half meets its fate. Before the recorder is restored events
wait (R510). -/
def State.eventArise (s : State) (h : HalfId) : State :=
  match (s.half h).evr.arising with
  | [] => s
  | e :: l =>
    if !(s.half h).evr.restored then s
    else
      let s1 := s.upd h (fun m => m.updE (fun r => { r with arising := l }))
      if s.paired then
        let o := other h
        let (mo, also) := (s1.half o).evTake e
        let src := if s.role h = .inCharge then h else if also then o else h
        ((s1.set o mo).upd o (fun m => m.evStore e src)).upd h (fun m => m.evStore e src)
      else s1.upd h (fun m => m.evStore e h)

/-- R512: the stored records at or after a sequence, in SEQ order. -/
def Half.evFrom (m : Half) (seq : Word) (n : Nat) : List EvRec :=
  let oldest := m.rd rEvrOldest
  let start := if seqOlder 32 seq.toNat oldest.toNat then oldest else seq
  let dist (x : EvRec) : Nat := seqDist 32 x.seq.toNat oldest.toNat
  let l := (m.evr.recs.map (·.2)).filter (fun x =>
    decide (dist x < m.evSpan) && decide (seqDist 32 start.toNat oldest.toNat ≤ dist x))
  let lo := l.filter (fun x => decide (oldest.toNat % 65536 ≤ x.seq.toNat % 65536))
  let hi := l.filter (fun x => decide (x.seq.toNat % 65536 < oldest.toNat % 65536))
  if m.evSpan ≤ seqDist 32 start.toNat oldest.toNat then [] else (lo ++ hi).take n

/-- R509: tail records with SEQ not newer than e are marked as exported. -/
def Half.evMark (m : Half) (e : Word) : Half :=
  (List.range 16).foldl (fun m i =>
    let x := evOf (m.tailSlot i)
    if x.code ≠ 0 ∧ !seqNewer 32 x.seq.toNat e.toNat then m.tailPut i (x.bytes true) else m) m

/-- R509: EVR.EXPORT is written. -/
def Half.exportEff (m : Half) (v : Word) : Half × Nat :=
  let last := m.rd rEvrNext - 1
  if seqOlder 32 v.toNat (m.rdN rEvrExport) || seqNewer 32 v.toNat last.toNat then (m, 8)
  else ((m.evMark v).wr rEvrExport v, 0)

/-- R513: FREEZE. -/
def Half.evFreeze (m : Half) : Half :=
  let m1 := if m.evFrozen then m else (m.wrB rEvrStat 31 true).wr rEvrFrzCnt 0
  m1.updE (fun e => { e with frozenAt := m.up })

/-- R513: the end of a freeze: by a command (how 1, with its writer's stamp) or by the timer (how 2). -/
def Half.evRelease (m : Half) (y : View) (how : Nat) (st : Stamp) : Half :=
  if m.evFrozen then
    (m.wrB rEvrStat 31 false).evNow y 0x0102 how (m.rdN rEvrFrzCnt) ((m.up - m.evr.frozenAt) / oneMs) st.toNat
  else m

/-- R514: the records from OLDEST through a sequence go. -/
def Half.evDrop (m : Half) (v : Word) : Half × Nat :=
  let o := m.rdN rEvrOldest
  let gone (e : Nat × EvRec) : Bool := decide (seqDist 32 e.2.seq.toNat o ≤ seqDist 32 v.toNat o)
  ((m.updE (fun e => { e with recs := e.recs.filter (fun e => !gone e) })).wr rEvrOldest (v + 1), (m.evr.recs.filter gone).length)

/-- R514: DISCARD, with the status of the command. -/
def Half.evDiscard (m : Half) (y : View) : Half × Nat :=
  let v := m.rd rEvrArg
  if m.evFrozen || seqOlder 32 v.toNat (m.rdN rEvrOldest) || seqNewer 32 v.toNat (m.rdN rEvrExport) then (m, 5)
  else
    let (m1, n) := m.evDrop v
    (if m.evFull then m1.evNow y 0x0105 (m1.rdN rEvrOvf) n 0 0 else m1, 0)

/-- R514: CLEAR, with the status of the command. -/
def Half.evClear (m : Half) (y : View) (st : Stamp) : Half × Nat :=
  if m.evFrozen then (m, 5)
  else
    let n := m.evr.recs.length
    let ovf := m.rdN rEvrOvf
    let m1 := ((m.updE (fun e => { e with recs := [] })).wr rEvrOldest (m.rd rEvrNext)).wr rEvrOvf 0
    (m1.evNow y 0x0103 n ovf st.toNat 0, 0)

/-- EVR.CMD (Table 21.6): CMD_STAT takes the command's status. -/
def Half.evrCmdEff (m : Half) (y : View) (n : Nat) (st : Stamp) (v : Word) : Half × Nat :=
  let fin (r : Half × Nat) : Half × Nat := (r.1.setView n rEvrCmdStat (word r.2), if r.2 = 0 then 0 else 8)
  if fld v 0 4 = 1 then fin (m.evFreeze, 0)
  else if fld v 0 4 = 2 then fin (m.evRelease y 1 st, 0)
  else if fld v 0 4 = 3 then fin (m.evDiscard y)
  else if fld v 0 4 = 4 then fin (m.evClear y st)
  else (m, 5)

/-- The rules of the other EVR registers (Table 21.6). -/
def Half.evrWrite (m : Half) (n k : Nat) (v : Word) : Half × Nat :=
  if k = rEvrCtrl then
    (if fld v 0 12 = 0 ∨ 3600 < fld v 0 12 then (m, 5) else (m.plainWrite n k v, 0))
  else if k = rEvrQueue then
    (let c := m.queueRule k v false; if c ≠ 0 then (m, c) else (m.plainWrite n k v, 0))
  else (m.plainWrite n k v, 0)

/-- The live registers of the EVR page (Table 21.7). -/
def Half.evrRead (m : Half) (k : Nat) : Option Word :=
  if k = rEvrStat then
    let tail := (List.range 16).filter (fun i => let c := leAt (m.tailSlot i) 0 2; decide (c ≠ 0) && decide (c < 0x8000))
    some (word (m.evFrozen.toNat * 2 ^ 31 + m.evFull.toNat * 2 ^ 30 + tail.length * 2 ^ 24 + m.evr.recs.length))
  else none

/-- The records of the tail, by slot. -/
def Half.tailRecs (m : Half) : List (EvRec × Bool) :=
  (List.range 16).filterMap (fun i =>
    let l := m.tailSlot i
    if leAt l 0 2 % 0x8000 = 0 then none else some (evOf l, decide (0x8000 ≤ leAt l 0 2)))

/-- The newest of the tail's sequences (R510). -/
def newestSeq : List (EvRec × Bool) → Option Word
  | [] => none
  | x :: l =>
    match newestSeq l with
    | none => some x.1.seq
    | some s => some (if seqNewer 32 x.1.seq.toNat s.toNat then x.1.seq else s)

/-- R510: NEXT and OLDEST from the tail, with the unexported records stored again, and EXPORT. Answers how many. -/
def Half.evRestoreTail (m : Half) : Half × Nat :=
  let l := m.tailRecs
  let next := match newestSeq l with
    | some s => s + 1
    | none => 1
  let keep := (List.range 16).filterMap (fun i =>
    (l.find? (fun x => !x.2 && decide (x.1.seq = next - word (16 - i)))).map (·.1))
  let oldest := match keep with
    | x :: _ => x.seq
    | [] => next
  let m1 := m.updE (fun e => { e with recs := [] })
  let m2 := ((m1.wr rEvrNext next).wr rEvrOldest oldest).wr rEvrExport (next - 1 - word keep.length)
  (keep.foldl (fun m x => m.evPut x) m2, keep.length)

/-- Each event stored in turn, with new sequences. -/
def Half.evStoreAll (m : Half) (src : HalfId) : List Event → Half
  | [] => m
  | e :: l => (m.evStore e src).evStoreAll src l

/-- RECORDER_RESTORE (R510): the tail, the Yoke's records (R511) with event 0x0104 where some were lost, event 0x0101, and the events
held since the start. -/
def Half.evRestore (m : Half) (yoke : List Event) (lost : Nat) : Half :=
  let (m1, n) := m.evRestoreTail
  let held := m1.evr.arising
  let m2 := m1.updE (fun e => { e with arising := [], restored := true })
  let more := if lost = 0 then [] else [(⟨0x0104, lost, 0, 0, 0, m.tai⟩ : Event)]
  let start : Event := ⟨0x0101, m.rdN rSysRestartCause, m.grn.recSt, n, yoke.length, m.tai⟩
  m2.evStoreAll m.self (yoke ++ more ++ [start] ++ held)

/-- EVENT_ARISE (R506). -/
def execEventArise (h : HalfId) (s : State) : Host.Outcome State Fault Refusal := .next (s.onHalf h (fun s => s.eventArise h))

/-- EXPORT_WRITE (R509). -/
def execExportWrite (h : HalfId) (r : Req) (v : Word) (s : State) : Host.Outcome State Fault Refusal :=
  .next (s.regCmd h r rEvrExport v (fun m => m.exportEff v))

/-- EVR_FREEZE (R513). -/
def execEvrFreeze (h : HalfId) (r : Req) (s : State) : Host.Outcome State Fault Refusal :=
  .next (s.regCmdV h r rEvrCmd 1 (fun y m => m.evrCmdEff y (reqNum r) (reqStamp r) 1))

/-- EVR_RELEASE (R513). -/
def execEvrRelease (h : HalfId) (r : Req) (s : State) : Host.Outcome State Fault Refusal :=
  .next (s.regCmdV h r rEvrCmd 2 (fun y m => m.evrCmdEff y (reqNum r) (reqStamp r) 2))

/-- FREEZE_TIMEOUT (R513): FREEZE_S seconds have passed. -/
def execFreezeTimeout (h : HalfId) (s : State) : Host.Outcome State Fault Refusal :=
  .next (s.local_ h (fun y m =>
    if m.evFrozen ∧ m.evr.frozenAt + m.rdF rEvrCtrl 0 12 * oneSec ≤ m.up then (m.evRelease y 2 0).irq 0x005 2 else m))

/-- DISCARD (R514). -/
def execDiscard (h : HalfId) (r : Req) (s : State) : Host.Outcome State Fault Refusal :=
  .next (s.regCmdV h r rEvrCmd 3 (fun y m => m.evrCmdEff y (reqNum r) (reqStamp r) 3))

/-- CLEAR (R514). -/
def execClear (h : HalfId) (r : Req) (s : State) : Host.Outcome State Fault Refusal :=
  .next (s.regCmdV h r rEvrCmd 4 (fun y m => m.evrCmdEff y (reqNum r) (reqStamp r) 4))

end Sys2Proof.Machine
end

