-- ==== Sys2Proof/Machine/Calendar.lean ====
section
/-! DEFINITION. The real-time clock's calendar and zone (R408, R409, R412), its TAI equivalent (R420), and the time base's steps
(R422). -/
namespace Sys2Proof.Machine

/-- The active coefficients C0 to C3 (R414). -/
def Rtc.coef (r : Rtc) : List Word := r.comp.getD ((List.range 4).map Config.compFactory)

/-- The Gregorian leap-year rule (R408). -/
def leapYear (y : Nat) : Bool := decide (y % 4 = 0) && (decide (y % 100 ≠ 0) || decide (y % 400 = 0))

/-- Days of a month. -/
def monthDays (y m : Nat) : Nat :=
  if m = 2 then (if leapYear y then 29 else 28) else if m = 4 ∨ m = 6 ∨ m = 9 ∨ m = 11 then 30 else 31

/-- Days from 1970-01-01 to the first day of a year from 2000 on. -/
def yearDay (y : Nat) : Nat := 10957 + 365 * (y - 2000) + ((y - 1) / 4 - 499) - ((y - 1) / 100 - 19) + ((y - 1) / 400 - 4)

/-- Days of the months before a month. -/
def monthStart (y m : Nat) : Nat := ((List.range (m - 1)).map (fun i => monthDays y (i + 1))).foldl (· + ·) 0

/-- Days from 1970-01-01 to a date. -/
def dateDay (y m d : Nat) : Nat := yearDay y + monthStart y m + (d - 1)

/-- ISO 8601 weekday of a date: 1 Monday to 7 Sunday (1970-01-01 was a Thursday). -/
def weekday (y m d : Nat) : Nat := (dateDay y m d + 3) % 7 + 1

/-- The RTC's local time in seconds from 1970-01-01 00:00:00. -/
def Rtc.localSec (r : Rtc) : Nat := ((dateDay r.year r.month r.day * 24 + r.hour) * 60 + r.min) * 60 + r.sec

/-- UTC of the RTC, in seconds (R408). -/
def Rtc.utc (r : Rtc) : Int := (r.localSec : Int) - r.offset * 60 - (if r.dst then 3600 else 0)

/-- TAI of the RTC, in seconds (R408). -/
def Rtc.tai (r : Rtc) : Int := r.utc + r.taiUtc

/-- The year of a day, searched from a year on. -/
def yearFrom : Nat → Nat → Nat → Nat
  | 0, y, _ => y
  | n + 1, y, day => if day < yearDay (y + 1) then y else yearFrom n (y + 1) day

/-- The month that holds a day of a year, searched from a month on. -/
def monthFrom : Nat → Nat → Nat → Nat → Nat
  | 0, _, m, _ => m
  | n + 1, y, m, day => if day < monthStart y (m + 1) then m else monthFrom n y (m + 1) day

/-- The RTC with its local time set from seconds; before 2000 and after 2199 it holds the nearest second (R409). -/
def Rtc.setLocal (r : Rtc) (t : Int) : Rtc :=
  let lo := 10957 * 86400
  let hi := yearDay 2200 * 86400 - 1
  let s := Nat.min (Nat.max t.toNat lo) hi
  let day := s / 86400
  let y := yearFrom 200 2000 day
  let d := day - yearDay y
  let m := monthFrom 12 y 1 d
  { r with year := y, month := m, day := d - monthStart y m + 1, hour := s / 3600 % 24, min := s / 60 % 60, sec := s % 60 }

/-- The RTC stands at its last second (R409). -/
def Rtc.atEnd (r : Rtc) : Bool := decide (yearDay 2200 * 86400 ≤ r.localSec + 1)

/-- The divider (R408): periods of 1/32,768 s since the second began. -/
def State.rtcSub (s : State) : Nat := min 32767 (((s.yoke.now : Int) - s.yoke.rtc.secAt).toNat * 32768 / oneSec)

/-- The TAI equivalent of the RTC in ns, with the divider count included (R420). -/
def State.rtcTai (s : State) : Nat := s.yoke.rtc.tai.toNat * oneSec + s.rtcSub * oneSec / 32768

/-- Changes the RTC. -/
def State.updRtc (s : State) (f : Rtc → Rtc) : State := s.updYk (fun k => { k with rtc := f k.rtc })

/-- R208, R165: a step of the time base, in ms, as a loop meets it. -/
def Half.stepLoop (m : Half) (old new n : Nat) : Half :=
  let x := m.loop n
  let last := gridLast (m.dw x.desc 1).toNat (m.dw x.desc 2).toNat new
  if x.st = 0 then m
  else if new < old then m.setLoop n { x with owed := none, seenMs := some new }
  else if old < last then m.setLoop n { x with owed := some last }
  else m

/-- R165, R208: a step of the time base moves every grid of releases and samples with it. -/
def Half.stepGrid (m : Half) (old new : Nat) : Half :=
  (m.tlr.loops.map (·.1)).foldl (fun m n => m.stepLoop old new n) (m.taskList.foldl (fun m t => m.stepTask old new t) m)

/-- TIME_STEP (R422): the time base of a half steps, with event 0x0407 (cause 1 SET, 2 PTP); the grids follow R165, and demand intervals
R268. leap is TAI−UTC. -/
def Half.stepTime (m : Half) (leap t : Nat) (cause : Nat) : Half :=
  let old := m.tai.toNat
  let m1 := { m with tai := BitVec.ofNat 64 t }.stepGrid (old / oneMs) (t / oneMs)
  let m2 := if old ≤ t then m1.timeForward leap else m1.timeBack leap
  let d : Dword := BitVec.ofInt 64 ((t : Int) - old)
  (m2.ev 0x0407 (loWord d).toNat (hiWord d).toNat cause 0).irq 0x0C8 1

/-- RTC.STAT (Table 17.8). -/
def Rtc.stat (r : Rtc) : Nat :=
  r.calEnd.toNat * 2 ^ 9 + (decide (r.pend ≠ 0)).toNat * 2 ^ 8 + r.apply_.isSome.toNat * 2 ^ 6 + r.user.toNat * 2 ^ 5
    + r.backup.toNat * 2 ^ 4 + r.swo.toNat * 2 ^ 3 + r.valid.toNat * 2 ^ 2 + r.vlow.toNat * 2 + r.osf.toNat

/-- RTC.T_SEC, T_HM, T_DATE and T_ZONE (R410, Table 17.8), by word. -/
def State.rtcT (s : State) (i : Nat) : Word :=
  let r := s.yoke.rtc
  if i = 0 then word (s.rtcSub * 2 ^ 16 + r.sec)
  else if i = 1 then word (r.hour * 2 ^ 8 + r.min)
  else if i = 2 then word (r.year * 2 ^ 20 + r.month * 2 ^ 16 + r.day * 2 ^ 8 + weekday r.year r.month r.day)
  else word (r.dst.toNat * 2 ^ 31 + r.taiUtc % 256 * 2 ^ 16 + (BitVec.ofInt 16 r.offset).toNat)

/-- The RTC's registers that are not stored as written (Table 17.7). -/
def State.rtcRead (s : State) (k : Nat) : Option Word :=
  let r := s.yoke.rtc
  if rRtcT ≤ k ∧ k < rRtcT + 16 then some (s.rtcT ((k - rRtcT) / 4))
  else if k = rRtcStat then some (word r.stat)
  else if k = rRtcTemp then some (word (BitVec.ofInt 16 r.temp).toNat)
  else if k = rRtcCompN then some (word (BitVec.ofInt 16 r.compN).toNat)
  else if rRtcCompC 0 ≤ k ∧ k ≤ rRtcCompC 3 then some (r.coef.getD ((k - rRtcCompC 0) / 4) 0)
  else if rRtcCompF 0 ≤ k ∧ k ≤ rRtcCompF 3 then some (Config.compFactory ((k - rRtcCompF 0) / 4))
  else if k = rRtcSwoTime then some (loWord r.swoTime)
  else if k = rRtcSwoTime + 4 then some (hiWord r.swoTime)
  else if k = rRtcSwoCnt then some (word r.swoCnt)
  else none

/-- The time source of a running half is LOCKED (Table 17.3). -/
def State.locked (s : State) : Bool :=
  (s.runs .a && decide (s.a.tim.source = 2)) || (s.runs .b && decide (s.b.tim.source = 2))

/-- A step of the time base of both halves (R422). -/
def State.stepAll (s : State) (t cause : Nat) : State := s.each (fun m => m.stepTime s.yoke.rtc.taiUtc t cause)

/-- A staged date and time (R411): the four staging words, where every check passes. -/
def rtcStaged (w : List Word) : Option Rtc :=
  let sec := fld (w.getD 0 0) 0 6
  let min := fld (w.getD 1 0) 0 6
  let hour := fld (w.getD 1 0) 8 5
  let year := fld (w.getD 2 0) 20 12
  let month := fld (w.getD 2 0) 16 4
  let day := fld (w.getD 2 0) 8 5
  let off : Int := (BitVec.ofNat 16 (fld (w.getD 3 0) 0 16)).toInt
  if 59 < sec ∨ 59 < min ∨ 23 < hour ∨ year < 2000 ∨ 2199 < year ∨ month < 1 ∨ 12 < month ∨ day < 1
      ∨ monthDays year month < day ∨ off % 15 ≠ 0 ∨ off < -720 ∨ 840 < off then none
  else some ⟨0, sec, min, hour, day, month, year, flag (w.getD 3 0) 31, fld (w.getD 3 0) 16 8, off, false, false, false, false, false,
    false, false, 0, 0, false, none, false, none, none, 0, 0, 0, 0, [], 0⟩

end Sys2Proof.Machine
end

