-- ==== Sys2Proof/Machine/EthBase.lean ====
section
/-! DEFINITION. The Ethernet MACs (R340 to R345, R349 to R355) and the PRP unit (R346 to R348): links, transmission, and the
ingress order up to classification. -/
namespace Sys2Proof.Machine

/-- The page of an Ethernet port (Table 2.2). -/
def ethPage : EthPort → Nat
  | .blda => 0xA0
  | .bldb => 0xA1
  | .ten n => 0xA8 + n.val
  | .fld n => 0xB0 + n.val
  | .svc => 0xB8

/-- A FLD page. -/
def isFld (p : Nat) : Bool := decide (0xB0 ≤ p) && decide (p ≤ 0xB7)
/-- A TEN page. -/
def isTen (p : Nat) : Bool := decide (0xA8 ≤ p) && decide (p ≤ 0xAF)
/-- A page of the building pair. -/
def isBld (p : Nat) : Bool := decide (p = 0xA0) || decide (p = 0xA1)

/-- A counter of Table 14.6 by its number. -/
def Half.macCount (m : Half) (p k n : Nat) : Half := m.countH (rMacCnt p k) n p 1 (rMacHalf p) k

/-- A counter of Table 14.9 by its number. -/
def Half.prpCount (m : Half) (k : Nat) : Half := m.countH (rPrpCnt k) 1 0xA2 1 rPrpHalf k

/-- MAC.CTRL.MODE. -/
def Half.macMode (m : Half) (p : Nat) : Nat := m.rdF (rMacCtrl p) 0 2

/-- The port is powered, enabled and not OFF: its link state is not DISABLED (Table 14.5). -/
def Half.macEnabled (m : Half) (p : Nat) : Bool := m.on p && decide (m.macMode p ≠ 0)

/-- MAC.STAT.LINK (Table 14.4): an enabled port leaves DISABLED for DOWN at once. -/
def Half.macLink (m : Half) (p : Nat) : Nat := if m.macEnabled p then max 1 (m.macOf p).link else 0

/-- A FLD port in T1S mode. -/
def Half.isT1s (m : Half) (p : Nat) : Bool := isFld p && !m.rdB (rMacCtrl p) 4

/-- The station address offset of a port (R341). -/
def addrOffset (p : Nat) : Nat := if isBld p then 0 else if isTen p then p - 0xA8 + 1 else if isFld p then p - 0xB0 + 9 else 17

/-- MAC.ADDR (R341, R352). -/
def Half.macAddr (m : Half) (p : Nat) : Nat := ((m.macOf p).addr.getD (Config.euiBase + addrOffset p)) % 2 ^ 48

/-- R78: the port is bound; ports other than TEN always are. -/
def Half.macBound (m : Half) (p : Nat) : Bool := !isTen p || m.rdB (rFenceTenBind (p - 0xA8)) 7

/-- The entry stamp of a port's frames (Table 3.1, R74, R75). -/
def Half.macStamp (m : Half) (p : Nat) : Stamp :=
  let i := macPort p
  if isBld p then mkStamp 1 0 i
  else if isTen p then mkStamp 2 (m.rdF (rFenceTenBind (p - 0xA8)) 0 6) i
  else if isFld p then mkStamp 4 0 i
  else mkStamp 3 0 i

/-- The points bound to a FLD port's filters. -/
def Half.fldPoints (m : Half) (p : Nat) : List Nat :=
  if isFld p then m.sourcePoints (fun d => decide (bKind d = 5) && decide (bByte d 8 = p - 0xB0)) else []

/-- A port leaves UP, or another state, for state new with a reason; COMM_LOST where it leaves UP (R353). -/
def Half.macLeave (m : Half) (y : View) (p new reason : Nat) : Half :=
  let up := decide (m.macLink p = 3)
  let m1 := (m.updMac p (fun x => { x with link := new, reason := reason, tries := 0 })).irq p 0
  if up then m1.pointFlags y 5 true (m1.fldPoints p) else m1

/-- UP to DOWN (Table 14.5). -/
def Half.macDown (m : Half) (y : View) (p reason : Nat) : Half :=
  let secs := (m.up - (m.macOf p).upAt) / oneSec
  (((m.macLeave y p 1 reason).macCount p 30 1)).ev 0x1002 (macPort p) reason secs 0

/-- Any to DISABLED (Table 14.5). -/
def Half.macDisable (m : Half) (y : View) (p : Nat) : Half := if (m.macOf p).link = 0 then m else m.macLeave y p 0 0

/-- LINK_ENERGY_DETECT (Table 14.5). -/
def Half.macEnergy (m : Half) (p : Nat) : Half :=
  if m.macLink p = 1 ∧ !m.isT1s p then (m.updMac p (fun x => { x with link := 2 })).irq p 0 else m

/-- The mode is one of Table 14.1 for the port. -/
def Half.macModeOk (m : Half) (p : Nat) (x : LinkMode) : Bool :=
  if isBld p then decide (x.speed = 2) && x.full
  else if isFld p then decide (x.speed = 0) && (x.full == !m.isT1s p)
  else decide (x.speed = 1)

/-- LINK_UP (Table 14.5). -/
def Half.macUp (m : Half) (p : Nat) (x : LinkMode) : Half :=
  let from_ := if m.isT1s p then 1 else 2
  if m.macLink p = from_ ∧ m.macModeOk p x then
    ((m.updMac p (fun c => { c with link := 3, upAt := m.up, everUp := true, fdx := x.full, speed := x.speed, reason := 0
                                    tries := 0 })).irq p 0).ev 0x1001 (macPort p) x.speed x.full.toNat 0
  else m

/-- TRAINING to DOWN (Table 14.5). -/
def Half.macNoLink (m : Half) (y : View) (p reason : Nat) : Half := if m.macLink p = 2 then m.macLeave y p 1 reason else m

/-- LINK_DOWN (Table 14.5). -/
def Half.macLost (m : Half) (y : View) (p reason : Nat) : Half :=
  if m.macLink p = 3 then m.macDown y p (if reason = 4 then 4 else 1) else m

/-- MAC.CMD (Tables 14.5 and 14.6): 1 TEST, 2 NORMAL, 3 RENEGOTIATE. -/
def Half.macCmdEff (m : Half) (y : View) (p : Nat) (v : Word) : Half × Nat :=
  let op := fld v 0 4
  let l := m.macLink p
  if op = 1 then
    (if l = 0 ∨ l = 4 then (m, 8) else ((m.macLeave y p 4 0).updMac p (fun x => { x with test := fld v 4 4 }), 0))
  else if op = 2 then (if l = 4 then (m.macLeave y p 1 0, 0) else (m, 8))
  else if op = 3 then
    (if l = 0 ∨ l = 4 then (m, 8) else if l = 3 ∧ !m.isT1s p then (m.macDown y p 0, 0) else (m, 0))
  else (m, 5)

/-- MAC.CTRL (R351, R352, Table 14.8). -/
def Half.macCtrlEff (m : Half) (y : View) (n p : Nat) (st : Stamp) (v : Word) : Half × Nat :=
  let k := rMacCtrl p
  let old := m.macMode p
  let new := fld v 0 2
  if new = 3 ∨ (new = 2 ∧ (!isFld p || flag v 4)) then (m, 5)
  else if isFld p && decide (old ≠ 0) && (flag v 4 != m.rdB k 4) then (m, 8)
  else
    let m1 := if new = 0 then m.macDisable y p else m
    let m2 := (m1.plainWrite n k (if isFld p then v else v &&& 3)).updMac p (fun x => { x with dup := false })
    (if new = old then m2 else m2.ev 0x1008 (macPort p) old new st.toNat, 0)

/-- MAC.CLR (R355). -/
def Half.macClrEff (m : Half) (p : Nat) (v : Word) : Half × Nat :=
  if flag v 0 then (((List.range 31).foldl (fun m k => m.wrN (rMacCnt p k) 0) m).wr (rMacHalf p) 0, 0) else (m, 0)

/-- PRP.CLR (Table 14.9). -/
def Half.prpClrEff (m : Half) (v : Word) : Half × Nat :=
  if flag v 0 then (((List.range 9).foldl (fun m k => m.wrN (rPrpCnt k) 0) m).wr rPrpHalf 0, 0) else (m, 0)

/-- An IP address of a client that is an IPv4 address, held as an IPv4-mapped IPv6 address. -/
def isIp4 (ip : BitVec 128) : Bool := decide (ip.toNat / 2 ^ 32 = 0xFFFF)

/-- The length of a frame from the destination address to the FCS, before padding. -/
def payLen : EthPay → Nat
  | .raw b => b.length + 4
  | .ipp d => 14 + (if isIp4 d.ip then 20 else 40) + 8 + 16 + d.payload.length + 4
  | .ptp b => b.length + 18
  | .supervision => 64

/-- The first byte of the destination address, where the payload holds it: bit 0 tells a group address. -/
def payDest : EthPay → Nat
  | .raw b => beAt b 0 6
  | .ipp _ => 0
  | .ptp _ => 0x011B19000000
  | .supervision => 0x01154E000100

/-- Unicast 0, multicast 1, broadcast 2. -/
def destKind (a : Nat) : Nat := if a = 2 ^ 48 - 1 then 2 else if (a / 2 ^ 40).testBit 0 then 1 else 0

/-- R499: buffers of a MAC's transmit queue enter it as frames, the oldest first. A descriptor of another type, or for a port
that the queue does not serve, completes with REFUSED. -/
def Half.macPull (m : Half) (p : Nat) : Nat → Half
  | 0 => m
  | n + 1 =>
    if m.rdB (rMacQueue p) 31 then
      let q := m.rdF (rMacQueue p) 8 8
      match m.pop q with
      | (_, none) => m
      | (m1, some a) =>
        let len := leNat (m1.peekN (a + 4) 4)
        let i := (m1.peek (a + 32)).toNat
        let served := if isBld p then decide (i = 1) || decide (i = 2) else decide (m1.txPage i = some p)
        if m1.peek a = 0x02 ∧ len ≤ 1984 ∧ served then
          (m1.ethQueue i (.raw (m1.peekN (a + 64) len)) none (some (q, a))).macPull p n
        else (m1.complete q a p 5).macPull p n
    else m

/-- The MAC takes what its transmit queue holds. -/
def Half.macTake (m : Half) (p : Nat) : Half := m.macPull p 1024

/-- The MAC that takes a work queue's buffers, if any. -/
def Half.macOfQueue (m : Half) (q : Nat) : Option Nat :=
  ([0xA0, 0xA1] ++ (List.range 16).map (· + 0xA8) ++ [0xB8]).find?
    (fun p => m.rdB (rMacQueue p) 31 && decide (m.rdF (rMacQueue p) 8 8 = q))

/-- The buffer of a frame is finished with. -/
def Half.macFinish (m : Half) (p : Nat) (f : EthFrame) (status : Nat) : Half :=
  match f.buf with
  | some (q, a) => m.complete q a p status
  | none => m

/-- The content of a frame as it leaves: that of its buffer now. -/
def Half.payNow (m : Half) (f : EthFrame) : EthPay :=
  match f.buf, f.pay with
  | some (_, a), .raw b => .raw (m.peekN (a + 64) b.length)
  | _, x => x

/-- R344: the frame's grain tag verifies. -/
def Half.tagHolds (m : Half) (f : EthFrame) : Bool := decide (payGrain (m.payNow f) = f.tag)

/-- The frame at the head leaves the queue. -/
def Half.macPop (m : Half) (p : Nat) : Half := m.updMac p (fun x => { x with txq := x.txq.drop 1, tries := 0 })

/-- The MAC may send (Table 1.4, R345, R349, R350, R352): UP, NORMAL, no duplicate address, and for other ports than the building
pair a valid lease. -/
def Half.macMaySend (m : Half) (y : View) (p : Nat) : Bool :=
  decide (m.macLink p = 3) && decide (m.macMode p = 1) && !(m.macOf p).dup
    && ((y.speaks && (isBld p || y.any)) || (decide (p = 0x0B8) && y.svc))

/-- R149: the first bit of a frame leaves: the sheaf action it carries is applied. -/
def Half.macFirstBit (m : Half) (f : EthFrame) : Half :=
  match f.sheaf with
  | some (i, a) => m.msgsApplied i [a]
  | none => m

/-- The redundancy control trailer (R346): the sequence, the LAN identifier, the LSDU size and the suffix 0x88FB, as IEC 62439-3 orders
them. size: bytes of the frame before the trailer. -/
def rctBytes (p seq size : Nat) : List Byte :=
  beBytes 2 seq ++ beBytes 2 ((if p = 0xA1 then 0xB else 0xA) * 2 ^ 12 + (size - 14 + 6) % 2 ^ 12) ++ beBytes 2 0x88FB

/-- R346: the trailer of a frame on the building pair: the next sequence, and this half's count. -/
def Half.macRct (m : Half) (p size : Nat) : Half × List Byte :=
  if isBld p && m.on 0xA2 then
    let n := (m.rdF rPrpSeq 0 16 + 1) % 2 ^ 16
    ((m.wrN rPrpSeq n).prpCount (if m.self = .a then 0 else 1), rctBytes p n size)
  else (m, [])

/-- ETH_FRAME_TRANSMIT (R344, R345). PTP messages carry no RCT (R425). -/
def Half.macTransmit (m0 : Half) (y : View) (p : Nat) : Half :=
  let m := m0.macTake p
  match (m.macOf p).txq with
  | [] => m
  | f :: _ =>
    if !m.macBound p then (m.macPop p).macFinish p f 5
    else if !m.macMaySend y p then m
    else
      let (m1, rct) := match f.pay with
        | .ptp _ => (m, [])
        | _ => m.macRct p (max 64 (payLen f.pay) - 4)
      let len := max 64 (payLen f.pay) + rct.length
      let m2 := (m1.macPop p).macFirstBit f
      let sends (m : Half) (good : Bool) : Half :=
        if isBld p || y.drives || y.svc then m.log (.eth (macPort p) (m2.payNow f) rct good) else m
      if m2.tagHolds f then
        let m3 := ((m2.macCount p 19 1).macCount p 20 len).macCount p (21 + destKind (payDest f.pay)) 1
        ((sends m3 true).macFinish p f 0).pump y
      else
        let m3 := (m2.macCount p 27 1).irq p 2
        ((sends (m3.ev 0x1003 (macPort p) len (m3.rdN (rMacCnt p 27)) 0) false).macFinish p f 5).pump y

/-- ETH_COLLISION (R350): back-off and retry, or the frame is dropped after 16 attempts. -/
def Half.macCollision (m : Half) (y : View) (p : Nat) (late : Bool) : Half :=
  match (m.macOf p).txq with
  | [] => m
  | f :: _ =>
    let plca := m.rdB (rMacPlca p) 31 && !(m.macOf p).fallback && isFld p
    if !m.macMaySend y p || (m.macOf p).fdx || plca then m
    else
      let n := (m.macOf p).tries + 1
      let m1 := (m.macCount p (if late then 25 else 24) 1).macFirstBit f
      if 16 ≤ n then (((m1.macCount p 26 1).macPop p).macFinish p f 5).pump y
      else (m1.updMac p (fun x => { x with tries := n })).pump y

/-- R345: the lease returns: a gated MAC discards the frames that have waited more than 10 ms. -/
def Half.macLeaseBack (m : Half) (p : Nat) : Half :=
  let old := (m.macOf p).txq.filter (fun f => decide (f.since + 10 * oneMs < m.up))
  if old.isEmpty then m
  else
    let m1 := m.updMac p (fun x => { x with txq := x.txq.filter (fun f => !decide (f.since + 10 * oneMs < m.up)) })
    (old.foldl (fun m f => m.macFinish p f 0x0A) (m1.macCount p 28 old.length)).ev 0x1006 (macPort p) old.length 0 0

/-- R345: the lease returns to the module. -/
def Half.ethLeaseBack (m : Half) : Half :=
  ((List.range 16).map (· + 0xA8) ++ [0xB8]).foldl (fun m p => m.macLeaseBack p) m

/-- PLCA_BEACON_LOST (R350). -/
def Half.plcaLost (m : Half) (p : Nat) : Half :=
  if m.macLink p = 3 ∧ m.isT1s p ∧ m.rdB (rMacPlca p) 31 ∧ m.rdF (rMacPlca p) 16 8 ≠ 0 then
    (m.updMac p (fun x => { x with fallback := true })).macCount p 29 1
  else m

/-- PLCA_BEACON_RETURN (R350). -/
def Half.plcaReturn (m : Half) (p : Nat) : Half := m.updMac p (fun x => { x with fallback := false })

/-- PLCA_BEACON_SEND (R350). -/
def Half.plcaSend (m : Half) (y : View) (p : Nat) : Half :=
  if m.macMaySend y p && m.isT1s p && m.rdB (rMacPlca p) 31 && decide (m.rdF (rMacPlca p) 16 8 = 0) && y.drives
  then m.log (.beacon (macPort p)) else m

/-- PRP_SUPERVISION (R346). -/
def Half.prpSupervise (m : Half) : Half :=
  if m.on 0xA2 && m.rdB rPrpCtrl 0 then m.ethQueue 1 .supervision none none else m

/-- PRP_LAN_TIMEOUT (R348): nothing has arrived on a LAN for LAN_TIMEOUT, while the other has received; lan tells LAN B. -/
def Half.prpTimeout (m : Half) (lan : Bool) : Half :=
  let x := m.prp
  let mine := if lan then x.heardB else x.heardA
  let theirs := if lan then x.heardA else x.heardB
  if !m.on 0xA2 || (if lan then x.faultB else x.faultA) || decide (theirs ≤ mine)
      || decide (m.up < mine + m.rdF rPrpCtrl 16 8 * oneSec) then m
  else
    let m1 := { m with prp := if lan then { x with faultB := true } else { x with faultA := true } }
    (m1.irq 0xA2 0).ev 0x1004 (if lan then 0xB else 0xA) 1 ((m.up - mine) / oneSec) 0

/-- R348: a frame has been received on a LAN: a fault of it clears. -/
def Half.prpHeard (m : Half) (lan : Bool) : Half :=
  let x := m.prp
  let mine := if lan then x.heardB else x.heardA
  let fault := if lan then x.faultB else x.faultA
  let m1 := { m with prp := if lan then { x with heardB := m.up, faultB := false } else { x with heardA := m.up, faultA := false } }
  if fault then m1.ev 0x1004 (if lan then 0xB else 0xA) 0 ((m.up - mine) / oneSec) 0 else m1

/-- R347: a sequence entry of an instant is not forgotten yet. -/
def Half.prpFresh (m : Half) (t : Nat) : Bool := decide (m.up < t + m.rdF rPrpForget 0 16 * oneMs)

/-- PRP_ENTRY_FORGET (R347): a sequence entry of a source, or the source entry, whose time has passed. -/
def Half.prpForget (m : Half) (src : Nat) (seq : Option Nat) : Half :=
  let nodes := match seq with
    | none => m.prp.nodes.filter (fun n => decide (n.src ≠ src) || decide (m.up < n.since + m.rdF rPrpForget 16 16 * oneSec))
    | some q => m.prp.nodes.map (fun n =>
        if n.src = src then { n with seqs := n.seqs.filter (fun e => decide (e.1 ≠ q) || m.prpFresh e.2.2) } else n)
  { m with prp := { m.prp with nodes := nodes } }

/-- The EtherType of a frame and where its payload starts; an IEEE 802.1Q tag is passed over (R340). -/
def etherType (b : List Byte) : Nat × Nat := if beAt b 12 2 = 0x8100 then (beAt b 16 2, 18) else (beAt b 12 2, 14)

/-- R346: the sequence and LAN identifier of the redundancy control trailer, where the frame carries one. -/
def rctOf (b : List Byte) : Option (Nat × Nat) :=
  let n := b.length
  let id := beAt b (n - 4) 2
  if 20 ≤ n ∧ beAt b (n - 2) 2 = 0x88FB ∧ id % 2 ^ 12 = n - (etherType b).2 then some (beAt b (n - 6) 2, id / 2 ^ 12) else none

/-- R347: duplicate discard. Answers whether the frame is accepted. -/
def Half.prpAccept (m : Half) (p : Nat) (b : List Byte) : Half × Bool :=
  let lanB := decide (p = 0xA1)
  let src := beAt b 6 6
  match rctOf b with
  | none => (m, true)
  | some (seq, id) =>
    if id ≠ (if lanB then 0xB else 0xA) then (m.prpCount (if lanB then 7 else 6), true)
    else
      match m.prp.nodes.find? (fun n => decide (n.src = src)) with
      | some n =>
        if n.seqs.any (fun e => decide (e.1 = seq) && m.prpFresh e.2.2) then (m.prpCount (if lanB then 5 else 4), false)
        else
          let nodes := m.prp.nodes.map (fun n =>
            if n.src = src then { n with seqs := n.seqs.filter (fun e => decide (e.1 ≠ seq)) ++ [(seq, macPort p, m.up)], since := m.up } else n)
          (({ m with prp := { m.prp with nodes := nodes } }).prpCount (if lanB then 3 else 2), true)
      | none =>
        if 1024 ≤ m.prp.nodes.length then
          let m1 := m.prpCount 8
          (if m1.passed m1.prp.fullAt oneSec then
             ({ m1 with prp := { m1.prp with fullAt := some m1.up } }).ev 0x1005 (src % 2 ^ 32) (m1.rdN (rPrpCnt 8)) 0 0
           else m1, true)
        else
          let e : PrpNode := ⟨src, [(seq, macPort p, m.up)], m.up⟩
          (({ m with prp := { m.prp with nodes := m.prp.nodes ++ [e] } }).prpCount (if lanB then 3 else 2), true)

/-- A good frame's counters (Table 14.6): frames, bytes, destination kind and length. -/
def Half.macGood (m : Half) (p len dest : Nat) : Half :=
  let k := if len ≤ 64 then 5 else if len < 128 then 6 else if len < 256 then 7 else if len < 512 then 8 else if len < 1024 then 9 else 10
  (((m.macCount p 0 1).macCount p 1 len).macCount p (2 + destKind dest) 1).macCount p k 1

/-- R352: a frame from the port's own address that it did not send. -/
def Half.macDup (m : Half) (p : Nat) (b : List Byte) : Half :=
  if beAt b 6 6 = m.macAddr p ∧ !(m.macOf p).dup then
    ((m.updMac p (fun x => { x with dup := true })).irq p 3).ev 0x1007 (macPort p) 0 0 0
  else m

/-- Table 14.2, steps 1 to 4, with what R340, R348 and R352 ask of a good frame. Answers whether the frame goes on to
classification. -/
def Half.macIngress (m : Half) (p : Nat) (f : EthRx) : Half × Bool :=
  let len := f.bytes.length + 4
  if m.macLink p ≠ 3 then (m, false)
  else if f.symbol then (m.macCount p 15 1, false)
  else if len < 64 then (m.macCount p 13 1, false)
  else if (if isBld p then 1528 else 1522) < len then (m.macCount p 14 1, false)
  else if !f.fcsOk then (m.macCount p (if f.aligned then 11 else 12) 1, false)
  else
    let m1 := (m.macGood p len (beAt f.bytes 0 6)).macDup p f.bytes
    let m2 := if isBld p && m1.on 0xA2 then m1.prpHeard (decide (p = 0xA1)) else m1
    if !m2.macBound p then ((m2.macCount p 17 1).portRefused (macPort p), false)
    else if isBld p && m2.on 0xA2 then m2.prpAccept p f.bytes
    else (m2, true)

/-- The UDP datagram of a frame: its IP version, source and destination address, ports and payload. Fragments and other
protocols hold none. -/
structure Udp where
  v6   : Bool
  src  : BitVec 128
  dst  : Nat
  sport : Nat
  dport : Nat
  data : List Byte

/-- A UDP header and its payload. -/
def udpAt (v6 : Bool) (src : BitVec 128) (dst : Nat) (b : List Byte) : Option Udp :=
  let len := beAt b 4 2
  if 8 ≤ len ∧ len ≤ b.length then some ⟨v6, src, dst, beAt b 0 2, beAt b 2 2, (b.take len).drop 8⟩ else none

/-- The UDP datagram that a frame carries over IPv4 or IPv6. -/
def udpOf (b : List Byte) : Option Udp :=
  let (t, o) := etherType b
  let d := b.drop o
  if t = 0x0800 then
    let ihl := beAt d 0 1 % 16 * 4
    if beAt d 0 1 / 16 = 4 ∧ 20 ≤ ihl ∧ beAt d 9 1 = 17 ∧ beAt d 6 2 % 2 ^ 14 = 0 then
      udpAt false (BitVec.ofNat 128 (0xFFFF * 2 ^ 32 + beAt d 12 4)) (beAt d 16 4) ((d.take (beAt d 2 2)).drop ihl)
    else none
  else if t = 0x86DD then
    (if beAt d 0 1 / 16 = 6 ∧ beAt d 6 1 = 17 then
       udpAt true (BitVec.ofNat 128 (beAt d 8 16)) (beAt d 24 16) ((d.drop 40).take (beAt d 4 2))
     else none)
  else none

/-- MAC.IP6 as a number. -/
def Half.macIp6 (m : Half) (p : Nat) : Nat :=
  (m.rdN (rMacIp6 p)) + (m.rdN (rMacIp6 p + 4)) * 2 ^ 32 + (m.rdN (rMacIp6 p + 8)) * 2 ^ 64 + (m.rdN (rMacIp6 p + 12)) * 2 ^ 96

/-- R343: the datagram is addressed to the port. -/
def Half.macOwns (m : Half) (p : Nat) (u : Udp) : Bool :=
  if u.v6 then decide (u.dst ≠ 0) && decide (u.dst = m.macIp6 p) else decide (u.dst ≠ 0) && decide (u.dst = m.rdN (rMacIp4 p))

/-- R353: filter f of a FLD port matches a frame. -/
def Half.fltMatch (m : Half) (p f : Nat) (b : List Byte) : Bool :=
  let w0 := m.rd (rMacFlt p (2 * f))
  let w1 := m.rdN (rMacFlt p (2 * f + 1))
  flag w0 31 && (decide (w1 = 0) || decide (w1 = beAt b 8 4))
    && (if flag w0 29 then (match udpOf b with | some u => decide (u.dport = fld w0 0 16) | none => false)
        else decide ((etherType b).1 = fld w0 0 16))

/-- R353: the source bindings of a matching filter take their fields from the frame's payload. -/
def Half.fltPresent (m : Half) (y : View) (p f : Nat) (b : List Byte) : Half :=
  let pay := b.drop (etherType b).2
  (m.sources (fun d => decide (bKind d = 5) && decide (bByte d 8 = p - 0xB0) && decide (bByte d 9 = f))).foldl
    (fun m s => m.present y s (leNat ((pay.drop (bHalf (m.srcDesc s) 10)).take 40)) m.tai) m

/-- R343: the frame goes to the receive queue as ETH_RX. -/
def Half.macDeliver (m : Half) (p flt : Nat) (b : List Byte) : Half :=
  if m.rdB (rMacQueue p) 31 then
    match m.post (m.rdF (rMacQueue p) 0 8) 0x01 p m.tai (m.macStamp p) [BitVec.ofNat 8 (macPort p), BitVec.ofNat 8 flt] b with
    | (m1, true) => m1.irq p 4
    | (m1, false) => m1.macCount p 16 1
  else m.macCount p 17 1

/-- R343: field filters, and everything else. -/
def Half.macFilter (m : Half) (y : View) (p : Nat) (b : List Byte) : Half :=
  let fs := if isFld p then (List.range 64).filter (fun f => m.fltMatch p f b) else []
  match fs with
  | [] => m.macDeliver p 0xFF b
  | f :: _ =>
    let m1 := fs.foldl (fun m f => m.fltPresent y p f b) m
    if fs.any (fun f => m1.rdB (rMacFlt p (2 * f)) 30) then m1.macDeliver p f b else m1

/-- R340: a PAUSE frame. -/
def isPause (b : List Byte) : Bool := decide ((etherType b).1 = 0x8808) && decide (beAt b (etherType b).2 2 = 1)

/-- Table 14.6: the rules of the plain registers of a MAC page. -/
def Half.macRule (m : Half) (p k : Nat) (v : Word) : Nat :=
  if k = rMacQueue p then m.queueRule k v true
  else if k = rMacPlca p then (if fld v 16 8 = 255 ∨ fld v 8 8 = 0 then 5 else 0)
  else 0

/-- A write of a MAC page register by accessor n with a stamp. Registers that only FLD pages have are read-only elsewhere. -/
def Half.macWrite (m : Half) (y : View) (n p k : Nat) (st : Stamp) (v : Word) : Half × Nat :=
  if k = rMacCtrl p then m.macCtrlEff y n p st v
  else if k = rMacCmd p then m.macCmdEff y p v
  else if k = rMacClr p then m.macClrEff p v
  else if k = rMacAddr p then
    (if isFld p then
       let hi := (m.stagedWord n (k + 4)).getD (word (m.macAddr p / 2 ^ 32))
       ((m.updMac p (fun x => { x with addr := some (v.toNat + fld hi 0 16 * 2 ^ 32) })).gen p, 0)
     else (m, 0))
  else if !isFld p && (decide (k = rMacPlca p) || decide (k = rMacT1l p) || decide (rMacFlt p 0 ≤ k)) then (m, 0)
  else
    let code := m.macRule p k v
    if code ≠ 0 then (m, code)
    else
      let m1 := m.plainWrite n k v
      (if k = rMacQueue p then m1.macTake p else m1, 0)

/-- A write of a PRP page register by accessor n. -/
def Half.prpWrite (m : Half) (n k : Nat) (v : Word) : Half × Nat :=
  if k = rPrpClr then m.prpClrEff v
  else if k = rPrpCtrl ∧ (fld v 16 8 = 0 ∨ fld v 8 8 = 0) then (m, 5)
  else if k = rPrpForget ∧ (fld v 16 16 = 0 ∨ 3600 < fld v 16 16 ∨ fld v 0 16 < 10 ∨ 10000 < fld v 0 16) then (m, 5)
  else (m.plainWrite n k v, 0)

/-- The live registers of the MAC and PRP pages (Tables 14.6, 14.8 and 14.9). -/
def Half.macRead (m : Half) (y : View) (p k : Nat) : Option Word :=
  let x := m.macOf p
  if k = rPrpStat then
    some (word (min m.prp.nodes.length 1024 * 2 ^ 16 + m.prp.faultB.toNat * 2 + m.prp.faultA.toNat))
  else if k = rMacStat p then
    some (word (x.reason * 2 ^ 12 + x.fdx.toNat * 2 ^ 10 + x.speed * 2 ^ 8 + x.dup.toNat * 2 ^ 6
      + (!isBld p && !y.any).toNat * 2 ^ 5 + x.everUp.toNat * 2 ^ 4 + m.macLink p))
  else if !isFld p && (decide (k = rMacPlca p) || decide (k = rMacT1l p) || (decide (rMacFlt p 0 ≤ k) && decide (k < rMacFlt p 128))) then some 0
  else if k = rMacAddr p then some (word (m.macAddr p))
  else if k = rMacAddr p + 4 then some (word (m.macAddr p / 2 ^ 32))
  else none

end Sys2Proof.Machine
end

