-- ==== Sys2Proof/Machine/PtpBase.lean ====
section
/-! DEFINITION. The PTP boundary clock (R421 to R425, R429): port states, the best master clock algorithm of IEEE 1588-2019, the time
source, offsets, and messages. -/
namespace Sys2Proof.Machine

/-- A PTP port at reset: not enabled. -/
def ptpReset : PtpPort := ⟨0, none, 0, none, 0, 0, 0, false, 0, 0, 0, 0, 0⟩

/-- A PTP port, 1 to 3. -/
def Half.ptpPort (m : Half) (p : Nat) : PtpPort := sget ptpReset m.tim.ports p

/-- Changes the time base. -/
def Half.updTim (m : Half) (f : TimSt → TimSt) : Half := { m with tim := f m.tim }

/-- Changes a PTP port. -/
def Half.updPtp (m : Half) (p : Nat) (f : PtpPort → PtpPort) : Half :=
  m.updTim (fun t => { t with ports := sset ptpReset t.ports p (f (m.ptpPort p)) })

/-- The port that follows a master: in SLAVE or UNCALIBRATED; 0 for none. -/
def Half.slavePort (m : Half) : Nat := (([1, 2, 3].find? (fun p => decide (8 ≤ (m.ptpPort p).st))).getD 0)

/-- R421: the time source takes a state, with event 0x0408 and PG_IRQ_RAW bit 0. -/
def Half.setSource (m : Half) (new : Nat) : Half :=
  let old := m.tim.source
  if old = new then m
  else ((m.updTim (fun t => { t with source := new, good := 0, holdAt := if new = 3 then m.up else t.holdAt })).ev 0x0408 old new m.slavePort 0).irq 0x0C8 0

/-- Event 0x0409: a port takes a state. The receipt timeout of an Announce runs from LISTENING, that of a Sync from UNCALIBRATED. -/
def Half.setPtpSt (m : Half) (p new : Nat) : Half :=
  let old := (m.ptpPort p).st
  if old = new then m
  else ((m.updPtp p (fun x => { x with
    st := new, annAt := if new = 4 then m.up else x.annAt, syncAt := if new = 8 then m.up else x.syncAt })).ev 0x0409 p old new 0).irq 0x0C8 2

/-- A port stands in a state. -/
def Half.ptpAny (m : Half) (st : Nat) : Bool := [1, 2, 3].any (fun p => decide ((m.ptpPort p).st = st))

/-- Table 17.4: the transitions that port states cause. entered: a port has entered UNCALIBRATED. -/
def Half.sourceFollow (m : Half) (entered : Bool) : Half :=
  let m1 := if m.tim.source = 2 ∧ !m.ptpAny 9 then m.setSource 3 else m
  let m2 := if entered ∧ (m1.tim.source = 0 ∨ m1.tim.source = 3) then m1.setSource 1 else m1
  if m2.tim.source = 1 ∧ !m2.ptpAny 8 ∧ !m2.ptpAny 9 then m2.setSource 0 else m2

/-- The module's own data set as the algorithm compares it (PTP.PRIO). -/
def Half.ownAnn (m : Half) (utcOff : Int) (utcOk : Bool) : PtpAnn :=
  ⟨m.rdF rPtpPrio 8 8, m.rdF rPtpPrio 16 8, Config.clockQuality.1, Config.clockQuality.2, m.rdF rPtpPrio 0 8, Config.clockIdentity, 0,
    Config.clockIdentity, 0, utcOff, utcOk, false, false⟩

/-- What the algorithm compares of an Announce that a port received, in its order. -/
def annKey (a : PtpAnn) (port : Nat) : List Nat :=
  [a.prio1, a.cls, a.acc, a.var, a.prio2, a.gm, a.steps, a.src, a.srcPort, port]

/-- The first list of numbers is the smaller: the better data set. -/
def lexLt : List Nat → List Nat → Bool
  | [], [] => false
  | [], _ :: _ => true
  | _ :: _, [] => false
  | x :: xs, y :: ys => if x < y then true else if y < x then false else lexLt xs ys

/-- The best Announce of all ports, with its port. -/
def Half.bestAnn (m : Half) : Option (Nat × PtpAnn) :=
  [1, 2, 3].foldl (fun o p =>
    match (m.ptpPort p).best, o with
    | some a, some (q, b) => if lexLt (annKey a p) (annKey b q) then some (p, a) else some (q, b)
    | some a, none => some (p, a)
    | none, o => o) none

/-- A port's best is worse than the best of all ports by topology alone: the same grandmaster, reached by a longer or equal way. -/
def byTopology (e r : PtpAnn) : Bool :=
  decide (e.gm = r.gm) && (decide (r.steps ≤ e.steps) || (decide (r.steps = e.steps + 1) && decide (r.src < Config.clockIdentity)))

/-- The state the algorithm recommends for an enabled port: 4 LISTENING, 5 PRE_MASTER, 6 MASTER, 7 PASSIVE, 8 SLAVE. timed: a port whose
announce receipt timeout has run out; it waits no longer. -/
def Half.ptpDecide (m : Half) (timed p : Nat) : Nat :=
  let d0 := m.ownAnn 0 false
  let x := m.ptpPort p
  let waits := decide (x.st = 4) && x.best.isNone && decide (p ≠ timed)
  let master (n : Nat) : Nat := if d0.cls = 255 then 4 else n
  match m.bestAnn with
  | none => if waits then 4 else master 6
  | some (q, e) =>
    if lexLt (annKey d0 0) (annKey e q) then
      (if waits then 4
       else if d0.cls ≤ 127 then
         (match x.best with
          | some r => if lexLt (annKey r p) (annKey d0 0) then 7 else master 6
          | none => master 6)
       else master 6)
    else if d0.cls ≤ 127 then
      (match x.best with
       | some r => if lexLt (annKey r p) (annKey d0 0) then 7 else master 6
       | none => if waits then 4 else master 6)
    else if q = p then 8
    else
      match x.best with
      | some r => if byTopology e r then 7 else master 5
      | none => if waits then 4 else master 5

/-- The port takes the recommended state; answers whether it has entered UNCALIBRATED. new: its master is another one. -/
def Half.ptpTake (m : Half) (new : Bool) (p w : Nat) : Half × Bool :=
  let cur := (m.ptpPort p).st
  if cur = 0 then (m, false)
  else if w = 8 then
    if 8 ≤ cur ∧ !new then (m, false)
    else ((m.updPtp p (fun x => { x with waitFup := false, reqAt := none })).setPtpSt p 8, true)
  else if w = 5 then (if cur = 6 then m else m.setPtpSt p 5, false)
  else (m.setPtpSt p w, false)

/-- R424, R425: the best master clock algorithm decides every port. -/
def Half.ptpRun (m : Half) (timed : Nat) : Half :=
  let w := [1, 2, 3].map (fun p => (p, m.ptpDecide timed p))
  let master := match w.find? (fun e => decide (e.2 = 8) && decide ((m.ptpPort e.1).st ≠ 0)) with
    | some (p, _) => (m.ptpPort p).best
    | none => none
  let new := match master, m.tim.master with
    | some a, some b => decide (a.src ≠ b.src) || decide (a.srcPort ≠ b.srcPort)
    | some _, none => true
    | none, _ => false
  let m0 := m.updTim (fun t => { t with master := master, mpd := if new then 0 else t.mpd })
  let (m1, ent) := w.foldl (fun (a : Half × Bool) e =>
    let (m2, b) := a.1.ptpTake new e.1 e.2
    (m2, a.2 || b)) (m0, false)
  m1.sourceFollow ent

/-- PTP.CTRL.EN and MZ_EN: ports 1 and 2 run while EN is 1, port 3 while MZ_EN is 1 too; EN at 0 sets the time source FREE
(Table 17.4). -/
def Half.ptpApply (m : Half) : Half :=
  let en := m.on 0x0C8 && m.rdB rPtpCtrl 31
  let m1 := [1, 2, 3].foldl (fun (m : Half) p =>
    let want := en && (decide (p ≠ 3) || m.rdB rPtpCtrl 30)
    if want ∧ (m.ptpPort p).st = 0 then (m.setPtpSt p 1).setPtpSt p 4
    else if !want ∧ (m.ptpPort p).st ≠ 0 then
      (m.setPtpSt p 0).updPtp p (fun x => { ptpReset with seqSync := x.seqSync, seqAnn := x.seqAnn, reqSeq := x.reqSeq, unmatched := x.unmatched })
    else m) m
  let m2 := if m1.slavePort = 0 then m1.updTim (fun t => { t with master := none }) else m1
  let m3 := m2.sourceFollow false
  if en then m3 else m3.setSource 0

/-- The page stops: every port ends, and the time source is FREE. -/
def Half.ptpStop (m : Half) : Half :=
  let m1 := [1, 2, 3].foldl (fun (m : Half) p => m.setPtpSt p 0) m
  (m1.updTim (fun t => { t with ports := [], master := none })).setSource 0

/-- A signed 32-bit value that saturates. -/
def satI32 (x : Int) : Word := BitVec.ofInt 32 (max (-2147483648) (min 2147483647 x))

/-- The PTP page's registers that are not stored as written (Table 17.9). -/
def Half.ptpRead (m : Half) (k : Nat) : Option Word :=
  let t := m.tim
  if k = rPtpStat then
    let a := t.master
    some (word ((a.map (·.leap59)).getD false |>.toNat |> (· * 2 ^ 26)
      |> (· + ((a.map (·.leap61)).getD false).toNat * 2 ^ 25 + ((a.map (·.utcOk)).getD false).toNat * 2 ^ 24
        + (m.ptpPort 3).st * 2 ^ 16 + (m.ptpPort 2).st * 2 ^ 12 + (m.ptpPort 1).st * 2 ^ 8 + t.source)))
  else if k = rPtpOffset then some (satI32 t.offset)
  else if k = rPtpMpd then some (satI32 t.mpd)
  else if k = rPtpRate then some (satI32 t.rate)
  else if k = rPtpGmId ∨ k = rPtpGmId + 4 then
    let gm := match t.master with
      | some a => a.gm
      | none => if m.rdB rPtpCtrl 31 then Config.clockIdentity else 0
    some (word (leAt (beBytes 8 gm) (k - rPtpGmId) 4))
  else none

/-- Whether a value may be written to a register of the PTP page (Tables 17.9 and 17.10): 0, or a code of Table 2.10. -/
def Half.ptpCheck (m : Half) (k : Nat) (v : Word) : Nat :=
  let s8 (lo : Nat) : Int := (BitVec.ofNat 8 (fld v lo 8)).toInt
  if k = rPtpCtrl then
    if 127 < fld v 16 8 ∨ fld v 8 2 = 3 then 5
    else if m.rdB rPtpCtrl 31 ∧ fld v 8 2 ≠ m.rdF rPtpCtrl 8 2 then 8
    else 0
  else if k = rPtpPrio then (if fld v 16 8 = 248 ∨ fld v 16 8 = 255 then 0 else 5)
  else if k = rPtpIntv then
    (if s8 24 < -4 ∨ 1 < s8 24 ∨ 4 < fld v 16 8 ∨ s8 8 < -4 ∨ 5 < s8 8 ∨ fld v 0 4 < 2 ∨ 10 < fld v 0 4 then 5 else 0)
  else if k = rPtpServo then (if fld v 16 16 = 0 then 5 else 0)
  else 0

/-- A write to a register of the PTP page; none where the page has no rule for it. -/
def Half.ptpWrite (m : Half) (n k : Nat) (v : Word) : Option (Half × Nat) :=
  if k = rPtpCtrl ∨ k = rPtpPrio ∨ k = rPtpIntv ∨ k = rPtpServo then
    let c := m.ptpCheck k v
    if c ≠ 0 then some (m, c)
    else
      let m1 := m.plainWrite n k v
      some (if k = rPtpCtrl then m1.ptpApply else if k = rPtpPrio then m1.ptpRun 0 else m1, 0)
  else none

/-- R422: the time base steps where an offset exceeds STEP_US, in any state; else the rate is steered in the states that follow the
master (Table 17.3). -/
def Half.ptpOffset (m : Half) (v : View) (p : Nat) (off : Int) : Half :=
  let m1 := m.updTim (fun t => { t with offset := off })
  let slave := decide ((m.ptpPort p).st = 9)
  let m2 := if slave then m1 else (m1.setPtpSt p 9)
  if (m.rdF rPtpServo 16 16 : Int) * 1000 < off.natAbs then
    (m2.updTim (fun t => { t with good := 0 })).stepTime v.leap ((m.tai.toNat : Int) - off).toNat 2
  else
    let near := decide (off.natAbs ≤ 1000)
    let m3 := m2.updTim (fun t => { t with
      rate := if t.source = 1 ∨ t.source = 2 then max (-500000) (min 500000 (Config.steer off)) else t.rate
      good := if near && slave then min 16 (t.good + 1) else 0 })
    if m3.tim.source = 1 ∧ 16 ≤ m3.tim.good then m3.setSource 2 else m3

/-- The message is for the port: it runs, the domain is PTP.CTRL.DOMAIN, and it comes from another clock. -/
def Half.ptpMine (m : Half) (x : PtpMsg) : Bool :=
  m.on 0x0C8 && decide (1 ≤ x.port) && decide (x.port ≤ 3) && decide (4 ≤ (m.ptpPort x.port).st)
    && decide (x.domain = m.rdF rPtpCtrl 16 8) && decide (x.src ≠ Config.clockIdentity)

/-- The message comes from the master of the port, which follows it. -/
def Half.fromMaster (m : Half) (x : PtpMsg) : Bool :=
  decide (8 ≤ (m.ptpPort x.port).st) &&
    (match m.tim.master with
     | some a => decide (a.src = x.src) && decide (a.srcPort = x.srcPort)
     | none => false)

/-- PTP_SYNC_RECEIVE (R421, R424): Sync, of one step or two, and Follow_Up; Pdelay messages are counted and discarded. -/
def Half.ptpSync (m : Half) (v : View) (x : PtpMsg) : Half :=
  let p := x.port
  if !m.ptpMine x then m
  else if x.type = 2 ∨ x.type = 3 ∨ x.type = 10 then m.updPtp p (fun y => { y with unmatched := stickTo 0xFFFFFFFF y.unmatched 1 })
  else if !m.fromMaster x then m
  else
    let y := m.ptpPort p
    let m := m.updPtp p (fun y => { y with syncAt := m.up })
    if x.type = 0 then
      if x.twoStep then m.updPtp p (fun y => { y with syncT2 := x.rx - x.corr, syncSeq := x.seq, waitFup := true })
      else
        let t2 := x.rx - x.corr
        (m.updPtp p (fun y => { y with syncT1 := x.stamp, syncT2 := t2, syncSeq := x.seq, waitFup := false })).ptpOffset v p
          (t2 - x.stamp - m.tim.mpd)
    else if x.type = 8 ∧ y.waitFup ∧ x.seq = y.syncSeq then
      let t1 := x.stamp + x.corr
      (m.updPtp p (fun y => { y with syncT1 := t1, waitFup := false })).ptpOffset v p (y.syncT2 - t1 - m.tim.mpd)
    else m

/-- PTP_ANNOUNCE_RECEIVE (R424). -/
def Half.ptpAnnounce (m : Half) (x : PtpMsg) : Half :=
  let p := x.port
  if !m.ptpMine x ∨ 255 ≤ x.steps then m
  else
    let a : PtpAnn := ⟨x.prio1, x.clkClass, x.accuracy, x.variance, x.prio2, x.gm, x.steps, x.src, x.srcPort, x.utcOff, x.utcValid,
      x.leap61, x.leap59⟩
    let take := match (m.ptpPort p).best with
      | none => true
      | some b => (decide (a.src = b.src) && decide (a.srcPort = b.srcPort)) || lexLt (annKey a p) (annKey b p)
    if take then (m.updPtp p (fun y => { y with best := some a, annAt := m.up })).ptpRun 0 else m

/-- A PTP message's header (IEEE 1588-2019 clause 13): type, flags, correction, port and sequence; len: the whole message. -/
def Half.ptpHeader (m : Half) (type len flags port seq log : Nat) : List Byte :=
  [BitVec.ofNat 8 type, 0x12] ++ beBytes 2 len ++ [BitVec.ofNat 8 (m.rdF rPtpCtrl 16 8), 0] ++ beBytes 2 flags
    ++ List.replicate 12 0 ++ beBytes 8 Config.clockIdentity ++ beBytes 2 port ++ beBytes 2 seq
    ++ [BitVec.ofNat 8 (if type = 0 then 0 else if type = 1 then 1 else if type = 8 then 2 else if type = 9 then 3 else 5),
        BitVec.ofNat 8 log]

/-- A timestamp: seconds in 6 bytes and nanoseconds in 4. -/
def ptpStamp (t : Nat) : List Byte := beBytes 6 (t / oneSec) ++ beBytes 4 (t % oneSec)

/-- R425: the half that sends a port's messages: A those of port 1, B those of port 2, and both those of the Merzin link. -/
def Half.ptpSends (m : Half) (p : Nat) : Bool :=
  decide (p = 3) || (decide (p = 1) && decide (m.self = .a)) || (decide (p = 2) && decide (m.self = .b))

/-- A message of a port leaves. -/
def Half.ptpOut (m : Half) (y : View) (p : Nat) (b : List Byte) : Half :=
  if !m.ptpSends p then m
  else if p = 3 then m.mzSend y 0xFFFF 0x40 0x40 peerStamp 0 b
  else m.ethQueue p (.ptp b) none none

/-- PTP_DELAY_REQ_RECEIVE (R424): a port in MASTER answers with Delay_Resp. -/
def Half.ptpDelayReq (m : Half) (y : View) (x : PtpMsg) : Half :=
  if !m.ptpMine x ∨ (m.ptpPort x.port).st ≠ 6 then m
  else
    let corr := beBytes 8 (BitVec.ofInt 64 (x.corr * 65536)).toNat
    let hd := m.ptpHeader 9 54 0 x.port x.seq (m.rdF rPtpIntv 8 8)
    m.ptpOut y x.port (hd.take 8 ++ corr ++ hd.drop 16 ++ ptpStamp x.rx.toNat ++ beBytes 8 x.src ++ beBytes 2 x.srcPort)

/-- PTP_DELAY_RESP_RECEIVE (R424): the mean path delay of the outstanding Delay_Req. -/
def Half.ptpDelayResp (m : Half) (x : PtpMsg) : Half :=
  let y := m.ptpPort x.port
  match y.reqAt with
  | none => m
  | some t3 =>
    if !m.ptpMine x ∨ !m.fromMaster x ∨ x.reqId ≠ Config.clockIdentity ∨ x.reqPort ≠ x.port ∨ x.seq ≠ y.reqSeq then m
    else
      (m.updPtp x.port (fun y => { y with reqAt := none })).updTim (fun t => { t with
        mpd := ((y.syncT2 - y.syncT1) + (x.stamp - x.corr - t3)).tdiv 2 })

/-- The flags of an Announce: leap61, leap59, currentUtcOffsetValid, and the PTP timescale. -/
def annFlags (a : PtpAnn) : Nat := a.leap61.toNat + a.leap59.toNat * 2 + a.utcOk.toNat * 4 + 8

/-- PTP_MESSAGE_SEND (R424): kind 0 Sync with its Follow_Up, 1 Announce, 2 Delay_Req. A port in PRE_MASTER becomes MASTER when its
announce interval expires. -/
def Half.ptpSend (m0 : Half) (y : View) (utc : Int) (ok : Bool) (p kind : Nat) : Half :=
  let m := if kind = 1 ∧ (m0.ptpPort p).st = 5 then m0.setPtpSt p 6 else m0
  let x := m.ptpPort p
  if !m.on 0x0C8 then m0
  else if kind = 0 ∧ x.st = 6 then
    let n := (x.seqSync + 1) % 65536
    let log := m.rdF rPtpIntv 24 8
    let m1 := m.updPtp p (fun x => { x with seqSync := n })
    (m1.ptpOut y p (m.ptpHeader 0 44 0x0200 p n log ++ ptpStamp 0)).ptpOut y p (m.ptpHeader 8 44 0 p n log ++ ptpStamp m.tai.toNat)
  else if kind = 1 ∧ x.st = 6 then
    let n := (x.seqAnn + 1) % 65536
    let a := match m.tim.master with
      | some a => { a with steps := a.steps + 1 }
      | none => m.ownAnn utc ok
    (m.updPtp p (fun x => { x with seqAnn := n })).ptpOut y p (m.ptpHeader 11 64 (annFlags a) p n (m.rdF rPtpIntv 16 8)
      ++ ptpStamp 0 ++ beBytes 2 (BitVec.ofInt 16 a.utcOff).toNat ++ [0, BitVec.ofNat 8 a.prio1, BitVec.ofNat 8 a.cls, BitVec.ofNat 8 a.acc]
      ++ beBytes 2 a.var ++ [BitVec.ofNat 8 a.prio2] ++ beBytes 8 a.gm ++ beBytes 2 a.steps ++ [0xA0])
  else if kind = 2 ∧ 8 ≤ x.st then
    let n := (x.reqSeq + 1) % 65536
    (m.updPtp p (fun x => { x with reqSeq := n, reqAt := some (m.tai.toNat : Int) })).ptpOut y p
      (m.ptpHeader 1 44 0 p n 0x7F ++ ptpStamp 0)
  else m

/-- The announce receipt timeout (R424, Table 17.10): RECEIPT announce intervals, in ns. -/
def Half.ptpReceipt (m : Half) : Nat := m.rdF rPtpIntv 0 4 * 2 ^ m.rdF rPtpIntv 16 8 * oneSec

/-- ANNOUNCE_RECEIPT_TIMEOUT (R421): no Announce, or no Sync, for the receipt timeout. -/
def Half.ptpTimeout (m : Half) (p : Nat) (sync : Bool) : Half :=
  let st := (m.ptpPort p).st
  if st < 4 ∨ m.up < (if sync then (m.ptpPort p).syncAt else (m.ptpPort p).annAt) + m.ptpReceipt then m
  else if sync then (if st = 9 ∧ m.tim.source = 2 then m.setSource 3 else m)
  else (m.updPtp p (fun x => { x with best := none })).ptpRun p

end Sys2Proof.Machine
end

