-- ==== Sys2Proof/Machine/SerBase.lean ====
section
/-! DEFINITION. TIA-485 serial engines (R323 to R330): modes, the transmit queue, MS/TP as a master node of clause 9, OSDP as
the ACU, and ASYNC. -/
namespace Sys2Proof.Machine

/-- A serial engine at reset. -/
def serReset : SerSt := ⟨0, [], false, false, 0, 127, 127, 50, 0, 0, false, 0, [], 0, none, false⟩

/-- A serial engine. -/
def Half.serOf (m : Half) (e : Nat) : SerSt := sget serReset m.ser e

/-- Changes a serial engine. -/
def Half.updSer (m : Half) (e : Nat) (f : SerSt → SerSt) : Half := { m with ser := sset serReset m.ser e (f (m.serOf e)) }

/-- A statistics counter of an engine (Table 13.5, from STAT_RXF on). -/
def Half.serCount (m : Half) (e k n : Nat) : Half := m.count (rSerCnt e k) n (0x080 + e) 3

/-- SER.CTRL.PROTO: 0 ASYNC, 1 MSTP, 2 OSDP. -/
def Half.serProto (m : Half) (e : Nat) : Nat := m.rdF (rSerCtrl e) 4 2

/-- The engine receives: NORMAL or LISTEN (R330). -/
def Half.serHears (m : Half) (e : Nat) : Bool := m.on (0x080 + e) && decide ((m.serOf e).mode ≠ 0)

/-- The engine may enable its driver: NORMAL, a lease that NORMAL has resumed under, and no duplicate MAC (R326, R330). -/
def Half.serSpeaks (m : Half) (y : View) (e : Nat) : Bool :=
  m.on (0x080 + e) && decide ((m.serOf e).mode = 1) && y.any && !(m.serOf e).dup && !(m.serOf e).idle

/-- The MS/TP parameters start anew (clause 9, INITIALIZE). -/
def SerSt.start (x : SerSt) (ts : Nat) : SerSt :=
  { x with fsm := 0, token := false, ns := ts, ps := ts, tokCnt := 50, frmCnt := 0, retry := 0, sole := false, wait := none }

/-- This station's MS/TP address. -/
def Half.serTs (m : Half) (e : Nat) : Nat := m.rdF (rSerMstp e) 0 7

/-- SER_MODE_EFFECT (R330): CTRL.MODE comes into effect, or the return of the lease does. -/
def Half.serModeEffect (m : Half) (e : Nat) : Half :=
  let new := m.rdF (rSerCtrl e) 0 2
  if !m.on (0x080 + e) || (decide ((m.serOf e).mode = new) && !(m.serOf e).idle) then m
  else m.updSer e (fun x => { x with mode := new, idle := false }.start (m.serTs e))

/-- R330: the lease returns: an engine in NORMAL waits as after a change to NORMAL. -/
def Half.serLeaseBack (m : Half) : Half :=
  (List.range 16).foldl (fun m e =>
    if (m.serOf e).mode = 1 then m.updSer e (fun x => { x with idle := true, fsm := 0, token := false }) else m) m

/-- One SER_TX descriptor (Table 20.15) as the engine reads it from its buffer. -/
structure SerDesc where
  ok   : Bool
  type : Nat
  dest : Nat
  data : List Byte

/-- R501: the descriptor in a buffer; a type that the queue does not take is not acted on. -/
def Half.serDesc (m : Half) (a : Nat) : SerDesc :=
  let len := leNat (m.peekN (a + 4) 4)
  ⟨decide (m.peek a = 0x05) && decide (len ≤ 1984), (m.peek (a + 33)).toNat, (m.peek (a + 34)).toNat,
    m.peekN (a + 64) (min len 1984)⟩

/-- The buffers of the engine's transmit queue that it has not finished with, the oldest first. -/
def Half.serQueued (m : Half) (e : Nat) : List Nat :=
  if m.rdB (rSerQueue e) 31 then
    (m.queue (m.rdF (rSerQueue e) 8 8)).filter (fun a => (sfind (m.serOf e).done a).isNone)
  else []

/-- R499: buffers that are finished with go to the completion list in the order of submission. -/
def Half.serFlush (m : Half) (e q : Nat) : Nat → Half
  | 0 => m
  | n + 1 =>
    match m.queue q with
    | a :: l =>
      (match sfind (m.serOf e).done a with
       | some st =>
         (((m.setQueue q l).updSer e (fun x => { x with done := sdel x.done a })).complete q a (0x080 + e) st).serFlush e q n
       | none => m)
    | [] => m

/-- The engine has finished with a buffer. -/
def Half.serFinish (m : Half) (e a status : Nat) : Half :=
  let m1 := m.updSer e (fun x => { x with done := sput x.done a status })
  m1.serFlush e (m1.rdF (rSerQueue e) 8 8) (m1.serOf e).done.length

/-- A frame leaves the engine. -/
def Half.serSend (m : Half) (e type dest seq : Nat) (data : List Byte) : Half :=
  (m.serCount e 1 1).log (.ser e type dest seq data)

/-- A received item goes to the receive queue as SER_RX (Table 20.15). -/
def Half.serDeliver (m : Half) (e proto type src dest : Nat) (data : List Byte) : Half :=
  m.serPost e 0x04 [BitVec.ofNat 8 e, BitVec.ofNat 8 proto, BitVec.ofNat 8 type, BitVec.ofNat 8 src, BitVec.ofNat 8 dest] data

/-- The station after k in polling order (clause 9): (k + 1) modulo (MAX_MASTER + 1). -/
def Half.mstpAfter (m : Half) (e k : Nat) : Nat := (k + 1) % (m.rdF (rSerMstp e) 8 7 + 1)

/-- The token goes to the next station: PASS_TOKEN. -/
def Half.mstpPass (m : Half) (e : Nat) (f : SerSt → SerSt) : Half :=
  let m1 := m.updSer e (fun x => { f x with fsm := 3, retry := 0, token := false })
  m1.serSend e 0 (m1.serOf e).ns 0 []

/-- Poll For Master to a station: POLL_FOR_MASTER. -/
def Half.mstpPoll (m : Half) (e ps : Nat) (f : SerSt → SerSt) : Half :=
  (m.updSer e (fun x => { f x with fsm := 5, ps := ps, retry := 0, token := true })).serSend e 1 ps 0 []

/-- DONE_WITH_TOKEN (clause 9), with no more frames to send. -/
def Half.mstpDone (m : Half) (e : Nat) : Half :=
  let x := m.serOf e
  let ts := m.serTs e
  let next := m.mstpAfter e x.ps
  if !x.sole && decide (x.ns = ts) then m.mstpPoll e (m.mstpAfter e ts) id
  else if x.tokCnt < 49 then
    (if x.sole then m.updSer e (fun x => { x with fsm := 1, frmCnt := 0, tokCnt := x.tokCnt + 1, token := true })
     else m.mstpPass e (fun x => { x with tokCnt := x.tokCnt + 1 }))
  else if next ≠ x.ns then m.mstpPoll e next id
  else if x.sole then m.mstpPoll e (m.mstpAfter e x.ns) (fun x => { x with ns := ts, tokCnt := 1 })
  else m.mstpPass e (fun x => { x with ps := ts, tokCnt := 1 })

/-- USE_TOKEN with nothing to send goes on to DONE_WITH_TOKEN; otherwise the engine's next frame waits for SER_FRAME_SEND. -/
def Half.mstpUse (m : Half) (e : Nat) : Half :=
  if (m.serQueued e).isEmpty then m.mstpDone e else m.updSer e (fun x => { x with fsm := 1, token := true })

/-- A frame has been sent, or its reply has ended: another frame while MAX_INFO allows. -/
def Half.mstpAfterFrame (m : Half) (e : Nat) : Half :=
  if (m.serOf e).frmCnt < m.rdF (rSerMstp e) 16 8 then m.mstpUse e else m.mstpDone e

/-- The token arrives. -/
def Half.mstpToken (m : Half) (e : Nat) : Half :=
  (m.updSer e (fun x => { x with fsm := 1, frmCnt := 0, sole := false, token := true })).mstpUse e

/-- The engine stands aside: it follows the token without taking part (R330). -/
def Half.mstpAside (m : Half) (e : Nat) : Half := m.updSer e (fun x => { x with fsm := 0, token := false })

/-- R325: the frame types firmware may queue: Test_Request, Test_Response, data frames, and proprietary frames. -/
def mstpMay (t : Nat) : Bool := (decide (3 ≤ t) && decide (t ≤ 6)) || decide (128 ≤ t)

/-- R325: one frame of the transmit queue while the token is held, or the awaited reply. -/
def Half.mstpFrameSend (m : Half) (e : Nat) : Half :=
  let x := m.serOf e
  match (m.serQueued e).head? with
  | none => if x.fsm = 1 then m.mstpDone e else m
  | some a =>
    let d := m.serDesc a
    if x.fsm ≠ 1 ∧ x.fsm ≠ 6 then m
    else if !d.ok || !mstpMay d.type || decide (501 < d.data.length) then m.serFinish e a 5
    else if x.fsm = 6 then
      (if d.dest = x.answer then ((m.serSend e d.type d.dest 0 d.data).serFinish e a 0).mstpAside e else m)
    else
      let m1 := ((m.serSend e d.type d.dest 0 d.data).serFinish e a 0).updSer e (fun x => { x with frmCnt := x.frmCnt + 1 })
      if (d.type = 3 ∨ d.type = 5) ∧ d.dest ≠ 255 then m1.updSer e (fun x => { x with fsm := 2 }) else m1.mstpAfterFrame e

/-- POLL_FOR_MASTER ends without a reply. -/
def Half.mstpNoMaster (m : Half) (e : Nat) : Half :=
  let x := m.serOf e
  let ts := m.serTs e
  let next := m.mstpAfter e x.ps
  if x.sole then m.updSer e (fun x => { x with fsm := 1, frmCnt := 0, token := true })
  else if x.ns ≠ ts then m.mstpPass e id
  else if next ≠ ts then m.mstpPoll e next id
  else m.updSer e (fun x => { x with fsm := 1, frmCnt := 0, sole := true, token := true })

/-- MSTP_TIMER_EXPIRY (R325): Treply_timeout, Tusage_timeout or Tslot, by the state. -/
def Half.mstpTimer (m : Half) (y : View) (e : Nat) : Half :=
  let x := m.serOf e
  let ts := m.serTs e
  if m.serProto e ≠ 1 then m
  else if !m.serSpeaks y e then m.mstpAside e
  else if x.fsm = 2 then (m.serCount e 6 1).mstpDone e
  else if x.fsm = 3 then
    (if x.retry = 0 then (m.updSer e (fun x => { x with retry := 1 })).serSend e 0 x.ns 0 []
     else m.mstpPoll e (m.mstpAfter e x.ns) (fun x => { x with ns := ts, tokCnt := 0 }))
  else if x.fsm = 4 then
    ((m.serCount e 5 1).ev 0x0F01 e ts 0 0).mstpPoll e (m.mstpAfter e ts) (fun x => { x with ns := ts, tokCnt := 0 })
  else if x.fsm = 5 then m.mstpNoMaster e
  else m

/-- R330: a change to NORMAL takes effect through the standard's entry. -/
def Half.mstpEnter (m : Half) (y : View) (e : Nat) : Half :=
  if m.serProto e = 1 ∧ m.rdF (rSerCtrl e) 0 2 = 1 ∧ y.any then m.serModeEffect e else m

/-- MSTP_NO_TOKEN (R325, R330): Tno_token of silence: NO_TOKEN, from which the station whose slot comes first regenerates the
token. -/
def Half.mstpNoToken (m0 : Half) (y : View) (e : Nat) : Half :=
  let m := m0.mstpEnter y e
  if m.serProto e ≠ 1 then m
  else if !m.serSpeaks y e then m.mstpAside e
  else if (m.serOf e).fsm = 0 ∨ (m.serOf e).fsm = 6 then m.updSer e (fun x => { x with fsm := 4, token := false })
  else m

/-- R325: received data frames addressed to TS, and broadcast data frames, go to the receive queue. -/
def Half.mstpTake (m : Half) (e : Nat) (f : MstpFrame) : Half :=
  let data := (decide (4 ≤ f.type) && decide (f.type ≤ 6)) || decide (128 ≤ f.type)
  if data && (decide (f.dest = m.serTs e) || decide (f.dest = 255)) then m.serDeliver e 1 f.type f.src f.dest f.data else m

/-- A valid frame in IDLE (clause 9). -/
def Half.mstpIdle (m : Half) (y : View) (e : Nat) (f : MstpFrame) : Half :=
  if f.dest ≠ m.serTs e ∨ !m.serSpeaks y e then m
  else if f.type = 0 then m.mstpToken e
  else if f.type = 1 then m.serSend e 2 f.src 0 []
  else if f.type = 3 then m.serSend e 4 f.src 0 f.data
  else if f.type = 5 then m.updSer e (fun x => { x with fsm := 6, answer := f.src })
  else m

/-- R325: a valid frame, by the state of the master node. -/
def Half.mstpValid (m0 : Half) (y : View) (e : Nat) (f : MstpFrame) : Half :=
  let m := m0.mstpTake e f
  let x := m.serOf e
  let mine := decide (f.dest = m.serTs e)
  if !m.serSpeaks y e then (m.mstpAside e).mstpIdle y e f
  else if x.fsm = 2 then
    (if mine && (decide (f.type = 4) || decide (f.type = 6) || decide (f.type = 7) || decide (128 ≤ f.type)) then m.mstpAfterFrame e
     else m.mstpAside e)
  else if x.fsm = 5 then
    (if mine && decide (f.type = 2) then
       m.mstpPass e (fun x => { x with sole := false, ns := f.src, ps := m.serTs e, tokCnt := 0 })
     else m.mstpAside e)
  else if x.fsm = 1 then m
  else (m.mstpAside e).mstpIdle y e f

/-- An invalid frame, by the state of the master node. -/
def Half.mstpInvalid (m : Half) (y : View) (e : Nat) : Half :=
  let x := m.serOf e
  if !m.serSpeaks y e then m
  else if x.fsm = 2 then m.mstpDone e
  else if x.fsm = 5 then m.mstpNoMaster e
  else if x.fsm = 3 ∨ x.fsm = 4 then m.mstpAside e
  else m

/-- MSTP_FRAME_RECEIVED (R325, R326, R330). -/
def Half.mstpRx (m0 : Half) (y : View) (e : Nat) (f : MstpFrame) : Half :=
  let ok := f.framed && f.headerOk && f.dataOk && decide (f.data.length ≤ 501)
  let m := if ok && decide (f.src ≠ m0.serTs e) && decide (f.dest = m0.serTs e) && decide (f.type ≤ 1) then m0.mstpEnter y e else m0
  if !m.serHears e || decide (m.serProto e ≠ 1) then m
  else if !f.framed then (m.serCount e 2 1).mstpInvalid y e
  else if !f.headerOk || !f.dataOk then (m.serCount e 3 1).mstpInvalid y e
  else if !ok then m.mstpInvalid y e
  else
    let m1 := m.serCount e 0 1
    if f.src = m1.serTs e then
      (if (m1.serOf e).dup then m1
       else ((m1.updSer e (fun x => { x with dup := true, fsm := 0, token := false })).irq (0x080 + e) 2).ev 0x0F02 e (m1.serTs e) 0 0).mstpTake
        e f
    else m1.mstpValid y e f

/-- REPLY_POSTPONED (R325). -/
def Half.replyPostponed (m : Half) (y : View) (e : Nat) : Half :=
  if m.serProto e = 1 ∧ (m.serOf e).fsm = 6 then
    (if m.serSpeaks y e then m.serSend e 7 (m.serOf e).answer 0 [] else m).mstpAside e
  else m

/-- What a PD entry holds at reset. -/
def pdReset : Pd := ⟨false, 0, 0⟩

/-- A PD entry. -/
def SerSt.pd (x : SerSt) (k : Nat) : Pd := sget pdReset x.pds k

/-- Writes a PD entry. -/
def SerSt.setPd (x : SerSt) (k : Nat) (p : Pd) : SerSt := { x with pds := sset pdReset x.pds k p }

/-- The enabled PD entries. -/
def Half.pdsOn (m : Half) (e : Nat) : List Nat := (List.range 16).filter (fun k => m.rdB (rSerPdEn e) k)

/-- The address of a PD entry. -/
def Half.pdAddr (m : Half) (e k : Nat) : Nat := m.rdF (rSerPdAddr e k) 0 7

/-- Descriptors that an OSDP engine does not take: of another type, or for no enabled PD entry. -/
def Half.osdpClean (m : Half) (e : Nat) : Half :=
  ((m.serQueued e).filter (fun a => !(m.serDesc a).ok || !(m.pdsOn e).any (fun k => decide (m.pdAddr e k = (m.serDesc a).dest)))).foldl
    (fun m a => m.serFinish e a 5) m

/-- OSDP_POLL (R327): the next enabled PD is sent a queued command, or osdp_POLL. -/
def Half.osdpPoll (m0 : Half) (y : View) (e : Nat) : Half :=
  if m0.serProto e ≠ 2 ∨ !m0.serSpeaks y e ∨ (m0.serOf e).wait.isSome then m0
  else
    let m := m0.osdpClean e
    let on := m.pdsOn e
    let x := m.serOf e
    match ((on.filter (fun k => decide (x.turn ≤ k))) ++ on).head? with
    | none => m
    | some k =>
      let addr := m.pdAddr e k
      let m1 := match (m.serQueued e).find? (fun a => decide ((m.serDesc a).dest = addr)) with
        | some a => (m.serSend e (m.serDesc a).type addr (x.pd k).seq (m.serDesc a).data).serFinish e a 0
        | none => m.serSend e 0x60 addr (x.pd k).seq []
      m1.updSer e (fun x => { x with wait := some k, turn := (k + 1) % 16 })

/-- The points bound to a slot of an engine. -/
def Half.slotPoints (m : Half) (e s : Nat) : List Nat :=
  m.sourcePoints (fun d => decide (bKind d = 3) && decide (bByte d 8 = e) && decide (bByte d 9 = s))

/-- Table 13.6: the four words of slot k that an osdp_RAW reply writes: format and bit count from its data, card data after
them. -/
def rawSlot (addr : Nat) (d : List Byte) : List Word :=
  let card := padTo 12 (d.drop 4)
  word (leAt d 2 2 * 2 ^ 16 + (d.getD 1 0).toNat * 2 ^ 8 + addr)
    :: (List.range 3).map (fun i => word (leAt card (4 * i) 4))

/-- OSDP_REPLY (R327). -/
def Half.osdpReply (m : Half) (y : View) (e : Nat) (f : OsdpReply) : Half :=
  if !m.serHears e || decide (m.serProto e ≠ 2) then m
  else if !f.crcOk then m.serCount e 3 1
  else
    match (m.pdsOn e).find? (fun k => decide (m.pdAddr e k = f.addr)) with
    | none => m
    | some k =>
      let x := m.serOf e
      let p := x.pd k
      if m.serSpeaks y e ∧ (x.wait ≠ some k ∨ f.seq ≠ p.seq) then m
      else
        let m1 := (m.serCount e 0 1).updSer e (fun x =>
          { x.setPd k ⟨true, 0, p.seq % 3 + 1⟩ with wait := if x.wait = some k then none else x.wait })
        let m2 := if p.online then m1 else (m1.irq (0x080 + e) 1).ev 0x0F04 e k f.addr 0
        let m3 := if f.code = 0x50 ∧ !f.secure then m2.slotCommit y e k (rawSlot f.addr f.data) else m2
        m3.serDeliver e 2 f.code f.addr 0 f.data

/-- OSDP_REPLY_TIMEOUT (R327): a missed reply; OFFLINE of them in a row take the PD offline. -/
def Half.osdpTimeout (m : Half) (y : View) (e : Nat) : Half :=
  match (m.serOf e).wait with
  | none => m
  | some k =>
    if m.serProto e ≠ 2 then m
    else
      let p := (m.serOf e).pd k
      let n := min (p.missed + 1) 255
      let off := p.online && decide (m.rdF (rSerOsdp e) 16 4 ≤ n)
      let m1 := (m.serCount e 6 1).updSer e (fun x =>
        { x.setPd k ⟨p.online && !off, n, if off then 0 else p.seq⟩ with wait := none })
      if off then
        ((m1.irq (0x080 + e) 1).ev 0x0F03 e k (m1.pdAddr e k) n).pointFlags y 5 true (m1.slotPoints e k)
      else m1

/-- ASYNC_FRAME_END (R328). -/
def Half.asyncRx (m : Half) (e : Nat) (f : AsyncFrame) : Half :=
  if !m.serHears e || decide (m.serProto e ≠ 0) then m
  else
    let bad := f.frame + (if 1024 < f.data.length then 1 else 0)
    (((m.serCount e 0 1).serCount e 2 bad).serCount e 3 f.parity).serDeliver e 0 0 0 0 (f.data.take 1024)

/-- SER_FRAME_SEND (R325, R328). -/
def Half.serFrameSend (m : Half) (y : View) (e : Nat) : Half :=
  if !m.serSpeaks y e then m
  else if m.serProto e = 1 then m.mstpFrameSend e
  else if m.serProto e = 0 then
    match (m.serQueued e).head? with
    | none => m
    | some a =>
      let d := m.serDesc a
      if d.ok then (m.serSend e 0 0 0 d.data).serFinish e a 0 else m.serFinish e a 5
  else m

/-- R324: the protocol accepts the rate. -/
def serRateOk (proto baud : Nat) : Bool :=
  if proto = 0 then decide (9600 ≤ baud) && decide (baud ≤ 3000000)
  else if proto = 1 then decide (baud ∈ [9600, 19200, 38400, 57600, 76800, 115200])
  else decide (baud ∈ [9600, 19200, 38400, 57600, 115200, 230400])

/-- SER.CTRL (R323, R324, R330). -/
def Half.serCtrlEff (m : Half) (n e : Nat) (st : Stamp) (v : Word) : Half × Nat :=
  let k := rSerCtrl e
  let old := m.rdF k 0 2
  let new := fld v 0 2
  let proto := fld v 4 2
  if new = 3 ∨ proto = 3 then (m, 5)
  else if old ≠ 0 ∧ proto ≠ m.serProto e then (m, 8)
  else if new ≠ 0 ∧ !serRateOk proto (m.rdF (rSerBaud e) 0 22) then (m, 5)
  else
    let m1 := (m.plainWrite n k v).updSer e (fun x => { x with dup := false })
    if new = old then (m1, 0)
    else
      let m2 := m1.ev 0x0F05 e old new st.toNat
      (if new = 1 then m2 else m2.serModeEffect e, 0)

/-- A slot committed by a write of its word 0 (R329). -/
def Half.serSlotEff (m : Half) (y : View) (n e s : Nat) (v : Word) : Half × Nat :=
  (m.slotCommit y e s (m.commitWords n (rSerSlot e s) 4 v), 0)

/-- SER.CLR (Table 13.5). -/
def Half.serClrEff (m : Half) (e : Nat) (v : Word) : Half × Nat :=
  if flag v 0 then ((List.range 7).foldl (fun m k => m.wrN (rSerCnt e k) 0) m, 0) else (m, 0)

/-- Table 13.6: the rules of the plain registers of a SER page. -/
def Half.serRule (m : Half) (e k : Nat) (v : Word) : Nat :=
  let busy := decide (m.rdF (rSerCtrl e) 0 2 ≠ 0)
  if k = rSerBaud e then (if busy then 8 else 0)
  else if k = rSerAsync e then
    (if busy then 8
     else if fld v 8 16 < 2 ∨ 1000 < fld v 8 16 ∨ fld v 4 2 = 3 ∨ fld v 0 4 < 7 ∨ 8 < fld v 0 4 then 5 else 0)
  else if k = rSerMstp e then
    (if busy then 8 else if fld v 24 8 < 5 ∨ 250 < fld v 24 8 ∨ fld v 16 8 = 0 then 5 else 0)
  else if k = rSerOsdp e then (if fld v 16 4 = 0 ∨ fld v 8 8 < 20 ∨ fld v 0 8 < 10 then 5 else 0)
  else if k = rSerQueue e then m.queueRule k v true
  else if rSerPdAddr e 0 ≤ k ∧ k ≤ rSerPdAddr e 15 then (if fld v 0 7 = 127 then 5 else 0)
  else 0

/-- A write of a SER page register by accessor n with a stamp. -/
def Half.serWrite (m : Half) (y : View) (n e k : Nat) (st : Stamp) (v : Word) : Half × Nat :=
  if k = rSerCtrl e then m.serCtrlEff n e st v
  else if k = rSerClr e then m.serClrEff e v
  else if rSerSlot e 0 ≤ k ∧ k < rSerSlot e 64 then m.serSlotEff y n e ((k - rSerSlot e 0) / 16) v
  else
    let code := m.serRule e k v
    if code = 0 then (m.plainWrite n k v, 0) else (m, code)

/-- SER.STAT (Table 13.6). -/
def Half.serRead (m : Half) (y : View) (e k : Nat) : Option Word :=
  if k = rSerStat e then
    let x := m.serOf e
    some (word (maskOf ((List.range 16).filter (fun k => (x.pd k).online)) * 2 ^ 16 + x.dup.toNat * 2 ^ 9
      + (x.token && y.any).toNat * 2 ^ 8 + (!y.any).toNat * 2 ^ 7 + x.mode * 2 ^ 4))
  else none

end Sys2Proof.Machine
end

