-- ==== Sys2Proof/Machine/Serial.lean ====
section
/-! DEFINITION. The commands of the serial engines (R323 to R330, R338). -/
namespace Sys2Proof.Machine

/-- SER_MODE_WRITE (R330). -/
def execSerModeWrite (h : HalfId) (r : Req) (e : Fin 16) (v : Word) (s : State) : Host.Outcome State Fault Refusal :=
  .next (s.regCmd h r (rSerCtrl e.val) v (fun m => m.serCtrlEff (reqNum r) e.val (reqStamp r) v))

/-- SER_MODE_EFFECT (R330). -/
def execSerModeEffect (e : Fin 16) (s : State) : Host.Outcome State Fault Refusal :=
  .next (s.busInput (fun _ m => m.serModeEffect e.val))

/-- MSTP_FRAME_RECEIVED (R325, R326). -/
def execMstpFrameReceived (e : Fin 16) (f : MstpFrame) (s : State) : Host.Outcome State Fault Refusal :=
  .next (s.lineInput (fun y m => m.mstpRx y e.val f))

/-- REPLY_POSTPONED (R325). -/
def execReplyPostponed (h : HalfId) (e : Fin 16) (s : State) : Host.Outcome State Fault Refusal :=
  .next (s.lineLocal h (fun y m => m.replyPostponed y e.val))

/-- MSTP_NO_TOKEN (R325). -/
def execMstpNoToken (h : HalfId) (e : Fin 16) (s : State) : Host.Outcome State Fault Refusal :=
  .next (s.lineLocal h (fun y m => m.mstpNoToken y e.val))

/-- MSTP_TIMER_EXPIRY (R325). -/
def execMstpTimerExpiry (h : HalfId) (e : Fin 16) (s : State) : Host.Outcome State Fault Refusal :=
  .next (s.lineLocal h (fun y m => m.mstpTimer y e.val))

/-- OSDP_POLL (R327). -/
def execOsdpPoll (h : HalfId) (e : Fin 16) (s : State) : Host.Outcome State Fault Refusal :=
  .next (s.lineLocal h (fun y m => m.osdpPoll y e.val))

/-- OSDP_REPLY (R327). -/
def execOsdpReply (e : Fin 16) (f : OsdpReply) (s : State) : Host.Outcome State Fault Refusal :=
  .next (s.lineInput (fun y m => m.osdpReply y e.val f))

/-- OSDP_REPLY_TIMEOUT (R327). -/
def execOsdpReplyTimeout (h : HalfId) (e : Fin 16) (s : State) : Host.Outcome State Fault Refusal :=
  .next (s.lineLocal h (fun y m => m.osdpTimeout y e.val))

/-- ASYNC_FRAME_END (R328). -/
def execAsyncFrameEnd (e : Fin 16) (f : AsyncFrame) (s : State) : Host.Outcome State Fault Refusal :=
  .next (s.busInput (fun _ m => m.asyncRx e.val f))

/-- SER_FRAME_SEND (R325, R328). -/
def execSerFrameSend (h : HalfId) (e : Fin 16) (s : State) : Host.Outcome State Fault Refusal :=
  .next (s.lineLocal h (fun y m => m.serFrameSend y e.val))

/-- SER_SLOT_COMMIT (R329). -/
def execSerSlotCommit (h : HalfId) (r : Req) (e : Fin 16) (sl : Fin 64) (v : Word) (s : State) :
    Host.Outcome State Fault Refusal :=
  .next (s.regCmdV h r (rSerSlot e.val sl.val) v (fun y m => m.serSlotEff y (reqNum r) e.val sl.val v))

/-- SER_CLR (R338). -/
def execSerClr (h : HalfId) (r : Req) (e : Fin 16) (v : Word) (s : State) : Host.Outcome State Fault Refusal :=
  .next (s.regCmd h r (rSerClr e.val) v (fun m => m.serClrEff e.val v))

end Sys2Proof.Machine
end

