-- ==== Sys2Proof/Machine/Tiller.lean ====
section
/-! DEFINITION. The commands of the Tiller engine (R208, R212, R230, R242, R243). -/
namespace Sys2Proof.Machine

/-- The loop of TLR.LOOP_SEL. -/
def Half.selLoop (m : Half) : Nat := m.rdF rTlrLoopSel 0 9

/-- TLR.CMD_STAT of an accessor takes a fault, its word and a status, and the write its code (Table 8.10). -/
def Half.tlrCmdStat (m : Half) (n fault w status code : Nat) : Half × Nat :=
  (m.setView n rTlrCmdStat (word (fault * 2 ^ 24 + min w 255 * 2 ^ 16 + status)), code)

/-- The loop is enabled and is not being disabled. -/
def Half.loopOn (m : Half) (n : Nat) : Bool := decide ((m.loop n).st ≠ 0) && !(m.loop n).leaving

/-- ENABLE (R212, R230, R242, R243): the descriptor passes its checks, and the loop starts in the MODE it names. -/
def Half.loopStart (m : Half) (y : View) (l d : Nat) : Half :=
  let st := if fld (m.dw d 0) 0 2 = 1 then 2 else 1
  let run := m.rdB rTlrCtrl 0 && !y.pfw
  let x : Loop := { loopReset with st := if run then st else 6, resume := st, desc := d, first := true, cold := true }
  (((m.clearRun d).setLoop l x).putLstat l).tlrCount

/-- TLR.LOOP_CMD ENABLE (R230). -/
def Half.tlrEnableEff (m : Half) (y : View) (n : Nat) (st : Stamp) (d : Nat) : Half × Nat :=
  let l := m.selLoop
  if (m.loop l).st ≠ 0 then m.tlrCmdStat n 0 0 5 8
  else
    match m.descCheck d with
    | (0, _) => ((m.loopStart y l d).ev 0x0B01 l d st.toNat 0).tlrCmdStat n 0 0 0 0
    | (f, w) => (m.ev 0x0B05 l d f w).tlrCmdStat n f w 5 8

/-- TLR.LOOP_CMD DISABLE (R212). -/
def Half.tlrDisableEff (m : Half) (y : View) (n : Nat) (st : Stamp) : Half × Nat :=
  let l := m.selLoop
  if !m.loopOn l then m.tlrCmdStat n 0 0 5 8
  else
    let m1 := (m.ev 0x0B07 l (m.loop l).desc st.toNat 0).setLoop l { m.loop l with leaving := true }
    ((m1.tlrPush [m1.tlrRelease l]).pump y).tlrCmdStat n 0 0 0 0

/-- TLR.LOOP_CMD CLR_FLAGS (Table 8.10): SAT, OVERRUN and LCOUNT. -/
def Half.tlrClrFlagsEff (m : Half) (n : Nat) : Half × Nat :=
  let l := m.selLoop
  if !m.loopOn l then m.tlrCmdStat n 0 0 5 8
  else
    let m1 := (m.setLoop l { m.loop l with sat := false, overrun := false }).setDw (m.loop l).desc 25 0
    (m1.putLstat l).tlrCmdStat n 0 0 0 0

/-- TLR.LOOP_CMD MANUAL (4) and AUTO (5): they take effect at the next sample (R243). -/
def Half.tlrModeEff (m : Half) (n op : Nat) (st : Stamp) : Half × Nat :=
  let l := m.selLoop
  if !m.loopOn l then m.tlrCmdStat n 0 0 5 8
  else (m.setLoop l { m.loop l with cmd := op, who := st }).tlrCmdStat n 0 0 0 0

/-- TLR.LOOP_CMD (Table 8.10). -/
def Half.loopCmdEff (m : Half) (y : View) (n : Nat) (st : Stamp) (v : Word) : Half × Nat :=
  if fld v 0 4 = 1 then m.tlrEnableEff y n st (fld v 16 9)
  else if fld v 0 4 = 2 then m.tlrDisableEff y n st
  else if fld v 0 4 = 3 then m.tlrClrFlagsEff n
  else if fld v 0 4 = 4 ∨ fld v 0 4 = 5 then m.tlrModeEff n (fld v 0 4) st
  else m.tlrCmdStat n 0 0 5 5

/-- TLR.CTRL.RUN at 0, or PFW (R212, R243): every loop stops. -/
def Half.loopsStop (m : Half) : Half :=
  (m.tlr.loops.filter (fun e => decide (e.2.st ≠ 0) && decide (e.2.st ≠ 6))).foldl
    (fun m e => (m.setLoop e.1 { m.loop e.1 with resume := (m.loop e.1).st, st := 6 }).putLstat e.1) m

/-- TLR.CTRL.RUN at 1 with PFW clear (R243): stopped loops go on in the state they held, with a first sample. -/
def Half.loopsGo (m : Half) : Half :=
  (m.tlr.loops.filter (fun e => decide (e.2.st = 6))).foldl
    (fun m e => (m.setLoop e.1 { m.loop e.1 with st := (m.loop e.1).resume, first := true }).putLstat e.1) m

/-- TLR.CTRL is written (R212). -/
def Half.tlrCtrlEff (m : Half) (y : View) (n : Nat) (v : Word) : Half × Nat :=
  let m1 := m.plainWrite n rTlrCtrl v
  if m.rdB rTlrCtrl 0 && !m1.rdB rTlrCtrl 0 then (m1.loopsStop, 0)
  else if !m.rdB rTlrCtrl 0 && m1.rdB rTlrCtrl 0 && !y.pfw then (m1.loopsGo, 0)
  else (m1, 0)

/-- TLR.CLR (Table 8.9). -/
def Half.tlrClrEff (m : Half) (v : Word) : Half × Nat := (if flag v 0 then m.wrN rTlrMaxLate 0 else m, 0)

/-- TLR's live registers (Table 8.10). -/
def Half.tlrRead (m : Half) (k : Nat) : Option Word :=
  let l := m.selLoop
  let x := m.loop l
  if k = rTlrLoopStat then
    some (if x.st = 0 then 0 else word (2 ^ 31 + x.desc * 2 ^ 16 + m.lstat l))
  else if x.st = 0 then none
  else if k = rTlrLoopCnt then some (m.dw x.desc 25)
  else if k = rTlrLastT then some (m.dw x.desc 18)
  else if k = rTlrLastT + 4 then some (m.dw x.desc 19)
  else none

/-- TILLER_SAMPLE (R208): the records the batch reads are verified (R118), the batch is evaluated, and its sheaves commit. -/
def execTillerSample (h : HalfId) (s : State) : Host.Outcome State Fault Refusal :=
  .next (s.onHalf h (fun s =>
    let m := s.half h
    let s1 := s.mendAll h (m.tlrReads (m.tlrBatch (m.tai.toNat / oneMs)))
    s1.upd h (fun m => m.tlrSample.pump (s1.view h))))

/-- TLR_ENABLE (R212). -/
def execTlrEnable (h : HalfId) (r : Req) (v : Word) (s : State) : Host.Outcome State Fault Refusal :=
  .next (s.regCmdV h r rTlrLoopCmd (putFld v 0 4 1) (fun y m => m.tlrEnableEff y (reqNum r) (reqStamp r) (fld v 16 9)))

/-- TLR_DISABLE (R212). -/
def execTlrDisable (h : HalfId) (r : Req) (v : Word) (s : State) : Host.Outcome State Fault Refusal :=
  .next (s.regCmdV h r rTlrLoopCmd (putFld v 0 4 2) (fun y m => m.tlrDisableEff y (reqNum r) (reqStamp r)))

/-- TLR_CLR_FLAGS (R230). -/
def execTlrClrFlags (h : HalfId) (r : Req) (v : Word) (s : State) : Host.Outcome State Fault Refusal :=
  .next (s.regCmd h r rTlrLoopCmd (putFld v 0 4 3) (fun m => m.tlrClrFlagsEff (reqNum r)))

/-- TLR_MANUAL (R243). -/
def execTlrManual (h : HalfId) (r : Req) (v : Word) (s : State) : Host.Outcome State Fault Refusal :=
  .next (s.regCmd h r rTlrLoopCmd (putFld v 0 4 4) (fun m => m.tlrModeEff (reqNum r) 4 (reqStamp r)))

/-- TLR_AUTO (R243). -/
def execTlrAuto (h : HalfId) (r : Req) (v : Word) (s : State) : Host.Outcome State Fault Refusal :=
  .next (s.regCmd h r rTlrLoopCmd (putFld v 0 4 5) (fun m => m.tlrModeEff (reqNum r) 5 (reqStamp r)))

/-- TILLER_RUN_WRITE (R212). -/
def execTillerRunWrite (h : HalfId) (r : Req) (v : Word) (s : State) : Host.Outcome State Fault Refusal :=
  .next (s.regCmdV h r rTlrCtrl v (fun y m => m.tlrCtrlEff y (reqNum r) v))

/-- TLR_CLR (R230). -/
def execTlrClr (h : HalfId) (r : Req) (v : Word) (s : State) : Host.Outcome State Fault Refusal :=
  .next (s.regCmd h r rTlrClr v (fun m => m.tlrClrEff v))

end Sys2Proof.Machine
end

