-- ==== Sys2Proof/Machine/Eth.lean ====
section
/-! DEFINITION. The commands of the Ethernet ports but for reception (R344 to R359). -/
namespace Sys2Proof.Machine

/-- ETH_FRAME_TRANSMIT (R344). -/
def execEthFrameTransmit (h : HalfId) (p : EthPort) (s : State) : Host.Outcome State Fault Refusal :=
  .next (s.busLocal h (fun y m => m.macTransmit y (ethPage p)))

/-- ETH_COLLISION (R350). -/
def execEthCollision (h : HalfId) (p : EthPort) (late : Bool) (s : State) : Host.Outcome State Fault Refusal :=
  .next (s.busLocal h (fun y m => m.macCollision y (ethPage p) late))

/-- PRP_SUPERVISION (R346). -/
def execPrpSupervision (h : HalfId) (s : State) : Host.Outcome State Fault Refusal :=
  .next (s.busLocal h (fun _ m => m.prpSupervise))

/-- PRP_LAN_TIMEOUT (R348). -/
def execPrpLanTimeout (lan : Bool) (s : State) : Host.Outcome State Fault Refusal :=
  .next (s.busInput (fun _ m => m.prpTimeout lan))

/-- PRP_ENTRY_FORGET (R347). -/
def execPrpEntryForget (h : HalfId) (src : Nat) (seq : Option Nat) (s : State) : Host.Outcome State Fault Refusal :=
  .next (s.busLocal h (fun _ m => m.prpForget src seq))

/-- LINK_ENERGY_DETECT (R354). -/
def execLinkEnergyDetect (p : EthPort) (s : State) : Host.Outcome State Fault Refusal :=
  .next (s.busInput (fun _ m => m.macEnergy (ethPage p)))

/-- LINK_UP (R354). -/
def execLinkUp (p : EthPort) (x : LinkMode) (s : State) : Host.Outcome State Fault Refusal :=
  .next (s.busInput (fun _ m => m.macUp (ethPage p) x))

/-- TRAINING_TIMEOUT (R354): DOWN_REASON 3. -/
def execTrainingTimeout (p : EthPort) (s : State) : Host.Outcome State Fault Refusal :=
  .next (s.busInput (fun y m => m.macNoLink y (ethPage p) 3))

/-- TRAINING_NO_COMMON_MODE (R354): DOWN_REASON 2. -/
def execTrainingNoCommonMode (p : EthPort) (s : State) : Host.Outcome State Fault Refusal :=
  .next (s.busInput (fun y m => m.macNoLink y (ethPage p) 2))

/-- LINK_DOWN (R354). -/
def execLinkDown (p : EthPort) (reason : Nat) (s : State) : Host.Outcome State Fault Refusal :=
  .next (s.busInput (fun y m => m.macLost y (ethPage p) reason))

/-- TEST (R354): MAC.CMD with its test mode. -/
def execMacTest (h : HalfId) (r : Req) (p : EthPort) (v : Word) (s : State) : Host.Outcome State Fault Refusal :=
  .next (s.regCmdV h r (rMacCmd (ethPage p)) (putFld v 0 4 1) (fun y m => m.macCmdEff y (ethPage p) (putFld v 0 4 1)))

/-- NORMAL (R354). -/
def execMacNormal (h : HalfId) (r : Req) (p : EthPort) (v : Word) (s : State) : Host.Outcome State Fault Refusal :=
  .next (s.regCmdV h r (rMacCmd (ethPage p)) (putFld v 0 4 2) (fun y m => m.macCmdEff y (ethPage p) (putFld v 0 4 2)))

/-- RENEGOTIATE (R358). -/
def execMacRenegotiate (h : HalfId) (r : Req) (p : EthPort) (v : Word) (s : State) : Host.Outcome State Fault Refusal :=
  .next (s.regCmdV h r (rMacCmd (ethPage p)) (putFld v 0 4 3) (fun y m => m.macCmdEff y (ethPage p) (putFld v 0 4 3)))

/-- MAC_MODE_WRITE (R352). -/
def execMacModeWrite (h : HalfId) (r : Req) (p : EthPort) (v : Word) (s : State) : Host.Outcome State Fault Refusal :=
  .next (s.regCmdV h r (rMacCtrl (ethPage p)) v (fun y m => m.macCtrlEff y (reqNum r) (ethPage p) (reqStamp r) v))

/-- MAC_CLR (R355). -/
def execMacClr (h : HalfId) (r : Req) (p : EthPort) (v : Word) (s : State) : Host.Outcome State Fault Refusal :=
  .next (s.regCmd h r (rMacClr (ethPage p)) v (fun m => m.macClrEff (ethPage p) v))

/-- PRP_CLR (R359). -/
def execPrpClr (h : HalfId) (r : Req) (v : Word) (s : State) : Host.Outcome State Fault Refusal :=
  .next (s.regCmd h r rPrpClr v (fun m => m.prpClrEff v))

/-- PLCA_BEACON_LOST (R350). -/
def execPlcaBeaconLost (p : Fin 8) (s : State) : Host.Outcome State Fault Refusal :=
  .next (s.busInput (fun _ m => m.plcaLost (0xB0 + p.val)))

/-- PLCA_BEACON_RETURN (R350). -/
def execPlcaBeaconReturn (p : Fin 8) (s : State) : Host.Outcome State Fault Refusal :=
  .next (s.busInput (fun _ m => m.plcaReturn (0xB0 + p.val)))

/-- PLCA_BEACON_SEND (R350). -/
def execPlcaBeaconSend (h : HalfId) (p : Fin 8) (s : State) : Host.Outcome State Fault Refusal :=
  .next (s.busLocal h (fun y m => m.plcaSend y (0xB0 + p.val)))

end Sys2Proof.Machine
end

