-- ==== Sys2Proof/Machine/Mz.lean ====
section
/-! DEFINITION. The commands of the Merzin switch and ports but for the delivery of frames (R363 to R381). -/
namespace Sys2Proof.Machine

/-- MZ_HEADER_RECEIVED (R371). -/
def execMzHeaderReceived (p : Fin 4) (f : MzRx) (s : State) : Host.Outcome State Fault Refusal :=
  .next (s.input (fun y m => m.mzHeader y p.val f))

/-- LINK_FRAME_SEND (R364). -/
def execLinkFrameSend (h : HalfId) (p : Fin 4) (s : State) : Host.Outcome State Fault Refusal :=
  .next (s.local_ h (fun y m => m.mzLinkSend y p.val))

/-- MZ_SIGNAL_DETECT (R363). -/
def execMzSignalDetect (p : Fin 4) (s : State) : Host.Outcome State Fault Refusal :=
  .next (s.input (fun y m => m.mzSignal y p.val))

/-- MZ_SYNC_TIMEOUT (R363). -/
def execMzSyncTimeout (p : Fin 4) (s : State) : Host.Outcome State Fault Refusal :=
  .next (s.input (fun _ m => m.mzSyncOut p.val))

/-- MZ_LINK_LOST (R363). -/
def execMzLinkLost (p : Fin 4) (cause : Nat) (s : State) : Host.Outcome State Fault Refusal :=
  .next (s.input (fun _ m => m.mzLost p.val cause))

/-- NO_HALF_TIMEOUT (R362). -/
def execNoHalfTimeout (s : State) : Host.Outcome State Fault Refusal :=
  .next (if s.speaks .a || s.speaks .b then s else s.relayClose 3)

/-- DUP_ENTRY_FORGET (R374). -/
def execDupEntryForget (h : HalfId) (k : Nat) (s : State) : Host.Outcome State Fault Refusal :=
  .next (s.local_ h (fun _ m => m.dupForget k))

/-- FWD_NS_UPDATE (R372). -/
def execFwdNsUpdate (h : HalfId) (s : State) : Host.Outcome State Fault Refusal :=
  .next (s.local_ h (fun _ m => m.fwdNs))

/-- WAKE_TX (R377). -/
def execWakeTx (h : HalfId) (r : Req) (v : Word) (s : State) : Host.Outcome State Fault Refusal :=
  .next (s.regCmdV h r rMzWakeTx v (fun y m => m.wakeTxEff y v))

/-- MZP_KEY_COMMIT (R370). -/
def execMzpKeyCommit (h : HalfId) (r : Req) (p : Fin 4) (slot : Fin 2) (v : Word) (s : State) :
    Host.Outcome State Fault Refusal :=
  .next (s.regCmd h r (if slot.val = 0 then rMzpKey0 p.val else rMzpKey1 p.val) v
    (fun m => m.mzKeyEff (reqNum r) p.val slot.val v))

/-- MZ_CLR (R380). -/
def execMzClr (h : HalfId) (r : Req) (v : Word) (s : State) : Host.Outcome State Fault Refusal :=
  .next (s.regCmd h r rMzClr v (fun m => m.mzClrEff v))

/-- MZP_CLR (R381). -/
def execMzpClr (h : HalfId) (r : Req) (p : Fin 4) (v : Word) (s : State) : Host.Outcome State Fault Refusal :=
  .next (s.regCmd h r (rMzpClr p.val) v (fun m => m.mzpClrEff p.val v))

end Sys2Proof.Machine
end

