-- ==== Sys2Proof/Machine/Uio.lean ====
section
/-! DEFINITION. The commands of the terminals (R283 to R294). -/
namespace Sys2Proof.Machine

/-- UIO_SAMPLE (R285 to R289): raw is the measured quantity of the mode: µV, nA or mΩ of an input, the loop voltage in mV or the
drain current in mA of an output; loopOpen tells an MA_OUT whose loop is open. -/
def execUioSample (t : Fin 256) (raw : Int) (loopOpen : Bool) (s : State) : Host.Outcome State Fault Refusal :=
  .next (s.input (fun y m => m.uioSample y t.val raw loopOpen))

/-- UIO_EDGE_ACCEPT (R287): level is the comparator's, before INVERT. -/
def execUioEdgeAccept (t : Fin 256) (level : Bool) (s : State) : Host.Outcome State Fault Refusal :=
  .next (s.input (fun y m => m.uioEdge y t.val level))

/-- MODE_WRITE (R283). -/
def execModeWrite (h : HalfId) (r : Req) (t : Fin 256) (v : Word) (s : State) : Host.Outcome State Fault Refusal :=
  .next (s.regCmd h r (rUiogMode (t.val / 16) (t.val % 16)) v (fun m => m.modeEff t.val (reqStamp r) v))

/-- MODE_SETTLE_END (R283): level is the comparator's, before INVERT. -/
def execModeSettleEnd (t : Fin 256) (level : Bool) (s : State) : Host.Outcome State Fault Refusal :=
  .next (s.input (fun _ m => m.settleEnd t.val level))

/-- UIO_CAL_APPLY (R294). -/
def execUioCalApply (h : HalfId) (r : Req) (g : Fin 16) (v : Word) (s : State) : Host.Outcome State Fault Refusal :=
  .next (s.regCmd h r (rUiogCalApply g.val) v (fun m => m.uioApplyEff g.val (reqStamp r) v))

/-- UIOG.CLR (Table 11.5): the counts of the terminals whose bits are 1 return to 0. -/
def Half.uioClrEff (m : Half) (g : Nat) (v : Word) : Half × Nat :=
  ((bitsOf 16 v.toNat).foldl (fun m n => m.wrN (rUiogCnt g n) 0) m, 0)

/-- UIO_CLR (R287). -/
def execUioClr (h : HalfId) (r : Req) (g : Fin 16) (v : Word) (s : State) : Host.Outcome State Fault Refusal :=
  .next (s.regCmd h r (rUiogClr g.val) v (fun m => m.uioClrEff g.val v))

/-- OD_OVERCURRENT (R291). -/
def execOdOvercurrent (x : OdTrip) (s : State) : Host.Outcome State Fault Refusal :=
  .next (s.input (fun y m => m.odTrip y x.term.val x.ma))

/-- OD_RETRY (R291). -/
def execOdRetry (t : Fin 256) (s : State) : Host.Outcome State Fault Refusal :=
  .next (s.input (fun _ m => m.odRetry t.val))

/-- STRIKE_PULSE_END (R291). -/
def execStrikePulseEnd (t : Fin 256) (s : State) : Host.Outcome State Fault Refusal :=
  .next (s.input (fun y m => m.pulseEnd y t.val))

/-- OUTPUT_RATE_LIMIT (R290). -/
def execOutputRateLimit (h : HalfId) (t : Fin 256) (s : State) : Host.Outcome State Fault Refusal :=
  .next (s.local_ h (fun y m => m.rateStep y t.val))

end Sys2Proof.Machine
end

