-- ==== Sys2Proof/Machine/Yoke.lean ====
section
/-! DEFINITION. The Yoke's own operations over roles and the lease (R382 to R392): the grant and its end, retirement, who takes
charge, READY and the pairing window, state transfer, and a latched wake (R465). -/
namespace Sys2Proof.Machine

/-- R511: the Yoke holds up to 8 records for the next start, and counts further ones. -/
def State.keepRec (s : State) (e : Event) : State :=
  s.updYk (fun k => if k.recs.length < 8 then { k with recs := k.recs ++ [e] } else { k with recsLost := k.recsLost + 1 })

/-- A half as YOKE.LEASE.HOLDER codes it: 0 none, 1 A, 2 B. -/
def holderCode : Option HalfId → Nat
  | none => 0
  | some h => halfNum h + 1

/-- Roles are frozen: a half has declared the Yoke lost (R391), or the Yoke reloads its microcode (R392). -/
def State.frozen (s : State) : Bool := s.yoke.a.lost || s.yoke.b.lost || s.yoke.hold

/-- R524, R212: tasks wait for their release when DRLC.CTRL.RUN is 1, and loops go when TLR.CTRL.RUN is 1; the watchdog starts with its
full timeout (R386). -/
def Half.computeStart (m : Half) : Half :=
  let m0 := { m with wdogAt := m.up }
  let m1 := if m0.rdB rDrlcCtrl 0 then m0.tasksGo else m0
  if m1.rdB rTlrCtrl 0 then m1.loopsGo else m1

/-- R524, R525: the first lease grant after a start: held drives and frames are released at one instant. -/
def Half.firstGrant (m : Half) (y : View) : Half :=
  let hold := m.mz.hold
  let m1 := (m.uioResumeAll y).releaseHeld y 32
  hold.foldl (fun m e => m.mzEmit y e.1 e.2) { m1 with mz := { m1.mz with hold := [] } }

/-- The lease returns to the field buses (R315, R330, R336). -/
def Half.fieldLeaseBack (m : Half) : Half := m.canLeaseBack.serLeaseBack.daliLeaseBack

/-- R383, R525, R345: the half, whose role is IN_CHARGE, is granted the lease. -/
def State.grant (s : State) (h : HalfId) : State :=
  let first := !s.yoke.granted
  let back := s.yoke.holder.isNone
  let s0 := s.moveLease h
  let s1 := if back then s0.each (fun m => if first then m.fieldLeaseBack else m.fieldLeaseBack.ethLeaseBack) else s0
  let y := s1.view h
  s1.upd h (fun m => if first then m.firstGrant y else if back then m.uioResumeAll y else m)

/-- R18, R284: what the output stage of a terminal drives: the applied code of the half that the lease line names, unless its
over-current switch is off (R291); none while it is held harmless. -/
def State.outputStage (s : State) (t : Nat) : Option Word :=
  match s.yoke.holder with
  | none => none
  | some h =>
    let m := s.half h
    if !(s.view h).drives || !m.isOutput t || m.harmless (s.view h) t then none
    else some (if (m.term t).offAt.isSome then 0 else m.rd (rUiogDrv (t / 16) (t % 16)))

/-- The lease line names no half. -/
def State.dropLease (s : State) : State := s.updYk (fun k => { k with holder := none })

/-- R382: retirements of a half in the last 24 h. -/
def State.retireCount (s : State) (h : HalfId) : Nat :=
  ((s.yh h).retired.filter (fun t => decide (s.yoke.now < t + 86400 * oneSec))).length

/-- R390: a state transfer in progress ends: event 0x0207 (result 1 done, 2 abandoned, 3 PFW, 4 link lost). -/
def State.xferEnd (s : State) (result : Nat) : State :=
  match s.yoke.xfer with
  | none => s
  | some x =>
    (s.updYk (fun k => { k with xfer := none })).evAll 0x0207 result x.round x.mib ((s.yoke.now - x.since) / oneMs)

/-- A half is retired (R382): it is held in reset, a lease it holds ends, and the retirement is counted. causes: what the half's next
start sets beside YOKE (Table 22.2). -/
def State.retire (s : State) (h : HalfId) (row causes : Nat) : State :=
  let s0 := s.xferEnd 2
  let s1 := if s0.yoke.holder = some h then s0.dropLease else s0
  let s2 := s1.updY h (fun y => { y with
    retired := s.yoke.now :: (y.retired.filter (fun t => decide (s.yoke.now < t + 86400 * oneSec)))
    ready := none, boot := some causes, storing := false })
  s2.setRole h .retired row

/-- R390: state transfer to a joining half begins. -/
def State.startXfer (s : State) (h : HalfId) : State :=
  if s.yoke.xfer.isSome then s
  else s.updYk (fun k => { k with xfer := some ⟨h, 1, fld (sget (regReset rYokeXfer) k.regs rYokeXfer) 0 9, k.now⟩ })

/-- Rows 1, 2 and 3 of Table 16.2 for a half that is BOOTING and has reported READY, and R495 for one that runs recovery. -/
def State.assignOne (s : State) (h : HalfId) : State :=
  let o := other h
  if s.frozen || decide (s.role h ≠ .booting) || (s.yh h).ready.isNone then s
  else if (s.half h).upd.recovery && decide (s.role o ≠ .retired) && decide (s.role o ≠ .booting) then s
  else if s.role o = .inCharge then
    if s.yoke.xup then s.startXfer h else ((s.updY h (fun y => { y with ready := none })).setRole h .muted 3).upd h (·.computeStart)
  else if s.yoke.holder.isSome then s
  else ((((s.updY h (fun y => { y with ready := none })).setRole h .inCharge 1).grant h).upd h (·.computeStart)).relayOpen

/-- YOKE.CTRL.PREFER (Table 16.14). -/
def State.preferred (s : State) : HalfId := if s.rdB .a rYokeCtrl 0 then .b else .a

/-- A half waits for the other half to report READY within YOKE.CTRL.PAIR_MS (Table 16.2). -/
def State.pairWait (s : State) (h : HalfId) : Bool :=
  match (s.yh h).ready with
  | some t =>
    decide (s.role (other h) = .booting) && (s.yh (other h)).ready.isNone && decide (s.yoke.now < t + s.rdF .a rYokeCtrl 16 8 * oneMs)
  | none => false

/-- Table 16.2: halves that are BOOTING and READY take their roles: of two, PREFER first; a single one once PAIR_MS has passed. -/
def State.assign (s : State) : State :=
  let p := s.preferred
  let go (s : State) (h : HalfId) : State := if s.pairWait h then s else s.assignOne h
  go (go s p) (other p)

/-- A change in PWR.STATE (R460): event 0x0303, with the wake reason, or 0 for an entry. Where the policy cores resume after Fallow, the
watchdogs start with their full timeouts (R386). -/
def State.toPower (s : State) (new reason : Nat) : State :=
  let old := s.yoke.pwr.state
  let s0 := if old = 2 then s.each (fun m => { m with wdogAt := m.up }) else s
  let s1 := s0.updPwr (fun p => { p with state := new })
  s1.evAll 0x0303 old new reason ((s.yoke.now - s.yoke.pwr.entryAt) / oneMs)

/-- R465: PWR.WAKE latches the reason, PWR.WAKE_T the TAI instant of the request, and PG_IRQ_RAW bit 2 is set. -/
def State.wakeLatch (s : State) (reason : Nat) : State :=
  let t := if s.yoke.pwr.state = 3 then BitVec.ofNat 64 s.rtcTai else if s.runs .a then s.a.tai else s.b.tai
  (s.updPwr (fun p => { p with wake := word (2 ^ 31 + reason), wakeT := t })).irqAll 0x002 2

/-- A half goes from RETIRED to BOOTING (Table 16.2 row 13), with the restart causes of Table 22.2. -/
def State.rejoinHalf (s : State) (h : HalfId) : State :=
  if s.role h = .retired then
    let c := (s.yh h).boot.getD 0
    (s.setRole h .booting 13).reboot h (2 ^ 7 ||| c)
  else s

/-- Table 16.2 rows 6, 9, 10 and 1, and R464: the other half takes over when a half retires. -/
def State.takeOver (s : State) (o : HalfId) : State :=
  match s.role o with
  | .follower => ((s.setRole o .inCharge 6).grant o).relayOpen
  | .muted =>
    if (s.yh o).inRet then
      (((s.wakeLatch 7).toPower 0 7).setRole o .booting 10).reboot o (2 ^ 7)
    else if s.rdN .a rYokeDiverge ≠ 0 then (s.setRole o .booting 10).reboot o (2 ^ 7)
    else ((s.setRole o .inCharge 9).grant o).relayOpen
  | .booting => s.assign
  | _ => s

/-- A half is retired by a lost challenge, its watchdog or RETIRE_SELF: a lease it holds moves to a follower in one step (R385, R386,
Table 16.3). -/
def State.retireOver (s : State) (h : HalfId) (causes : Nat) : State :=
  let o := other h
  let held := s.lease h
  if held ∧ s.role o = .follower then
    (((s.xferEnd 2).moveLease o).setRole o .inCharge 6 |>.updY h (fun y => { y with
        retired := s.yoke.now :: (y.retired.filter (fun t => decide (s.yoke.now < t + 86400 * oneSec)))
        ready := none, boot := some causes, storing := false })).setRole h .retired 11 |>.relayOpen
  else
    let s1 := s.retire h (if s.role h = .inCharge then 11 else 12) causes
    if held then s1.takeOver o else s1

/-- R384: the lease has run out, 1,000 µs after its grant or last renewal. The lease line names no half, the half is RETIRED, and a clean follower is granted the
lease within 50 µs. -/
def State.expire (s : State) : State :=
  match s.yoke.holder with
  | none => s
  | some h =>
    if s.frozen ∨ s.yoke.now < s.yoke.renewAt + oneMs then s
    else
      let o := other h
      let s1 := s.retire h 11 0
      let fol := s1.role o = .follower
      let clean := (s1.yh o).clean
      let s2 := if fol ∧ !clean then s1 else s1.takeOver o
      let d := if s2.yoke.holder = some o then Config.measured 0x0209 s.yoke.now % 51 else 0xFFFF
      s2.evAll 0x0209 (halfNum h) s.yoke.epoch d 0

/-- Entry to FOLLOWER clears YOKE.DIVERGE (R390). -/
def State.follow (s : State) (h : HalfId) (row : Nat) : State := (s.setRole h .follower row).wr .a rYokeDiverge 0

/-- R389: the cross-link is lost: event 0x0204, a transfer in progress ends, and a follower becomes MUTED. -/
def State.xlinkDown (s : State) (cause : Nat) : State :=
  if !s.yoke.xup then s
  else
    let s1 := ((s.updYk (fun k => { k with xup := false, retries := 0 })).evAll 0x0204 0 cause 0 0).irqAll 0x001 2
    let s2 := s1.xferEnd 4
    let s3 := if s2.role .a = .follower then s2.setRole .a .muted 7 else s2
    if s3.role .b = .follower then s3.setRole .b .muted 7 else s3

/-- A half that waits for state transfer: BOOTING and READY, or MUTED and out of retention. -/
def State.joins (s : State) (h : HalfId) : Bool :=
  decide (s.role (other h) = .inCharge) && s.yoke.xup && !(s.yh h).inRet &&
    ((decide (s.role h = .booting) && (s.yh h).ready.isSome) || decide (s.role h = .muted))

/-- R389: a retraining attempt. -/
def State.retrain (s : State) (ok : Bool) : State :=
  if s.yoke.xup then s
  else
    let n := stickTo 0xFF s.yoke.retries 1
    let s1 := s.updYk (fun k => { k with retries := n, xup := ok })
    if !ok then s1
    else
      let s2 := (s1.evAll 0x0204 1 0 n 0).irqAll 0x001 2
      let s3 := if s2.joins .a && !s2.frozen then s2.startXfer .a else s2
      if s3.joins .b && !s3.frozen then s3.startXfer .b else s3

/-- A register of a page that one half cannot reach twice: what a request commands of the Yoke happens once. An IPP request reaches both
halves, and the Yoke takes it from the half in charge, or from Half A where none is; both answer alike. -/
def State.yokeCmd (s : State) (h : HalfId) (r : Req) (k : Nat) (v : Word) (eff : HalfId → State → State × Nat) : State :=
  match r with
  | .ipp _ =>
    let p := if s.role .b = .inCharge ∧ s.runs .b then HalfId.b else if s.runs .a then .a else .b
    let o := other p
    if !s.runs p then s
    else
      match (s.half p).admission r k v with
      | (m1, false) =>
        let s1 := s.set p m1
        (if s1.runs o then s1.upd o (fun m => (m.admission r k v).1) else s1).flush p
      | (m1, true) =>
        let (s2, code) := eff p (s.set p m1)
        let s3 := s2.upd p (fun m => m.settle r k code)
        let s4 := if s.runs o then s3.upd o (fun m => match m.admission r k v with
          | (m1, false) => m1
          | (m1, true) => m1.settle r k code) else s3
        s4.flush p
  | _ => s.regCmdS h r k v eff

end Sys2Proof.Machine
end

