-- ==== Sys2Proof/Machine/PageReset.lean ====
section
/-! DEFINITION. What a page's reset does (R43), at SOFT_RESET and where a block's registers return to their reset values (R461). -/
namespace Sys2Proof.Machine

/-- Registers of the Merzin pages that the always-on directory keeps (R530). -/
def keptKey (k : Nat) : Bool := decide (k = rMzWakeCode) || (List.range 4).any (fun p => decide (k = rMzpKeyCtrl p))

/-- Registers whose reset value is the configuration's (Tables 6.10, 10.13 and 16.14). -/
def cfgKey (k : Nat) : Bool := decide (k = rDrlcFrcBase) || decide (k = rNrgGrnBase) || decide (k = rFostShared)

/-- The registers of page p that the configuration gives their reset values take them. -/
def Half.cfgReset (m : Half) (p : Nat) : Half :=
  ((m.cfg 0).filter (fun e => cfgKey e.1 && decide (e.1 / 4096 = p))).foldl (fun m e => m.wr e.1 (word (e.2.getD 0 0))) m

/-- R43: registers from 0x040 upwards return to their reset values, and PG_IRQ_RAW clears. -/
def Half.wipe (m : Half) (p : Nat) : Half :=
  Half.cfgReset { m with
    regs := m.regs.filter (fun e =>
      decide (e.1 / 4096 ≠ p) || (decide (e.1 % 4096 < 0x40) && decide (e.1 ≠ pgIrqRaw p)) || keptKey e.1)
    accs := (m.accs.map (fun e => (e.1, { e.2 with view := e.2.view.filter (fun v => decide (v.1 / 4096 ≠ p)) }))).filter
      (fun e => decide (e.2 ≠ accReset)) } p

/-- UPD's reset: RX_STAT and RX_OFF read reset, so no load runs; the slot it wrote is INVALID, as at every other end of a load
(Table 20.5). -/
def Half.updReset (m : Half) : Half :=
  let u := m.upd
  let slots := match u.load with
    | some x => if x.target < 2 then sset slotEmpty u.slots x.target { m.upSlot x.target with st := 6 } else u.slots
    | none => u.slots
  { m with upd := { u with slots := slots, load := none, rxOff := 0, rxStat := 0 } }

/-- A Merzin port's reset (Table 15.12): no neighbour, no verified tag, TXCNT 0. The keys stay (R530). -/
def Half.mzpReset (m : Half) (p : Nat) : Half :=
  (m.mzDisable p).updMzp p (fun x => { x with neigh := 0, nport := 0, keyed := false, txCnt0 := 0, txCnt1 := 0, delays := [], fails := 0 })

/-- A foster slot's SLOT_PBASE as the configuration gives it (part 14). -/
def Half.cfgPbase (m : Half) (k : Nat) : Word := word (((sfind (m.cfg 14) (k * 8 + 6)).getD []).getD 1 0)

/-- What a block's reset does beside its registers: what its registers from 0x040 show reads as they do at reset, and the block is left as
idle as they then say. A task or a loop changes state only as its own table says (Tables 6.4 and 9.7), so both go on, and what a page is
only a window on (CAN object configuration, meters, bank contents) stays. -/
def Half.blockReset (m : Half) (y : View) (p : Nat) : Half :=
  if p = 0x007 then m.updReset
  else if 0x030 ≤ p ∧ p ≤ 0x037 then { m with drl := { m.drl with eng := sset engTimeReset m.drl.eng (p - 0x030) ⟨m.engBusy (p - 0x030), m.up, []⟩ } }
  else if p = 0x012 then m.sesCloseAll (m.sesOpen.map (·.1))
  else if p = 0x0E0 then { m with uio := { m.uio with rfx := [], fs := [] } }
  else if 0x0C1 ≤ p ∧ p ≤ 0x0C4 then m.mzpReset (p - 0x0C1)
  else if 0x050 ≤ p ∧ p ≤ 0x05F then
    { m with uio := { m.uio with terms := m.uio.terms.filter (fun e => decide (e.1 / 16 ≠ p - 0x050)) } }
  else if p = 0x060 then (if m.accumulates then m.nrgCommit 2 else m)
  else if 0x061 ≤ p ∧ p ≤ 0x06E then m.updN (fun n => { n with calAct := n.calAct.filter (fun e => decide (e.1 / 4096 ≠ p)) })
  else if 0x070 ≤ p ∧ p ≤ 0x07F then
    let c := p - 0x070
    (m.updCan c (fun x => { canReset with objs := x.objs, hash := x.hash, state := x.state, tb0 := m.up })).canActive c
  else if 0x080 ≤ p ∧ p ≤ 0x08F then m.updSer (p - 0x080) (fun _ => serReset)
  else if 0x090 ≤ p ∧ p ≤ 0x097 then m.updDali (p - 0x090) (fun _ => daliReset)
  else if isBld p ∨ isTen p ∨ isFld p ∨ p = 0x0B8 then
    ((m.macOf p).txq.foldl (fun m f => m.macFinish p f 4) (m.macDisable y p)).updMac p (fun _ => macReset)
  else if p = 0x0A2 then { m with prp := (halfReset m.self).prp }
  else if p = 0x0C8 then m.ptpStop.updTim (fun t => { t with offset := 0, mpd := 0, rate := 0 })
  else if p = 0x0F0 then { m with fost := { (halfReset m.self).fost with slots := m.fost.slots.map (fun e => (e.1, { fostSlotReset with cfgPack := e.2.cfgPack, pbase := m.cfgPbase e.1 })) } }
  else m

/-- R43, R461: the page returns to its reset state. -/
def Half.pageReset (m : Half) (y : View) (p : Nat) : Half := (m.blockReset y p).wipe p

/-- SOFT_RESET returns RUN to 1: tasks (Table 6.4) and loops (Table 9.7) that RUN at 0 had stopped go on, and TLR.STAT and TLR.DUSE show
the loops there are. -/
def Half.runBack (m : Half) (y : View) (p : Nat) (was : Bool) : Half :=
  if p = 0x038 then (if was then m else m.tasksGo)
  else if p = 0x040 then (if was || y.pfw then m else m.loopsGo).tlrCount
  else m

/-- The block's RUN bit, for the pages that have one of their own. -/
def Half.runNow (m : Half) (p : Nat) : Bool := if p = 0x038 then m.rdB rDrlcCtrl 0 else m.rdB rTlrCtrl 0

/-- SOFT_RESET (R43): Table 2.10's SOFT_RESET_REFUSED where the page refuses it. The MGT page's registers lie in the Yoke (R474). -/
def State.softReset (s : State) (h : HalfId) (p : Nat) (st : Stamp) : State × Nat :=
  let m := s.half h
  if alwaysOn p || m.inSheaf p || (m.rdB (pgLock p) 0 && decide (stampClass st ≠ 1)) then (s, 7)
  else
    let s1 := s.upd h (fun m => ((m.pageReset (s.view h) p).runBack (s.view h) p (m.runNow p)).gen p)
    (if p = 0x0D0 then s1.updYk (fun k => { k with regs := k.regs.filter (fun e => decide (e.1 / 4096 ≠ p)) }) else s1, 0)

end Sys2Proof.Machine
end

