-- ==== Sys2Proof/Machine/CfgLoad.lean ====
section
/-! DEFINITION. The configuration load of a start (Table 22.1, R530): what the configuration image of the starting slot holds is put in
its place. Where a source of a retained region is the image (Table 19.8), the same parts serve (R468). -/
namespace Sys2Proof.Machine

/-- Words of an entry. -/
def cfgWords (l : List Nat) : List Word := l.map word

/-- Register values of pages that lie in the half (part 0). -/
def Half.cfgRegs (m : Half) : Half :=
  (m.cfg 0).foldl (fun m e => if sharedKey e.1 then m else m.wrWords e.1 (cfgWords e.2)) m

/-- Register values of pages that lie in the Yoke (part 0). -/
def Half.cfgYoke (m : Half) (regs : Sparse Word) : Sparse Word :=
  (m.cfg 0).foldl (fun r e => if sharedKey e.1 then sset (regReset e.1) r e.1 (word (e.2.getD 0 0)) else r) regs

/-- Modes that the registers loaded call for: terminals settle in their modes with their calibrations in force, and bus controllers take
theirs. -/
def Half.cfgModes (m : Half) : Half :=
  let ts := (List.range 256).filter (fun t => decide (m.uioMode t ≠ 0))
  let m1 := ts.foldl (fun m t => (m.updTerm t (fun _ =>
    { termReset with settling := true, gain := m.rd (rUiogGain (t / 16) (t % 16)), offs := m.rd (rUiogOffs (t / 16) (t % 16)) })).fastStat
      (t / 16)) m
  let m2 := (List.range 16).foldl (fun m c => m.canModeEffect c) m1
  let m3 := (List.range 16).foldl (fun m e => m.serModeEffect e) m2
  let m4 := (List.range 8).foldl (fun m l => m.daliModeEffect l) m3
  m4.updN (fun n => { n with calAct := m4.regs.filter (fun e => decide (0x061 ≤ e.1 / 4096) && decide (e.1 / 4096 ≤ 0x06E)) })

/-- The allocation map (part 1). -/
def Half.cfgMap (m : Half) : Sparse Byte :=
  (List.range 256).foldl (fun a p => sset 0 a p (if p < 32 then 0x1F
    else BitVec.ofNat 8 (((sfind (m.cfg 1) p).getD []).getD 0 0))) []

/-- The bank words of an image slot's Drill program (part 2). -/
def Half.slotBank (m : Half) (i : Nat) : Sparse Word :=
  let img := (m.upSlot i).cfg
  if img.isEmpty then [] else (Config.cfgPart img 2).foldl (fun a e => sset 0 a e.1 (word (e.2.getD 0 0))) []

/-- The programs present in flash, the newest first: of the image slots that are not EMPTY, LOADING or INVALID, by the version of their
configuration, and then those that firmware has saved (R177). None for a half that runs the recovery image. -/
def Half.flashBanks (m : Half) : List (Sparse Word) :=
  let run := m.upd.run
  let o := 1 - run
  let both := if decide ((m.upSlot run).cfgVer.toNat < (m.upSlot o).cfgVer.toNat) then [o, run] else [run, o]
  let ok (i : Nat) : Bool := decide (2 ≤ (m.upSlot i).st) && decide ((m.upSlot i).st ≤ 5)
  if m.upd.recovery then []
  else ((both.filter (fun i => decide (i = run) || ok i)).map m.slotBank ++
    (if m.upd.flashLog.isEmpty then [] else Config.savedPrograms m.upd.flashLog)).filter (fun b => !b.isEmpty)

/-- The program ID that the granary's system state records as active (Table 18.2). -/
def Half.recordedId (m : Half) : Word := word (leAt (m.gPage 28) 8 4)

/-- R177, Table 6.5: the Drill program: the recorded one where flash holds it, else the newest present. -/
def Half.cfgDrill (m : Half) : Half :=
  let l := m.flashBanks
  let raw := (l.find? (fun b => decide ((bankOf b).id = m.recordedId))).getD (l.headD [])
  { m with drl := { m.drl with active := bankOf raw, actRaw := raw } }

/-- R177: the program loaded is the one recorded. -/
def Half.drlFound (m : Half) : Bool := decide (m.recordedId = m.drl.active.id)

/-- Tiller descriptors (part 3). -/
def Half.cfgTiller (m : Half) : Half :=
  (m.cfg 3).foldl (fun m e => m.setDw (e.1 / 512) (e.1 % 512) (word (e.2.getD 0 0))) m

/-- R244: the loops the configuration runs start in the MODE of their descriptors (part 15), and go on after output enable. -/
def Half.cfgLoops (m : Half) (y : View) : Half :=
  ((m.cfg 15).foldl (fun m e => m.loopStart y e.1 (e.2.getD 0 0)) m).loopsStop

/-- CAN object configuration (part 4): word 0 and the identifier; data, flags and time stamps start at zero (R320). -/
def Half.cfgCan (m : Half) : Half :=
  let l := m.cfg 4
  l.foldl (fun m e =>
    if e.1 % 2 ^ 16 % 20 ≠ 0 then m
    else
      let c := e.1 / 2 ^ 16
      let idw := word (((sfind l (e.1 + 1)).getD []).getD 0 0)
      m.updCan c (fun x => (x.commitObj (m.rdB (rCanCtrl c) 4) (e.1 % 2 ^ 16 / 20) (word (e.2.getD 0 0)) idw []).1)) m

/-- Frame templates (part 5): variable position, pair position plus one, destination, stream, queue, bytes. -/
def Half.cfgTemplates (m : Half) : Half :=
  { m with tmpl := (m.cfg 5).foldl (fun a e =>
      let p := e.2.getD 1 0
      sset ⟨[], 0, none, 0, 0, 0⟩ a e.1
        ⟨(e.2.drop 5).map (BitVec.ofNat 8), e.2.getD 0 0, if p = 0 then none else some (p - 1), e.2.getD 2 0, e.2.getD 3 0, e.2.getD 4 0⟩) [] }

/-- Points (parts 6 and 7): the configuration fields of each record, with VALUE and TIME zero and INIT set (Table 4.3), and the relinquish
default and output binding of its priority array. -/
def Half.cfgPoints (m : Half) : Half :=
  let m1 := (m.cfg 6).foldl (fun m e =>
    let b := e.2.map (fun n => (BitVec.ofNat 8 n : Byte))
    let r : PointRec := ⟨0, 0, BitVec.ofNat 16 (leAt b 16 2), fixGood 0x80, 17, BitVec.ofNat 16 (leAt b 20 2), BitVec.ofNat 16 (leAt b 22 2),
      word (leAt b 24 4), 0, 0⟩
    (m.putRec e.1 r).cfgCount r.tc e.1 (tcCfg r.tc)) m
  (m.cfg 7).foldl (fun m e => m.setPrio e.1
    ⟨if e.2.getD 0 0 = 0 then [] else sset 0 [] 17 (BitVec.ofNat 64 (e.2.getD 1 0)), [], e.2.getD 2 0xFFFF⟩) m1

/-- Bindings (parts 8, 9 and 11), subscriptions (part 12) and meters (part 10). -/
def Half.cfgTables (m : Half) : Half :=
  let m1 := m.updP (fun p => { p with
    srcB := (m.cfg 8).foldl (fun a e => sset [] a e.1 (cfgWords e.2)) []
    outB := (m.cfg 9).foldl (fun a e => sset [] a e.1 (cfgWords e.2)) []
    subs := (m.cfg 12).map (fun e => (e.1, ⟨e.2.getD 0 0, e.2.getD 1 0, e.2.getD 2 0, e.2.getD 3 0, none, false, e.2.getD 4 0xFFFF⟩)) })
  let m2 := (m.cfg 11).foldl (fun m e => m.setReflex e.1 ⟨m.reflexAim ((cfgWords e.2).take 6), none⟩) m1
  ((m.cfg 10).foldl (fun m e => m.updMeter e.1 (fun x => { x with cfg := word (e.2.getD 0 0) })) m2).reflexCount

/-- A force entry as its twelve bytes in the region give it (R180). -/
def forceOfBytes (b : List Byte) (now : Nat) : Option Force :=
  let k := leAt b 0 4
  if nfld k 30 2 = 0 then none
  else some ⟨nfld k 30 2, nfld k 29 1 = 1, nfld k 16 6, nfld k 0 16, BitVec.ofNat 64 (leAt b 4 8), 0, now, 0, 0, 0x80⟩

/-- Table 6.5: forces are kept, at a cold restart the persistent ones alone; the others are cleared from the region. PTAB.FORCE_CNT
counts those kept (R178). Without an FRC_BASE there is no region (Table 6.10). -/
def Half.forcesBack (m : Half) (warm : Bool) : Half :=
  if m.rdF rDrlcFrcBase 0 8 < 32 then m
  else
  let m1 := (List.range 256).foldl (fun m k =>
    let b := ((m.gPage (m.forcePage k)).drop (k % 5 * 12)).take 12
    match forceOfBytes b m.up with
    | none => m
    | some f =>
      if warm ∨ f.persist then
        let m1 := m.updP (fun p => { p with forces := sput p.forces k f })
        if f.kind = 3 ∧ m1.configured f.addr then
          m1.putRec f.addr { m1.pt f.addr with value := f.value, level := 0, quality := fixGood 0x84 }
        else m1
      else m.gPut (m.forcePage k * 64 + k % 5 * 12) (List.replicate 12 0)) m
  m1.wrN rPtabForceCnt m1.ptab.forces.length

/-- Table 6.5: the Drill at a restart: retained variables from their pages where the layout hash matches, FAULTED tasks as the region's mask
gives them. Where the recorded program is not the one loaded it starts as at a cold restart, with event 0x0A0B for all tasks (R177). WARM
says that a task's retained variables were restored. -/
def Half.drillBack (m : Half) (warm : Bool) : Half :=
  let p := m.drl.active
  let m0 := { m with drl := { m.drl with
    tasks := [], swap := 0, jobs := [], drillMs := m.up / oneMs, markers := [], timers := [], counters := [] } }
  let m1 := m0.initVars p (fun _ => false) (fun _ => false) (fun _ => false)
  let found := m.drlFound
  let m2 := if !found then m1.ev 0x0A0B 0xFF m.recordedId.toNat p.id.toNat 0 else m1
  let warm := warm && found
  let m3 : Half := p.tasks.foldl (fun m e =>
    let c := e.2
    let h := leAt (m.gPage (c.retPages.getD 0 0)) 0 4
    let own := c.retVars.isEmpty || decide (h = c.retHash.toNat)
    let m1 := if !warm ∨ c.retVars.isEmpty then m
      else if own then c.retVars.foldl (fun m v => m.retTake v (m.gPage (c.retPages.getD v.page 0))) m
      else m.ev 0x0A0B e.1 h c.retHash.toNat 0
    m1.updTask e.1 (fun x => { x with warm := warm && own, retImg := m1.retNow e.1 })) m2
  let f := m3.rdF rDrlcFrcBase 0 8
  let mask : Nat := if f < 32 then 0 else leAt (m3.gPage f) 60 4 + leAt (m3.gPage (f + 1)) 60 4 * 2 ^ 32
  if warm then (m3.taskList.filter (fun t => mask.testBit t)).foldl (fun m t => m.updTask t (fun x => { x with st := 6 })) m3
  else if decide (mask ≠ 0) && m3.gMay 3 f then (m3.gPut (f * 64 + 60) (leBytes 4 0)).gPut ((f + 1) * 64 + 60) (leBytes 4 0)
  else m3

end Sys2Proof.Machine
end

