-- ==== Sys2Proof/Machine/UpdBase.lean ====
section
/-! DEFINITION. The update unit's slots and loads (R482 to R485) as other blocks need them. -/
namespace Sys2Proof.Machine

/-- Changes the update unit. -/
def Half.updU (m : Half) (f : UpdSt → UpdSt) : Half := { m with upd := f m.upd }

/-- Changes an image slot. -/
def Half.updSlot (m : Half) (i : Nat) (f : UpdSlot → UpdSlot) : Half :=
  m.updU (fun u => { u with slots := sset slotEmpty u.slots i (f (m.upSlot i)) })

/-- A load's target as events give it: 0xFF for the recovery area. -/
def loadSlot (x : Load) : Nat := if x.target < 2 then x.target else 0xFF

/-- UPD.RX_STAT (Table 20.10). -/
def rxWord (result cause blocks : Nat) : Word := word (result * 2 ^ 24 + cause * 2 ^ 16 + blocks % 2 ^ 16)

/-- R484: a load ends with a cause of Table 20.4: its slot becomes INVALID, and event 0x0602 records it. -/
def Half.loadEnd (m : Half) (cause : Nat) : Half :=
  match m.upd.load with
  | none => m
  | some x =>
    let m1 := if x.target < 2 then m.updSlot x.target (fun s => { s with st := 6 }) else m
    let m2 := m1.updU (fun u => { u with load := none, rxStat := rxWord 3 cause x.blocks })
    (m2.irq 0x007 0).ev 0x0602 (loadSlot x) cause x.blocks x.stamp.toNat

end Sys2Proof.Machine
end

