-- ==== Sys2Proof/Machine/FostBase.lean ====
section
/-! DEFINITION. Frames between a protected module and its foster (Table 15.4, Table 16.10), and the buses they share (R397, R400). -/
namespace Sys2Proof.Machine

/-- Changes the fostering state. -/
def Half.updF (m : Half) (f : FostSt → FostSt) : Half := { m with fost := f m.fost }

/-- A FOSTER_CTRL frame with an operation of Table 16.10. -/
def Half.fostCtrl (m : Half) (y : View) (dest op : Nat) (operands : List Byte) : Half :=
  m.mzSend y dest 0x30 0x32 peerStamp 0 (leBytes 1 op ++ leBytes 3 0 ++ operands)

/-- The foster this module names (R393). -/
def Half.foster (m : Half) : Nat := m.rdF rFostFoster 0 16

/-- FOST.SHARED: the shared buses, a mask. -/
def Half.shared (m : Half) : Nat := (m.rdD rFostShared).toNat % 2 ^ 48

/-- The page of a bus by its bit (R400). -/
def busPage (b : Nat) : Nat := if b < 16 then 0x070 + b else if b < 32 then 0x080 + (b - 16) else if b < 40 then 0x090 + (b - 32) else 0x0B0 + (b - 40)

/-- The bit of controller c in the class of bus b: the same class of bus at another controller. -/
def busAt (b c : Nat) : Nat := if b < 16 then c % 16 else if b < 32 then 16 + c % 16 else if b < 40 then 32 + c % 8 else 40 + c % 8

/-- A bus's controller takes a MODE (R318, R330, R336, R352), as a write of the policy cores does. -/
def Half.busMode (m : Half) (y : View) (mode b : Nat) : Half :=
  if b < 16 then (m.canCtrlEff 6 b 0 (putFld (m.rd (rCanCtrl b)) 0 2 mode)).1
  else if b < 32 then (m.serCtrlEff 6 (b - 16) 0 (putFld (m.rd (rSerCtrl (b - 16))) 0 2 mode)).1
  else if b < 40 then (m.daliCtrlEff 6 (b - 32) 0 (putFld (m.rd (rDaliCtrl (b - 32))) 0 2 mode)).1
  else (m.macCtrlEff y 6 (busPage b) 0 (putFld (m.rd (rMacCtrl (busPage b))) 0 2 mode)).1

/-- The controllers of a mask of buses take a MODE. -/
def Half.busModes (m : Half) (y : View) (mode mask : Nat) : Half := (bitsOf 48 mask).foldl (fun m b => m.busMode y mode b) m

/-- The bus a binding descriptor names. -/
def bindBus (d : List Word) : Option Nat :=
  if d.isEmpty ∨ !bEn d then none
  else if bKind d = 2 then some (bByte d 8 % 16)
  else if bKind d = 3 then some (16 + bByte d 8 % 16)
  else if bKind d = 4 then some (32 + bByte d 8 % 8)
  else if bKind d = 5 then some (40 + bByte d 8 % 8)
  else none

/-- The buses that a point's source and output bindings name. -/
def Half.pointBuses (m : Half) (i : Nat) : List Nat :=
  let src := bindBus (m.srcDesc (m.pt i).srcBind.toNat)
  let out := if m.commandable i then bindBus (sget [] m.ptab.outB (m.prio i).outb) else none
  (src.toList ++ out.toList)

/-- The configured points bound to a bus of a mask, in rising order. -/
def Half.busPoints (m : Half) (mask : Nat) : List Nat :=
  ((m.ptab.recs.map (·.1)).filter (fun i => m.configured i && (m.pointBuses i).any (fun b => mask.testBit b)))

/-- FOSTERED on the points of a mask of buses (R403). -/
def Half.markFostered (m : Half) (y : View) (mask : Nat) (b : Bool) : Half := m.pointFlags y 6 b (m.busPoints mask)

/-- The protected side changes its state (Table 16.8): FOST bit 0, and event 0x1202 with the row. -/
def Half.setSelf (m : Half) (new row : Nat) : Half :=
  if m.fost.self = new then m
  else ((m.updF (fun f => { f with self := new })).irq 0x0F0 0).ev 0x1202 m.fost.self new m.foster row

/-- A foster slot changes its state (Table 16.9): FOST bit 1. -/
def Half.setSlotSt (m : Half) (k new : Nat) : Half :=
  if (m.fslot k).st = new then m else (m.updFs k (fun x => { x with st := new })).irq 0x0F0 1

end Sys2Proof.Machine
end

