-- ==== Sys2Proof/Machine/Power.lean ====
section
/-! DEFINITION. Supply, power-fail and low-power states (R451 to R469), commanded and pin resets (R69, R527), and the wake sources
(R465). -/
namespace Sys2Proof.Machine

/-- The pages that take power requests (R461). -/
def powerPages : List Nat := (List.range 0x0F1).filter (fun p => (pageBlk p).isSome && !alwaysOn p)

/-- Table 19.5: the target of a page of one half in a state entered: 0 ON, 1 REDUCED, 2 RETAIN, 3 OFF. charge: the half in charge. -/
def Half.powerTarget (m : Half) (state : Nat) (charge : Bool) (p : Nat) : Nat :=
  let mac := isBld p || isTen p || isFld p || decide (p = 0x0B8)
  let off := mac && decide (m.macMode p = 0)
  let uio := decide (0x050 ≤ p) && decide (p ≤ 0x05F)
  let can := decide (0x070 ≤ p) && decide (p ≤ 0x07F)
  if state = 0 then 0
  else if state = 1 then (if off then 3 else if uio then 1 else 0)
  else if state = 3 then 3
  else if !charge then 2
  else if uio || (can && m.rdB (rCanCtrl (p - 0x070)) 8) then 1
  else if p = 0x0E0 ∨ (0x0C0 ≤ p ∧ p ≤ 0x0C4) ∨ p = 0x0D0 then 0
  else 2

/-- The halves whose pages an entry asks. -/
def State.poweredHalves (s : State) : List HalfId := [HalfId.a, HalfId.b].filter (fun h => s.runs h)

/-- A page of one half as an entry's instants name it. -/
def entryKey (h : HalfId) (p : Nat) : Nat := halfNum h * 65536 + p

/-- Step 1 of R462: PG_PWR_REQ goes to every page of both halves at once, with one new TAG. -/
def State.askPages (s : State) (target : Nat) : State :=
  let tag := (s.yoke.pwr.tag + 1) % 256
  let l := s.poweredHalves.flatMap (fun h => powerPages.map (fun p => (h, p)))
  let ask (h : HalfId) (m : Half) : Half :=
    powerPages.foldl (fun m p => m.wrN (pgPwrReq p) (tag * 256 + m.powerTarget target (s.lease h) p)) m
  let s1 := s.poweredHalves.foldl (fun s h => s.upd h (ask h)) s
  s1.updPwr (fun x => { x with
    tag := tag, entryAt := s.yoke.now, stat := pwrStatWord true 0 0 0 target, entry := some ⟨target, tag, l, [], [], [], l.map (fun e => (entryKey e.1 e.2, s.yoke.now))⟩ })

/-- An entry that ends as it begins (Table 19.6). -/
def State.entryFails (s : State) (target result reason : Nat) : State :=
  (s.updPwr (fun x => { x with entry := some ⟨target, x.tag, [], [], [], [], []⟩ })).entryAbort result 0 reason

/-- R465: the bits of PWR.WAKE_EN. -/
def State.wakeOn (s : State) (reason : Nat) : Bool :=
  if reason = 6 ∨ reason = 7 then true else decide (1 ≤ reason) && decide (reason ≤ 5) && s.rdB .a rPwrWakeEn (reason - 1)

/-- R460, R462, R463: PWR.REQ names a state. -/
def State.powerReq (s : State) (target : Nat) : State × Nat :=
  let p := s.yoke.pwr
  if p.entry.isSome then (s, 8)
  else if target = p.state then (s.updPwr (fun x => { x with stat := pwrStatWord false 1 0 0 target }), 0)
  else if p.pfw then (s.entryFails target 6 0, 0)
  else if target = 0 ∨ target = 1 then
    if (target = 0 ∧ p.state = 1) ∨ (target = 1 ∧ p.state = 0) then
      if target = 1 then (s.askPages 1, 0)
      else
        let s0 := s.pwrReq (s.poweredHalves.flatMap (fun h => powerPages.map (fun p => (h, p)))) 0
        let s1 := s0.each (fun m => powerPages.foldl (fun m p => m.setPage p (m.page p).up) m)
        let s2 := (s1.updPwr (fun x => { x with entryAt := s.yoke.now, stat := pwrStatWord false 1 0 0 0 })).toPower 0 0
        (s2.irqAll 0x002 3, 0)
    else (s, 8)
  else if target = 2 then
    if p.state = 3 ∨ s.yoke.holder.isNone then (s, 8)
    else if (List.range 5).any (fun i => s.wakeOn (i + 1)) then (s.askPages 2, 0)
    else (s.entryFails 2 7 0, 0)
  else if (List.range 4).any (fun i => s.wakeOn (i + 2)) then (s.askPages 3, 0)
  else (s.entryFails 3 7 0, 0)

/-- R461: a block goes down to RETAIN or OFF, or stays as REDUCED. -/
def Half.powerDown (m : Half) (y : View) (state : Nat) (charge : Bool) (p : Nat) : Half :=
  let t := m.powerTarget state charge p
  let w := (m.page p).waking
  if t = 2 then m.setPage p ⟨false, false, w, true, (m.page p).fault⟩
  else if t = 3 then (m.pageReset y p).setPage p ⟨false, false, w, false, false⟩
  else if t = 1 ∧ 0x070 ≤ p ∧ p ≤ 0x07F then m.setPage p ⟨true, false, w, true, (m.page p).fault⟩
  else m

/-- R300: the violations that a sampler entry counts are those of consecutive wakes of one Fallow. -/
def Half.fsFresh (m : Half) : Half :=
  { m with uio := { m.uio with fs := (List.range 64).foldl (fun a i => sset fsReset a i { m.fsEnt i with run := 0 }) [] } }

/-- Step 4 of R462: every page has accepted, and the blocks go down: Quiet and Fallow are entered at once; for Dormant both halves first
make one granary store of KIND 3, and FROZEN is set (R469). -/
def State.entryDown (s : State) (target : Nat) : State :=
  let down (s : State) (h : HalfId) : State :=
    s.upd h (fun m => powerPages.reverse.foldl (fun m p => m.powerDown (s.view h) target (s.lease h) p) m)
  let done (s : State) : State :=
    (s.updPwr (fun x => { x with entry := none, stat := pwrStatWord false 1 0 0 target })).irqAll 0x002 3
  if target = 1 then
    let s1 := s.poweredHalves.foldl down s
    (done s1).toPower 1 0
  else if target = 2 then
    let s1 := (s.updPwr (fun x => { x with entry := none })).wr .a rPwrRetLost 0
    let s2 := s1.xferEnd 2
    let s3 := match s2.yoke.holder with
      | none => s2
      | some h =>
        let o := other h
        let s3 := (down s2 h).upd h (fun m => ((m.wr rRfxFsHit 0).wr rRfxFsVal 0).fsFresh)
        let s4 := if s3.role o = .follower then s3.setRole o .muted 7 else s3
        if s4.role o = .muted then s4.updY o (fun y => { y with inRet := true }) else s4
    (done s3).toPower 2 0
  else
    let s1 := s.wr .a rPwrRetLost 0
    let go (s : State) (h : HalfId) : State :=
      if s.role h = .retired ∨ (s.yh h).boot.isSome then s
      else (s.updY h (fun y => { y with storing := true, inRet := false })).upd h (fun m =>
        m.updG (fun g => { g with request := some (3, none) }))
    go (go s1 .a) .b

/-- The entry goes on once every page has accepted. -/
def State.entryStep (s : State) : State :=
  match s.yoke.pwr.entry with
  | some e => if e.waiting.isEmpty ∧ e.paused.isEmpty then s.entryDown e.target else s
  | none => s

/-- Power-down has begun: no wake source stops the entry any more (R463). -/
def State.goingDown (s : State) : Bool :=
  match s.yoke.pwr.entry with
  | some e => e.waiting.isEmpty && e.paused.isEmpty
  | none => false

/-- R277, Table 19.5, R401: what a page's own rule answers to the request it holds, and none where the block decides for itself: answer
and value. -/
def Half.powerRule (m : Half) (p : Nat) : Option (Nat × Nat) :=
  let t := m.rdF (pgPwrReq p) 0 2
  if 2 ≤ t ∧ ((0x030 ≤ p ∧ p ≤ 0x038) ∨ p = 0x040) ∧ (m.rdB rDrlcCtrl 0 ∨ m.rdB rTlrCtrl 0) then some (3, 1)
  else if 2 ≤ t ∧ 0x060 ≤ p ∧ p ≤ 0x06E ∧ m.nrgRefuses then some (3, 1)
  else if t = 3 ∧ p = 0x0F0 then some (if m.fost.self = 1 ∧ m.fost.sleeping ≠ 2 then (2, 100) else (1, 0))
  else none

/-- R401: the FOST page of a protected module tells its foster before it answers. -/
def Half.sleepNotice (m : Half) (y : View) (p : Nat) : Half :=
  if p = 0x0F0 ∧ m.rdF (pgPwrReq p) 0 2 = 3 ∧ m.fost.self = 1 ∧ m.fost.sleeping = 0 then
    (m.updF (fun f => { f with sleeping := 1 })).fostCtrl y m.foster 7 []
  else m

/-- PAGE_POWER_ANSWER (R462). -/
def State.powerAnswer (s : State) (h : HalfId) (page : Nat) (x : PowerAnswer) : State :=
  match s.yoke.pwr.entry with
  | none => s
  | some e =>
    if (h, page) ∉ e.waiting then s
    else
      let m := s.half h
      let (ans, v) := (m.powerRule page).getD (x.ans % 4, x.value % 256)
      if ans = 0 then s
      else
        let tag := m.rdF (pgPwrReq page) 8 8
        let s1 := s.upd h (fun m => (m.sleepNotice (s.view h) page).wrN (pgPwrRsp page)
          (tag * 2 ^ 24 + (if ans = 3 then v * 2 ^ 16 else 0) + (if ans = 2 then v * 2 ^ 8 else 0) + ans))
        let rest := e.waiting.filter (fun q => decide (q ≠ (h, page)))
        if ans = 3 then s1.entryAbort 2 page v
        else if ans = 2 then
          let n := ((e.delays.find? (fun d => decide (d.1 = h) && decide (d.2.1 = page))).map (·.2.2)).getD 0 + 1
          if 4 ≤ n then s1.entryAbort 4 page 0xFE
          else s1.updPwr (fun p => { p with entry := some { e with
            waiting := rest, paused := e.paused ++ [(h, page)], since := sput e.since (entryKey h page) s.yoke.now
            delays := (h, page, n) :: e.delays.filter (fun d => decide (d.1 ≠ h) || decide (d.2.1 ≠ page)) } })
        else (s1.updPwr (fun p => { p with entry := some { e with waiting := rest, accepted := e.accepted ++ [(h, page)] } })).entryStep

/-- POWER_DELAY_EXPIRY (R462): a new request to the page, with a new TAG, after DELAY_MS. -/
def State.powerAgain (s : State) (h : HalfId) (page : Nat) : State :=
  match s.yoke.pwr.entry with
  | none => s
  | some e =>
    let due := (sfind e.since (entryKey h page)).getD 0 + (s.half h).rdF (pgPwrRsp page) 8 8 * oneMs
    if (h, page) ∉ e.paused ∨ s.yoke.now < due then s
    else
      let s1 := s.pwrReq [(h, page)] ((s.half h).rdF (pgPwrReq page) 0 2)
      s1.updPwr (fun p => { p with entry := some { e with
        waiting := e.waiting ++ [(h, page)], paused := e.paused.filter (fun q => decide (q ≠ (h, page)))
        since := sput e.since (entryKey h page) s.yoke.now } })

/-- POWER_ANSWER_TIMEOUT (R462): a page has not answered within 1 ms. -/
def State.powerLate (s : State) (h : HalfId) (page : Nat) : State :=
  match s.yoke.pwr.entry with
  | some e =>
    if (h, page) ∈ e.waiting ∧ (sfind e.since (entryKey h page)).getD 0 + oneMs ≤ s.yoke.now then s.entryAbort 3 page 0xFF else s
  | none => s

/-- R468, Table 19.8: a lost bank of the half that wakes: its region is rebuilt from its source. -/
def Half.rebuild (m : Half) (y : View) (region : Nat) : Half :=
  if region = 1 then (m.cfgDrill).drillBack true
  else if region = 2 then ({ m with tlr := { m.tlr with desc := [], loops := [] } }).cfgTiller.cfgLoops y
  else if region = 3 then
    (m.can.foldl (fun m (e : Nat × CanSt) => m.updCan e.1 (fun x => { x with objs := [], hash := [], waits := [] })) m).cfgCan
  else m

/-- R467, R468: PWR.RET_LOST and event 0x0306 for each lost bank. -/
def State.bankLost (s : State) (x : LostBank) : State :=
  let charge := s.lease x.half
  let s1 := s.wr .a rPwrRetLost (putFlag (s.rd .a rPwrRetLost) (x.bank % 32) true)
  let s2 := if charge then s1.upd x.half (fun m => m.rebuild (s.view x.half) x.region) else s1
  s2.evAll 0x0306 (halfNum x.half) (x.bank % 32) (if !charge then 3 else if x.region = 0 then 1 else 2) 0

/-- R466: the wake from Fallow: the half in charge powers its blocks, by requests with TARGET ON (Table 2.8), and the other half leaves retention and rejoins by state
transfer. -/
def State.fallowWake (s : State) (reason : Nat) (lost : List LostBank) : State :=
  let s0 := s.updPwr (fun p => { p with entryAt := s.yoke.now })
  let s1 := lost.foldl (fun s x => s.bankLost x) (s0.wakeLatch reason)
  let up (s : State) (h : HalfId) : State :=
    (s.pwrReq (powerPages.map (fun p => (h, p))) 0).upd h (fun m =>
      powerPages.foldl (fun m p => if (m.page p).retained then m.setPage p (m.page p).up else m) m)
  let s2 := s1.poweredHalves.foldl up s1
  let out (s : State) (h : HalfId) : State :=
    if (s.yh h).inRet then
      let s1 := up (s.updY h (fun y => { y with inRet := false })) h
      if s1.joins h && !s1.frozen then s1.startXfer h else s1
    else s
  (out (out (s2.toPower 0 reason) .a) .b)

/-- R465, R463: a wake source has fired and is accepted. A wake from Dormant starts both halves as a warm restart (R469). -/
def State.wakeNow (s : State) (reason : Nat) (lost : List LostBank) : State :=
  let p := s.yoke.pwr
  if p.state = 2 ∧ s.goingDown then
    (if reason = 1 ∨ 6 ≤ reason then s else (s.wakeLatch reason).updPwr (fun p => { p with due := true, causes := 0 }))
  else if p.state = 2 then (if reason = 6 then s else if p.entry.isSome then (s.entryAbort 5 0 reason).fallowWake reason lost
    else s.fallowWake reason lost)
  else if p.state = 3 then
    if reason = 1 ∨ reason = 7 ∨ p.due then s
    else (s.wakeLatch reason).updPwr (fun p => { p with held := true, due := true, causes := 0, entryAt := s.yoke.now })
  else if p.entry.isSome ∧ 2 ≤ ((p.entry.map (·.target)).getD 0) then
    if s.goingDown then (s.wakeLatch reason).updPwr (fun p => { p with due := true, causes := 0 })
    else s.entryAbort 5 0 reason
  else s

/-- R465: a wake source fires, and is accepted while its bit of PWR.WAKE_EN is 1. -/
def State.wakeUp (s : State) (reason : Nat) (lost : List LostBank) : State :=
  if s.wakeOn reason then s.wakeNow reason lost else s

/-- Dormant is entered: the halves are powered off, and the Yoke closes the relays (R469). A wake that has fired since power-down began
is handled at once (R463). -/
def State.dormant (s : State) : State :=
  let s1 := ((s.relayClose 4).updPwr (fun x => { x with entry := none, stat := pwrStatWord false 1 0 0 3 })).irqAll 0x002 3
  let s2 := (s1.toPower 3 0).dropLease
  let off (m : Half) : Half := powerPages.foldl (fun m p => m.setPage p ⟨false, false, false, false, false⟩) m
  let s3 := s2.both off
  if s3.yoke.pwr.due then s3.updPwr (fun p => { p with held := true }) else s3

/-- The halves are held in reset: the lease ends, and the relays close (R453, R362). -/
def State.holdHalves (s : State) (relay : Nat) : State :=
  ((s.relayClose relay).dropLease).updPwr (fun p => { p with held := true, entry := none })

/-- A half stops what a restart interrupts, and its power-fail store is to come (R440, R439). -/
def Half.failing (m : Half) : Half := m.storeAbandon.loadEnd 0x0A

/-- R453: what PFW stops in a half at once (R174, Table 9.7, R154). -/
def Half.pfwStops (m : Half) (y : View) : Half := ((m.drlPfw.loopsStop).sheafPfw y).failing

/-- The halves that still have a power-fail store to make. -/
def State.storing (s : State) : Bool := s.yoke.a.storing || s.yoke.b.storing

/-- R529: a start that is interrupted before the first lease grant returns to reset without a store. -/
def State.startAgain (s : State) : State :=
  let s1 := s.holdHalves 2
  (s1.updY .a (fun y => { y with ready := none, storing := false })).updY .b (fun y => { y with ready := none, storing := false })

/-- R453 to R457: the combined supply has fallen below the PFW threshold. -/
def State.pfwAssert (s : State) (va vb : Nat) : State :=
  let p := s.yoke.pwr
  let set (s : State) : State := s.updPwr (fun x => { x with pfw := true, holdup := true })
  if p.pfw then s
  else if p.state = 3 then
    (set s).keepRec ⟨0x0304, va, vb, 3, 0, BitVec.ofNat 64 s.rtcTai⟩
  else
    let s0 := (set s).updPwr (fun x => { x with due := true, causes := x.causes ||| 0x20 })
    if p.held then s0
    else if !s.yoke.granted then s0.startAgain
    else
      let s1 := ((s0.irqAll 0x002 0).evAll 0x0304 va vb p.state 0).entryAbort 6 0 0
      let s2 := (s1.xferEnd 3).updYk (fun k => { k with handover := none, chall := none })
      let go (s : State) (h : HalfId) : State :=
        if s.runs h ∧ !(s.yh h).storing then
          let s1 := s.updY h (fun y => { y with storing := true })
          s1.upd h (fun m => m.pfwStops (s1.view h))
        else s
      go (go s2 .a) .b

/-- R69, R515, R527: the halves run Table 19.2 from the energy snapshot round onwards, with the lease withdrawn; a start is to come with
the causes given. -/
def State.failStart (s : State) (causes : Nat) (cold : Bool) (relay : Nat) : State :=
  let s0 := s.updPwr (fun x => { x with due := true, causes := x.causes ||| causes, cold := x.cold || cold })
  if s.yoke.pwr.held then s0
  else if s.yoke.pwr.state = 3 then s0.updPwr (fun x => { x with held := true })
  else if !s.yoke.granted then s0.startAgain
  else
    let s1 := (((s0.dropLease).relayClose relay).xferEnd 2).updPwr (fun x => { x with entry := none })
    let s2 := s1.updYk (fun k => { k with handover := none, chall := none })
    let go (s : State) (h : HalfId) : State :=
      if s.runs h ∧ !(s.yh h).storing then
        let s1 := s.updY h (fun y => { y with storing := true })
        s1.upd h (fun m => m.drlPfw.failing.snapshotRound (s1.view h))
      else s
    go (go s2 .a) .b

/-- R437, R453, R469: a store's programming and verification end. The end of the last power-fail store puts the halves in reset, or the
module in Dormant. -/
def State.storeProgrammed (s : State) (h : HalfId) (ok : Bool) : State :=
  let last := decide ((s.half h).grn.busy.map (·.kind) = some 3)
  let s1 := s.upd h (fun m => m.storeEnd ok)
  if !last then s1
  else
    let s2 := s1.updY h (fun y => { y with storing := false })
    if s2.storing then s2
    else if s2.goingDown then s2.dormant
    else if s2.yoke.pwr.due then s2.holdHalves (if s2.yoke.pwr.pfw then 1 else 2)
    else s2

/-- R454, R457: the supply has stayed above the release threshold for 10 ms. -/
def State.pfwRelease (s : State) : State :=
  if !s.yoke.pwr.pfw then s
  else
    let s1 := s.updPwr (fun x => { x with pfw := false, holdup := false })
    if s1.yoke.pwr.state = 3 then s1.wakeUp 6 [] else s1

/-- R452: one input has fallen below its threshold, or returned, while the other holds. b: VIN_B. -/
def State.inputChanged (s : State) (b low : Bool) (mv o : Nat) : State :=
  if (if b then s.yoke.pwr.lowB else s.yoke.pwr.lowA) = low then s
  else
    let s1 := s.updPwr (fun x => if b then { x with lowB := low } else { x with lowA := low })
    (s1.irqAll 0x002 1).evAll 0x0301 b.toNat low.toNat mv o

/-- R527: RST_N has been low for 10 µs. -/
def State.rstAssert (s : State) : State :=
  if s.yoke.pwr.rstAt.isSome then s
  else (s.updPwr (fun x => { x with rstAt := some s.yoke.now })).failStart 2 false 2

/-- R527, R526: RST_N is released; a low period of 5 s or more makes the start cold. -/
def State.rstRelease (s : State) : State :=
  match s.yoke.pwr.rstAt with
  | none => s
  | some t => s.updPwr (fun x => { x with rstAt := none, cold := x.cold || decide (t + 5 * oneSec ≤ s.yoke.now) })

/-- R69: SYS.CTRL.RESTART; discarded while PFW is asserted. -/
def State.restartCmd (s : State) (v : Word) : State × Nat :=
  if s.yoke.pwr.pfw then (s, 0) else (s.failStart 8 (flag v 30) 2, 0)

/-- R300: the value of a sampler entry lies outside its window. -/
def FsEnt.bad (e : FsEnt) (v : Int) : Bool := decide (v < e.lo.toInt) || decide (e.hi.toInt < v)

/-- R300: the value of a sampler entry, from its source as the state has it and from what was converted: a terminal's primary value, a
contact's level, or the RMS of an energy input in µV. None where the entry names no such source or nothing was converted. -/
def Half.fsValue (m : Half) (i : Nat) (l : List Int) : Option Int :=
  let e := (m.fsEnt i).ent
  let t := fld e 0 8
  let k := m.uioMode t
  let level : Int := (m.rdB (rUiogLevel (t / 16)) (t % 16)).toNat
  let rms : Int := (rawRms l).toNat
  if fld e 28 2 = 0 then
    if k = 0 then some 0
    else if k = 5 ∨ k = 6 then some level
    else if 8 ≤ k then some (m.rdN (rUiogDrv (t / 16) (t % 16)))
    else l.head?.map (m.analogPrim t)
  else if fld e 28 2 = 1 then (if k = 5 ∨ k = 6 then some level else none)
  else if l.isEmpty ∨ (if fld e 28 2 = 2 then 32 else 192) ≤ t then none
  else some rms

/-- R300: one wake of the sampler: each enabled entry is judged, and the first one at CONSEC violations in a row is answered, with its value. -/
def Half.fsWake (m : Half) (vals : List (Nat × List Int)) : Half × Option (Nat × Int) :=
  let l := ((List.range 64).filter (fun i => flag (m.fsEnt i).ent 31)).filterMap (fun i =>
    (m.fsValue i ((sfind vals i).getD [])).map (fun v => (i, v)))
  let m1 := l.foldl (fun m e =>
    let x := m.fsEnt e.1
    m.setFs e.1 { x with run := if x.bad e.2 then min (x.run + 1) 15 else 0 }) m
  (m1, l.find? (fun e => decide (m.rdF rRfxFsCtrl 16 4 ≤ (m1.fsEnt e.1).run) && (m.fsEnt e.1).bad e.2))

/-- SAMPLER_WAKE (R300). -/
def State.samplerWake (s : State) (x : SamplerInput) : State :=
  match s.yoke.holder with
  | none => s
  | some h =>
    if s.yoke.pwr.state ≠ 2 ∨ !s.runs h ∨ !(s.half h).rdB rRfxFsCtrl 31 then s
    else
      match (s.half h).fsWake x.vals with
      | (m1, none) => s.set h m1
      | (m1, some (i, v)) =>
        let e := m1.fsEnt i
        let m2 := ((m1.wrN rRfxFsHit (2 ^ 31 + i)).wr rRfxFsVal (iword v)).ev 0x0D08 i (iword v).toNat e.lo.toNat e.hi.toNat
        (s.set h m2).wakeUp 1 []

/-- CAN_WAKE_PATTERN (R319). -/
def State.canWake (s : State) (c : Nat) : State :=
  let on (m : Half) : Bool := m.rdB (rCanCtrl c) 8
  if s.yoke.pwr.state < 2 ∨ !(on s.a || on s.b) then s
  else
    let f (m : Half) : Half := (m.irq (0x070 + c) 5).ev 0x0E08 c 0 0 0
    (s.each f).wakeUp 4 []

/-- MZ_WAKE_RECEIVE (R377). -/
def State.mzWake (s : State) (f : MzFrame) : State :=
  let m := if s.runs .a then s.a else s.b
  if s.yoke.pwr.state < 2 ∨ f.kind ≠ 2 ∨ !(decide (f.dest = m.addr) || decide (f.dest = 0xFFFF))
      ∨ leAt f.payload 0 4 ≠ m.rdN rMzWakeCode then s
  else (s.each (fun m => m.ev 0x110A f.src (leAt f.payload 4 1) 0 0)).wakeUp 3 []

/-- SAMPLER_WAKE (R300). -/
def execSamplerWake (x : SamplerInput) (s : State) : Host.Outcome State Fault Refusal := .next (s.samplerWake x)

/-- CAN_WAKE_PATTERN (R319). -/
def execCanWakePattern (c : Fin 16) (s : State) : Host.Outcome State Fault Refusal := .next (s.canWake c.val)

/-- MZ_WAKE_RECEIVE (R377). -/
def execMzWakeReceive (f : MzFrame) (s : State) : Host.Outcome State Fault Refusal := .next (s.mzWake f)

/-- STORE_PROGRAMMED (R437). -/
def execStoreProgrammed (h : HalfId) (ok : Bool) (s : State) : Host.Outcome State Fault Refusal :=
  .next (s.onHalf h (fun s => s.storeProgrammed h ok))

/-- PFW_ASSERT (R453). -/
def execPfwAssert (va vb : Nat) (s : State) : Host.Outcome State Fault Refusal := .next (s.pfwAssert va vb)

/-- PFW_RELEASE (R454). -/
def execPfwRelease (s : State) : Host.Outcome State Fault Refusal := .next s.pfwRelease

/-- INPUT_CHANGED (R452). -/
def execInputChanged (b low : Bool) (mv o : Nat) (s : State) : Host.Outcome State Fault Refusal := .next (s.inputChanged b low mv o)

/-- REQ_WORKING (R460). -/
def execReqWorking (h : HalfId) (r : Req) (s : State) : Host.Outcome State Fault Refusal :=
  .next (s.yokeCmd h r rPwrReq 0 (fun _ s => s.powerReq 0))

/-- REQ_QUIET (R460). -/
def execReqQuiet (h : HalfId) (r : Req) (s : State) : Host.Outcome State Fault Refusal :=
  .next (s.yokeCmd h r rPwrReq 1 (fun _ s => s.powerReq 1))

/-- REQ_FALLOW (R460). -/
def execReqFallow (h : HalfId) (r : Req) (s : State) : Host.Outcome State Fault Refusal :=
  .next (s.yokeCmd h r rPwrReq 2 (fun _ s => s.powerReq 2))

/-- REQ_DORMANT (R460). -/
def execReqDormant (h : HalfId) (r : Req) (s : State) : Host.Outcome State Fault Refusal :=
  .next (s.yokeCmd h r rPwrReq 3 (fun _ s => s.powerReq 3))

/-- PAGE_POWER_ANSWER (R462). -/
def execPagePowerAnswer (h : HalfId) (page : Nat) (x : PowerAnswer) (s : State) : Host.Outcome State Fault Refusal :=
  .next (s.powerAnswer h page x)

/-- POWER_DELAY_EXPIRY (R462). -/
def execPowerDelayExpiry (h : HalfId) (page : Nat) (s : State) : Host.Outcome State Fault Refusal := .next (s.powerAgain h page)

/-- POWER_ANSWER_TIMEOUT (R462). -/
def execPowerAnswerTimeout (h : HalfId) (page : Nat) (s : State) : Host.Outcome State Fault Refusal := .next (s.powerLate h page)

/-- WAKE (R465). -/
def execWake (reason : Nat) (lost : List LostBank) (s : State) : Host.Outcome State Fault Refusal := .next (s.wakeUp reason lost)

/-- RST_N_ASSERT (R527). -/
def execRstNAssert (s : State) : Host.Outcome State Fault Refusal := .next s.rstAssert

/-- RST_N_RELEASE (R527). -/
def execRstNRelease (s : State) : Host.Outcome State Fault Refusal := .next s.rstRelease

/-- RESTART (R69): SYS.CTRL written with RESTART. -/
def execRestart (h : HalfId) (r : Req) (cold : Bool) (s : State) : Host.Outcome State Fault Refusal :=
  .next (s.yokeCmd h r rSysCtrl (putFlag (putFlag 0 31 true) 30 cold) (fun _ s => s.restartCmd (putFlag 0 30 cold)))

end Sys2Proof.Machine
end

