-- ==== Sys2Proof/Machine/Rtc.lean ====
section
/-! DEFINITION. The real-time clock's second boundaries, commands, compensation, supply detectors and alarms (R408 to R418, R423). -/
namespace Sys2Proof.Machine

/-- The time base as the module's running halves count it: of the half in charge where there is one. -/
def State.timeBase (s : State) : Nat :=
  match s.yoke.holder with
  | some h => (s.half h).tai.toNat
  | none => if s.runs .a then s.a.tai.toNat else s.b.tai.toNat

/-- Any half runs. -/
def State.anyRuns (s : State) : Bool := s.runs .a || s.runs .b

/-- R415, R416: a loss of time is recorded by the halves that run, or at the next start. -/
def State.rtcLoss (s : State) (code p0 p1 : Nat) : State :=
  if s.anyRuns then s.evAll code p0 p1 0 0
  else s.updRtc (fun r => { r with late := r.late ++ [⟨code, p0, p1, 0, 0, BitVec.ofNat 64 s.rtcTai⟩] })

/-- R423: the RTC reloaded from the time base, keeping OFFSET and DST. -/
def State.rtcFromBase (s : State) : State :=
  let t := s.timeBase
  s.updRtc (fun r =>
    let local_ : Int := (t / oneSec : Nat) - r.taiUtc + r.offset * 60 + (if r.dst then 3600 else 0)
    { r.setLocal local_ with secAt := (s.yoke.now : Int) - (t % oneSec : Nat), valid := true, reload := false })

/-- The seconds by which a boundary moves the calendar: 0 at the end of the range (R409) and for the extra second of leap61, 2 where
leap59 omits a second (R423), else 1. -/
def Rtc.advance (r : Rtc) (locked : Bool) : Nat :=
  if r.atEnd then 0
  else if locked ∧ r.leap = 1 ∧ r.utc % 86400 = 86399 ∧ !r.held then 0
  else if locked ∧ r.leap = 2 ∧ r.utc % 86400 = 86398 then 2
  else 1

/-- R423: what the boundary does with an announced leap: the clock after it, and the sign of event 0x040A, 0 for none. -/
def Rtc.leapStep (r : Rtc) (locked : Bool) : Rtc × Int :=
  if r.advance locked = 2 then ({ r with leap := 0, taiUtc := (r.taiUtc + 255) % 256 }, -1)
  else if r.held then ({ r with leap := 0, held := false, taiUtc := (r.taiUtc + 1) % 256 }, 1)
  else if r.advance locked = 0 ∧ !r.atEnd then ({ r with held := true }, 0)
  else (r, 0)

/-- R412: a pending summer-time command takes effect at the boundary. -/
def State.dstStep (s : State) : State :=
  let r := s.yoke.rtc
  if r.pend = 0 then s
  else
    let on := decide (r.pend = 1)
    let s1 := s.updRtc (fun r => { r.setLocal ((r.localSec : Int) + (if on then 3600 else -3600)) with dst := on, pend := 0 })
    s1.evAll 0x0405 on.toNat (s1.rtcT 2).toNat (s1.rtcT 1).toNat 0

/-- R421: in FREE the time base is steered towards the RTC at each of its seconds, by ±100 ppm at most. -/
def Half.freeSteer (m : Half) (rtc : Nat) : Half :=
  if m.tim.source = 0 then
    { m with tim := { m.tim with rate := max (-100000) (min 100000 (Config.steer ((rtc : Int) - m.tai.toNat))) } }
  else m

/-- RTC_SECOND (R408, R409, R412, R423). -/
def State.rtcSecond (s : State) : State :=
  let r := s.yoke.rtc
  let locked := s.locked
  let n := r.advance locked
  let (r1, leap) := r.leapStep locked
  let r2 := { r1.setLocal ((r.localSec : Int) + n) with secAt := (s.yoke.now : Int) }
  let r3 := match r2.utcNew with
    | some u => if locked then { r2 with taiUtc := u, utcNew := none } else { r2 with utcNew := none }
    | none => r2
  let s1 := s.updRtc (fun _ => r3)
  let s2 := if leap = 0 then s1
    else (s1.evAll 0x040A (BitVec.ofInt 32 leap).toNat r3.taiUtc 0 0).irqAll 0x0C8 3
  let s3 := s2.dstStep
  let s4 := if s3.yoke.rtc.reload ∧ !s3.yoke.rtc.atEnd then s3.rtcFromBase else s3
  let s5 := if s4.yoke.rtc.atEnd ∧ !s4.yoke.rtc.calEnd then
      ((s4.updRtc (fun r => { r with calEnd := true })).evAll 0x040B 0 0 0 0).irqAll 0x003 3
    else s4
  s5.each (fun m => m.freeSteer s5.rtcTai)

/-- R418: an alarm fires: PG_IRQ_RAW bit 0, and in Fallow and Dormant a wake with the reason RTC alarm. -/
def State.alarm (s : State) : State :=
  let s1 := s.irqAll 0x003 0
  if 2 ≤ s1.yoke.pwr.state then s1.wakeUp 5 [] else s1

/-- INTERVAL_ALARM (R418): SECONDS after it was armed, and again at that interval while REPEAT is 1. -/
def State.intervalAlarm (s : State) : State :=
  let v := s.rd .a rRtcAlmIvl
  let t := s.yoke.rtc.almAt + fld v 0 17 * oneSec
  if !flag v 31 ∨ s.yoke.now < t then s
  else (if flag v 30 then s.updRtc (fun r => { r with almAt := t }) else s.wr .a rRtcAlmIvl (putFlag v 31 false)).alarm

/-- TIME_OF_DAY_ALARM (R418): second 0 of a local minute whose hour, minute and weekday match. -/
def State.todAlarm (s : State) : State :=
  let v := s.rd .a rRtcAlmTod
  let r := s.yoke.rtc
  if flag v 31 ∧ r.sec = 0 ∧ r.min = fld v 0 6 ∧ r.hour = fld v 8 5 ∧ flag v (15 + weekday r.year r.month r.day) then s.alarm else s

/-- RTC_SET (R411): refused with REFUSED while the source is LOCKED, and with RANGE where a check fails. -/
def State.rtcSet (s : State) (st : Stamp) : State × Nat :=
  if s.locked then (s, 8)
  else
    match rtcStaged ((List.range 4).map (fun i => s.rd .a (rRtcS i))) with
    | none => (s, 5)
    | some w =>
      let old := s.yoke.rtc.tai
      let s1 := s.updRtc (fun r => { r with
        secAt := (s.yoke.now : Int), sec := w.sec, min := w.min, hour := w.hour, day := w.day, month := w.month, year := w.year
        dst := w.dst, taiUtc := w.taiUtc, offset := w.offset, valid := true, pend := 0, calEnd := false, held := false, reload := false })
      let s2 := s1.evAll 0x0404 (BitVec.ofInt 32 old).toNat (BitVec.ofInt 32 s1.yoke.rtc.tai).toNat st.toNat 0
      (s2.stepAll s2.rtcTai 1, 0)

/-- DST_ON and DST_OFF (R412). -/
def State.dstCmd (s : State) (on : Bool) : State × Nat :=
  let r := s.yoke.rtc
  if r.dst = on ∨ r.pend ≠ 0 then (s, 8) else (s.updRtc (fun r => { r with pend := if on then 1 else 2 }), 0)

/-- COMP_APPLY (R414). -/
def State.compApply (s : State) (st : Stamp) : State × Nat := (s.updRtc (fun r => { r with apply_ := some st }), 0)

/-- COMP_FACTORY (R414): the factory set goes into staging. -/
def State.compFactory (s : State) : State × Nat :=
  ((List.range 4).foldl (fun s i => s.wr .a (rRtcCompS i) (Config.compFactory i)) s, 0)

/-- R413: the correction count of a window at a die temperature in 1/16 °C, from the coefficients C0 to C3. -/
def compCount (c : List Word) (temp : Int) : Int :=
  let d := temp - 400
  let co (i : Nat) : Int := (c.getD i 0).toInt
  let e := co 0 * 2 ^ 32 + co 1 * d * 2 ^ 20 + co 2 * d * d * 2 ^ 12 + co 3 * d * d * d
  let n := -e
  let den : Int := 2 ^ 17 * 1000000
  let q : Int := ((2 * n.natAbs + den.natAbs) / (2 * den.natAbs) : Nat)
  max (-2097) (min 2097 (if n < 0 then -q else q))

/-- R414: the applied user set is kept in the granary's system state. -/
def Half.compKeep (m : Half) (l : List Word) : Half :=
  if m.grn.frozen then m else m.gPut (29 * 64) (l.flatMap (fun w => leBytes 4 w.toNat) ++ [1])

/-- COMP_WINDOW (R413, R414). -/
def State.compWindow (s : State) (temp : Int) : State :=
  let s1 := match s.yoke.rtc.apply_ with
    | none => s
    | some st =>
      let l := (List.range 4).map (fun i => s.rd .a (rRtcCompS i))
      let new := decide (l ≠ s.yoke.rtc.coef)
      let s1 := s.updRtc (fun r => { r with comp := some l, user := true, apply_ := none })
      (s1.evAll 0x0406 (l.getD 0 0).toNat (l.getD 2 0).toNat st.toNat 0).each (fun m =>
        (if new then m.gen 0x003 else m).compKeep l)
  s1.updRtc (fun r => { r with temp := temp, compN := compCount r.coef temp })

/-- VRTC_SWITCHOVER (R415). -/
def State.switchover (s : State) : State :=
  let t := BitVec.ofNat 64 s.rtcTai
  let s1 := s.updRtc (fun r => { r with
    backup := true, swo := true, swoTime := if r.swo then r.swoTime else t, swoCnt := stickTo 0xFFFFFFFF r.swoCnt 1 })
  let r := s1.yoke.rtc
  (s1.keepRec ⟨0x0403, (loWord r.swoTime).toNat, (hiWord r.swoTime).toNat, r.swoCnt, 0, t⟩).irqAll 0x003 2

/-- VLOW_DETECT (R416, Table 17.2): VRTC has fallen below its threshold, and the Yoke's records are lost with it (R511). -/
def State.vlowDetect (s0 : State) : State :=
  let s := s0.updYk (fun k => { k with recs := [], recsLost := 0 })
  if s.yoke.rtc.vlow then s
  else
    let s1 := s.updRtc (fun r => { r with vlow := true, valid := false })
    (s1.rtcLoss 0x0402 s1.yoke.rtc.stat s1.yoke.rtc.swoCnt).irqAll 0x003 1

/-- OSC_STOPPED (R416, Table 17.2): the time restarts at 2000-01-01 00:00:00 local, with the zone of first power-up. -/
def State.oscStopped (s : State) : State :=
  let s1 := s.updRtc (fun r => { r with
    secAt := (s.yoke.now : Int), sec := 0, min := 0, hour := 0, day := 1, month := 1, year := 2000
    dst := false, taiUtc := 37, offset := 0, osf := true, valid := false, swo := false, pend := 0, leap := 0, held := false, utcNew := none, reload := false })
  (s1.rtcLoss 0x0401 s1.yoke.rtc.stat 0).irqAll 0x003 1

/-- RTC_RELOAD_CHECK (R423). -/
def State.reloadCheck (s : State) : State :=
  let d := ((s.rtcTai : Int) - s.timeBase).natAbs
  if s.locked ∧ 2 * oneMs < d then s.updRtc (fun r => { r with reload := true }) else s

/-- RTC_SECOND (R408). -/
def execRtcSecond (s : State) : Host.Outcome State Fault Refusal := .next s.rtcSecond

/-- INTERVAL_ALARM (R418). -/
def execIntervalAlarm (s : State) : Host.Outcome State Fault Refusal := .next s.intervalAlarm

/-- TIME_OF_DAY_ALARM (R418). -/
def execTimeOfDayAlarm (s : State) : Host.Outcome State Fault Refusal := .next s.todAlarm

/-- RTC_SET (R411). -/
def execRtcSet (h : HalfId) (r : Req) (s : State) : Host.Outcome State Fault Refusal :=
  .next (s.yokeCmd h r rRtcCmd 1 (fun _ s => s.rtcSet (reqStamp r)))

/-- DST_ON (R412). -/
def execDstOn (h : HalfId) (r : Req) (s : State) : Host.Outcome State Fault Refusal :=
  .next (s.yokeCmd h r rRtcCmd 2 (fun _ s => s.dstCmd true))

/-- DST_OFF (R412). -/
def execDstOff (h : HalfId) (r : Req) (s : State) : Host.Outcome State Fault Refusal :=
  .next (s.yokeCmd h r rRtcCmd 3 (fun _ s => s.dstCmd false))

/-- CLR_OSF (R416). -/
def execClrOsf (h : HalfId) (r : Req) (s : State) : Host.Outcome State Fault Refusal :=
  .next (s.yokeCmd h r rRtcCmd 4 (fun _ s => (s.updRtc (fun x => { x with osf := false }), 0)))

/-- CLR_VLOW (R416). -/
def execClrVlow (h : HalfId) (r : Req) (s : State) : Host.Outcome State Fault Refusal :=
  .next (s.yokeCmd h r rRtcCmd 5 (fun _ s => (s.updRtc (fun x => { x with vlow := false }), 0)))

/-- CLR_SWO (R415, Table 17.8). -/
def execClrSwo (h : HalfId) (r : Req) (s : State) : Host.Outcome State Fault Refusal :=
  .next (s.yokeCmd h r rRtcCmd 6 (fun _ s => (s.updRtc (fun x => { x with swoTime := 0, swo := false, swoCnt := 0 }), 0)))

/-- COMP_APPLY (R414). -/
def execCompApply (h : HalfId) (r : Req) (s : State) : Host.Outcome State Fault Refusal :=
  .next (s.yokeCmd h r rRtcCmd 7 (fun _ s => s.compApply (reqStamp r)))

/-- COMP_FACTORY (R414). -/
def execCompFactory (h : HalfId) (r : Req) (s : State) : Host.Outcome State Fault Refusal :=
  .next (s.yokeCmd h r rRtcCmd 8 (fun _ s => s.compFactory))

/-- COMP_WINDOW (R413). -/
def execCompWindow (temp : Int) (s : State) : Host.Outcome State Fault Refusal := .next (s.compWindow temp)

/-- VRTC_SWITCHOVER (R415). -/
def execVrtcSwitchover (s : State) : Host.Outcome State Fault Refusal := .next s.switchover

/-- VLOW_DETECT (R416). -/
def execVlowDetect (s : State) : Host.Outcome State Fault Refusal := .next s.vlowDetect

/-- OSC_STOPPED (R416). -/
def execOscStopped (s : State) : Host.Outcome State Fault Refusal := .next s.oscStopped

/-- RTC_RELOAD_CHECK (R423). -/
def execRtcReloadCheck (s : State) : Host.Outcome State Fault Refusal := .next s.reloadCheck

end Sys2Proof.Machine
end

