-- ==== Sys2Proof/Machine/Ptp.lean ====
section
/-! DEFINITION. The PTP commands: messages that arrive and leave, and the time source's timers (R421 to R425). -/
namespace Sys2Proof.Machine

/-- R423: what a LOCKED master's Announce tells the RTC: currentUtcOffset at the next second boundary, and an announced leap. -/
def State.masterUtc (s : State) : State :=
  let m := match s.yoke.holder with
    | some h => s.half h
    | none => if s.runs .a then s.a else s.b
  match m.tim.master with
  | some a =>
    if m.tim.source ≠ 2 then s
    else s.updRtc (fun r => { r with
      utcNew := if a.utcOk ∧ a.utcOff.toNat % 256 ≠ r.taiUtc then some (a.utcOff.toNat % 256) else none
      leap := if a.leap61 then 1 else if a.leap59 then 2 else 0 })
  | none => s

/-- A message that arrives on a PTP port: ports 1 and 2 are building ports, port 3 the Merzin link. -/
def State.ptpInput (s : State) (p : Nat) (f : View → Half → Half) : State := if p = 3 then s.input f else s.busInput f

/-- The half whose timers send a port's messages (R425): A for port 1, B for port 2, the half in charge for port 3. -/
def State.ptpOwner (s : State) (p : Nat) : Option HalfId := if p = 1 then some .a else if p = 2 then some .b else s.yoke.holder

/-- PTP_MESSAGE_SEND: both halves take the timestamps of a message that leaves (R19). -/
def State.ptpSend (s : State) (h : HalfId) (p kind : Nat) : State :=
  let r := s.yoke.rtc
  if s.ptpOwner p = some h ∧ s.runs h then s.ptpInput p (fun y m => m.ptpSend y r.taiUtc r.valid p kind) else s

/-- PTP_SYNC_RECEIVE (R421). -/
def execPtpSyncReceive (x : PtpMsg) (s : State) : Host.Outcome State Fault Refusal :=
  .next (s.ptpInput x.port (fun y m => m.ptpSync y x))

/-- PTP_ANNOUNCE_RECEIVE (R424). -/
def execPtpAnnounceReceive (x : PtpMsg) (s : State) : Host.Outcome State Fault Refusal :=
  .next (s.ptpInput x.port (fun _ m => m.ptpAnnounce x)).masterUtc

/-- PTP_DELAY_REQ_RECEIVE (R424). -/
def execPtpDelayReqReceive (x : PtpMsg) (s : State) : Host.Outcome State Fault Refusal :=
  .next (s.ptpInput x.port (fun y m => m.ptpDelayReq y x))

/-- PTP_DELAY_RESP_RECEIVE (R424). -/
def execPtpDelayRespReceive (x : PtpMsg) (s : State) : Host.Outcome State Fault Refusal :=
  .next (s.ptpInput x.port (fun _ m => m.ptpDelayResp x))

/-- PTP_MESSAGE_SEND (R424). -/
def execPtpMessageSend (h : HalfId) (p k : Nat) (s : State) : Host.Outcome State Fault Refusal := .next (s.ptpSend h p k)

/-- ANNOUNCE_RECEIPT_TIMEOUT (R421). -/
def execAnnounceReceiptTimeout (p : Nat) (sync : Bool) (s : State) : Host.Outcome State Fault Refusal :=
  .next (s.input (fun _ m => m.ptpTimeout p sync))

/-- HOLDOVER_EXPIRY (R421): HOLD_S seconds in HOLDOVER. -/
def execHoldoverExpiry (h : HalfId) (s : State) : Host.Outcome State Fault Refusal :=
  .next (s.local_ h (fun _ m =>
    if m.tim.source = 3 ∧ m.tim.holdAt + m.rdF rPtpServo 0 16 * oneSec ≤ m.up then m.setSource 0 else m))

end Sys2Proof.Machine
end

