-- ==== Sys2Proof/Machine/Update.lean ====
section
/-! DEFINITION. Field update (R479 to R497): image checks, loads, activation, migration, probation and rollback. -/
namespace Sys2Proof.Machine

/-- Bytes of an image with NBLK blocks (R479). -/
def imgLen (nblk : Nat) : Nat := 256 + nblk * 65552 + 96

/-- The owner public key that a list of words holds. -/
def ownerPoint (k : List Word) : Nat × Nat := ptOf (k.flatMap (fun w => leBytes 4 w.toNat))

/-- R481: the keys that may sign an image of a KIND, by KEY_ID. -/
def Half.signers (m : Half) (kind : Nat) : List (Nat × (Nat × Nat)) :=
  if kind = 2 then
    match m.sec.key with
    | some k => [(Config.ownerKeyId k, ownerPoint k)]
    | none => []
  else ((List.range 4).map (fun i => (Config.kzKeyId i, Config.kzKey i))).filter (fun e => decide (e.1 ≠ 0))

/-- R480: the content key that an image's header wraps. -/
def contentKey (b : List Byte) : Option (List Byte) :=
  let e := ptOf ((b.drop 49).take 96)
  if leAt b 48 1 ≠ 4 ∨ !onCurve e then none
  else
    match ptMul (some e) (scalar384 Config.classKey) 384 with
    | none => none
    | some (x, _) =>
      let kek := hkdf384 (beBytes 48 x) [0x4B, 0x5A, 0x2D, 0x77, 0x72, 0x61, 0x70]
      gcmDecrypt kek (List.replicate 12 0) (b.take 48) ((b.drop 148).take 48)

/-- R480: the plaintext of block k, if its tag verifies. -/
def imgBlock (b : List Byte) (k : Nat) : Option (List Byte) :=
  match contentKey b with
  | none => none
  | some key =>
    gcmDecrypt key ((b.drop 40).take 8 ++ leBytes 4 k) (b.take 48) ((b.drop (256 + k * 65552)).take 65552)

/-- The plaintext of an image's first blocks, from block k on. -/
def imgBlocks (b : List Byte) : Nat → Nat → List Byte
  | 0, _ => []
  | n + 1, k => (imgBlock b k).getD [] ++ imgBlocks b n (k + 1)

/-- R481: the digest that an image's signature covers: the header, then the block tags. -/
def imgDigest (b : List Byte) (nblk : Nat) : List Byte :=
  sha384 (b.take 256 ++ (List.range nblk).flatMap (fun k => (b.drop (256 + k * 65552 + 65536)).take 16))

/-- Checks 1 to 7 of Table 20.4 on a complete header: the cause of the first that fails, or 0. arb: the anti-rollback counter. -/
def Half.imgHeader (m : Half) (arb target : Nat) (b : List Byte) : Nat :=
  let kind := leAt b 5 1
  let nblk := leAt b 20 4
  let zero (off n : Nat) : Bool := decide (leAt b off n = 0)
  let top := if kind = 1 then 1535 else 255
  if b.take 4 ≠ [0x5A, 0x4B, 0x53, 0x31] ∨ leAt b 4 1 ≠ 1 ∨ kind < 1 ∨ 3 < kind ∨ 1 < leAt b 6 1
      ∨ !(zero 15 1 && zero 18 2 && zero 145 3 && zero 196 60) then 1
  else if leAt b 12 2 ≠ 0x7200 ∨ 0xA1 < leAt b 14 1 then 2
  else if 128 < leAt b 7 1 ∨ leAt b 7 1 < arb then 3
  else if nblk < 1 ∨ top < nblk ∨ nblk * 65536 < leAt b 24 8 ∨ decide (target = 2) ≠ decide (kind = 3) then 4
  else if kind = 2 ∧ m.sec.key.isNone then 5
  else if kind = 2 ∧ leAt b 16 2 ≠ m.addr then 6
  else if !(m.signers kind).any (fun e => decide (e.1 = leAt b 36 4)) ∨ (contentKey b).isNone then 7
  else 0

/-- Check 9 of Table 20.4. -/
def Half.imgSigned (m : Half) (b : List Byte) : Bool :=
  let nblk := leAt b 20 4
  let t := b.drop (256 + nblk * 65552)
  (m.signers (leAt b 5 1)).any (fun e => decide (e.1 = leAt b 36 4) && ecdsaOk e.2 (imgDigest b nblk) (beAt t 0 48) (beAt t 48 48))

/-- R484: an image with YOKE set carries a section that the Yoke accepts. -/
def imgYokeOk (b : List Byte) : Bool :=
  leAt b 6 1 % 2 = 0 || Config.yokeSection ((imgBlocks b (leAt b 20 4) 0).take (leAt b 24 8))

/-- Check 8 of Table 20.4 on blocks that have become complete: how many from block k verify in a row, of n. -/
def imgRun (b : List Byte) : Nat → Nat → Nat
  | 0, k => k
  | n + 1, k => if (imgBlock b k).isSome then imgRun b n (k + 1) else k

/-- A complete and verified image: a RECOVERY image is stored at once; another one waits for the copy of the other part (R484). -/
def Half.imgDone (m : Half) (x : Load) : Half :=
  if x.target = 2 then
    let m1 := m.updU (fun u => { u with recov := x.bytes, load := none, rxStat := rxWord 2 0 x.blocks })
    (m1.irq 0x007 0).ev 0x0601 0xFF (leAt x.bytes 5 1) (leAt x.bytes 8 4) (leAt x.bytes 7 1)
  else m.updU (fun u => { u with load := some { x with copy := true } })

/-- R483, R484: image bytes arrive at RX_OFF, and are checked as they do. -/
def Half.loadBytes (m : Half) (arb : Nat) (x : Load) (new : List Byte) : Half :=
  let all := x.bytes ++ new
  let head := decide (256 ≤ all.length)
  let m0 := m.updU (fun u => { u with rxOff := u.rxOff + new.length })
  let bad := if head ∧ x.bytes.length < 256 then m.imgHeader arb x.target all else 0
  if x.copy then m0
  else if bad ≠ 0 then (m0.updU (fun u => { u with load := some { x with bytes := all } })).loadEnd bad
  else
    let nblk := leAt all 20 4
    let b := if head then all.take (imgLen nblk) else all
    let have_ := if head then min nblk ((b.length - 256) / 65552) else 0
    let got := imgRun b (have_ - x.blocks) x.blocks
    let y : Load := { x with bytes := b, blocks := got, since := m.up }
    let m1 := m0.updU (fun u => { u with load := some y, rxStat := rxWord 1 0 got })
    if got < have_ then m1.loadEnd 8
    else if head ∧ b.length = imgLen nblk then
      (if !m.imgSigned b then m1.loadEnd 9 else if !imgYokeOk b then m1.loadEnd 4 else m1.imgDone y)
    else m1

/-- The number of a half's ACTIVE slot. -/
def Half.activeSlot (m : Half) : Option Nat := [0, 1].find? (fun i => decide ((m.upSlot i).st = 3))

/-- SLOT_COPY_DONE (R484): the slot is VERIFIED, with event 0x0601. -/
def Half.copyDone (m : Half) : Half :=
  match m.upd.load with
  | none => m
  | some x =>
    if !x.copy then m
    else
      let b := x.bytes
      let a := match m.activeSlot with
        | some i => m.upSlot i
        | none => slotEmpty
      let ver := word (leAt b 8 4)
      let m1 := m.updSlot x.target (fun s =>
        if leAt b 5 1 = 1 then
          { s with st := 2, ver := ver, roll := leAt b 7 1, fmt := word (leAt b 32 4), yoke := leAt b 6 1 % 2 = 1, fw := b
                   cfgMod := a.cfgMod, cfgVer := a.cfgVer, cfg := a.cfg }
        else
          { s with st := 2, ver := ver, roll := a.roll, fmt := a.fmt, yoke := false, fw := a.fw
                   cfgMod := leAt b 16 2, cfgVer := ver, cfg := b })
      let m2 := m1.updU (fun u => { u with load := none, rxStat := rxWord 2 0 x.blocks })
      (m2.irq 0x007 0).ev 0x0601 x.target (leAt b 5 1) ver.toNat (leAt b 7 1)

/-- UPD.STREAM (R483, R484). prob: PHASE is PROBATION, in which no slot takes a load (R492). -/
def Half.streamEff (m : Half) (prob : Bool) (st : Stamp) (v : Word) : Half × Nat :=
  let t := fld v 0 2
  if t = 3 then (m, 5)
  else if flag v 31 then
    let busy := t < 2 ∧ (prob ∨ (m.upSlot t).st = 3 ∨ (m.upSlot t).st = 4 ∨ (m.upSlot t).st = 5)
    if m.upd.load.isSome ∨ busy then (m, 8)
    else
      let m1 := if t < 2 then m.updSlot t (fun s => { s with st := 1 }) else m
      (m1.updU (fun u => { u with load := some ⟨t, [], 0, false, st, m.up⟩, rxOff := 0, rxStat := rxWord 1 0 0 }), 0)
  else if flag v 30 then (m.loadEnd 0x0A, 0)
  else (m, 0)

/-- UPD.WIN (R483): the byte offset, then image bytes. -/
def Half.winEff (m : Half) (arb : Nat) (st : Stamp) (ws : List Word) : Half × Nat :=
  match m.upd.load, ws with
  | some x, off :: l =>
    if stampClass st ≠ 3 ∨ off.toNat ≠ m.upd.rxOff ∨ l.isEmpty ∨ 247 < l.length then (m, 8)
    else (m.loadBytes arb x (l.flatMap (fun w => leBytes 4 w.toNat)), 0)
  | _, _ => (m, 8)

/-- Changes the activation. -/
def State.updAct (s : State) (f : Activation → Activation) : State := s.updYk (fun k => { k with act := f k.act })

/-- UPD.STAT.PHASE changes, with PG_IRQ_RAW bit 1. -/
def State.setPhase (s : State) (n : Nat) : State :=
  if s.yoke.act.phase = n then s else (s.updAct (fun a => { a with phase := n })).irqAll 0x007 1

/-- R491: what the module saves before a migration: the first YOKE.XFER MiB of LPDDR, the POLICY pages, and the old format. -/
def Half.saveData (m : Half) (mib : Nat) : Half :=
  let l := m.lpddr.filter (fun e => decide (0x80000000 ≤ e.1) && decide (e.1 < 0x80000000 + mib * 2 ^ 20))
  let pages := (List.range 256).filterMap (fun p => if m.gClass p = 5 then some (p, m.gPage p) else none)
  m.updU (fun u => { u with saved := some ⟨l, pages, u.dataFmt⟩ })

/-- R493: the LPDDR policy area and the POLICY pages come back from the saved data area, the pages by one group commit. -/
def Half.takeSaved (m : Half) (mib : Nat) : Half :=
  match m.upd.saved with
  | none => m
  | some x =>
    let rest := m.lpddr.filter (fun e => decide (e.1 < 0x80000000) || decide (0x80000000 + mib * 2 ^ 20 ≤ e.1))
    let m1 := { m with lpddr := x.lpddr.foldl (fun a (e : Nat × Byte) => sset 0 a e.1 e.2) rest }
    (m1.gPutPages x.pages).updU (fun u => { u with dataFmt := x.fmt })

/-- MiB of LPDDR that a state transfer copies (YOKE.XFER). -/
def State.xferMib (s : State) : Nat := s.rdF .a rYokeXfer 0 9

/-- A half that follows in an activation migrates, if its new slot's DATA_FMT differs from the format of its data (R491). -/
def State.migrateStart (s : State) (y : HalfId) : State :=
  let a := s.yoke.act
  let m := s.half y
  if a.phase = 1 ∧ m.upd.run = a.slot ∧ (m.upSlot a.slot).fmt ≠ m.upd.dataFmt ∧ !m.upd.migrating then
    let x := other y
    if (s.half x).upd.run = a.slot then s.upd y (fun m => m.updU (fun u => { u with dataFmt := (m.upSlot a.slot).fmt }))
    else
      let s1 := s.each (fun m => m.saveData s.xferMib)
      (s1.upd y (fun m => m.updU (fun u => { u with migrating := true, migrated := false }))).updAct (fun a => { a with migAt := s.yoke.now })
  else s

/-- R489: with one half alone, the running half restarts warm from the slot. -/
def State.singleRestart (s : State) (h : HalfId) : State :=
  let s1 := s.dropLease.setRole h .retired 11
  s1.updRestart h

/-- The end of a rollback: its slots take their states, PHASE is IDLE, and event 0x060A records it where R493 gives it a cause. -/
def State.backDone (s : State) : State :=
  let a := s.yoke.act
  let f (m : Half) : Half := m.updU (fun u => { u with
    slots := u.slots.map (fun e => (e.1, { e.2 with st := if e.2.st = 4 then 6 else if e.2.st = 5 then 3 else e.2.st }))
    saved := none, migrating := false })
  let secs := (s.timeBase - a.trialAt) / oneSec
  let s1 := ((s.both f).setPhase 0).updAct (fun a => { a with who := none, back := false })
  if a.cause ≤ 4 then (s1.evAll 0x060A a.was a.cause secs a.stamp.toNat).irqAll 0x007 2 else s1

/-- R392: the Yoke reloads its microcode under its hold. -/
def State.yokeReload (s : State) : State := s.updYk (fun k => { k with hold := true, latched := true })

/-- Step 7 of R489. -/
def State.probation (s : State) : State :=
  let a := s.yoke.act
  let s1 := (s.setPhase 3).updAct (fun a => { a with who := none, probAt := s.timeBase })
  s1.evAll 0x0604 a.slot a.ver.toNat (s.rdF .a rUpdCtrl 8 8) 0

/-- Step 6 of R489, and the end of a rollback: both halves, or the one that runs, have started from the target slot. -/
def State.actArrived (s : State) (x : HalfId) : State :=
  let a := s.yoke.act
  if a.phase = 1 then
    (if ((s.half x).upSlot a.slot).yoke then (s.setPhase 2).yokeReload else s.probation)
  else if a.yoke then s.yokeReload
  else s.backDone

/-- The next step of an activation or rollback, once the last one has ended (R489, R493). -/
def State.actStep (s : State) : State :=
  let a := s.yoke.act
  if (a.phase ≠ 1 ∧ a.phase ≠ 4) ∨ s.yoke.hold ∨ s.yoke.handover.isSome then s
  else
    match s.yoke.holder with
    | none => s
    | some x =>
      let y := other x
      let t := if a.phase = 1 then a.slot else a.was
      let there (h : HalfId) : Bool := decide ((s.half h).upd.run = t) && !(s.half h).upd.recovery
      if a.single then (if there x then s.actArrived x else s.singleRestart x)
      else if !there y then
        (if s.role y = .follower ∨ (a.phase = 4 ∧ (s.role y = .retired ∨ s.role y = .muted)) then s.updRestart y else s)
      else if s.role y ≠ .follower ∨ (s.half y).upd.migrating then s
      else if !there x then s.updYk (fun k => { k with handover := some a.stamp })
      else s.actArrived x

/-- R493: a rollback begins. cause: Table 20.9, or 5 for the return of an abort that is no rollback of R493. -/
def State.backStart (s : State) (cause : Nat) (st : Stamp) : State :=
  let pair := decide (s.role .a ≠ .retired) && decide (s.role .b ≠ .retired)
  let keep := decide (cause = 2)
  let s1 := (s.setPhase 4).updAct (fun a => { a with
    back := true, cause := cause, stamp := st, single := !(pair || keep), who := none })
  let s2 := (s1.updYk (fun k => { k with handover := none })).both (fun m => m.updU (fun u => { u with migrating := false, next := s.yoke.act.was }))
  s2.actStep

/-- UPD.CTRL.AUTO_RB. -/
def State.autoRb (s : State) : Bool := s.rdB .a rUpdCtrl 0

/-- R489: the activation is aborted, with event 0x0605; every half that started from the slot returns to its FALLBACK slot. -/
def State.actAbort (s : State) (kind : Nat) (h : HalfId) : State :=
  let a := s.yoke.act
  let s1 := s.evAll 0x0605 a.slot (Config.abortCause kind) a.phase (halfNum h)
  s1.backStart (if kind = 4 then 4 else if kind = 3 ∧ s.autoRb then 1 else 5) a.stamp

/-- R493: with AUTO_RB a half that runs the TRIAL image and is retired by its watchdog or a lost challenge starts a rollback. -/
def State.trialLost (s : State) (h : HalfId) : State :=
  let a := s.yoke.act
  if (a.phase = 1 ∨ a.phase = 3) ∧ s.autoRb ∧ ((s.half h).upSlot (s.half h).upd.run).st = 4 then s.backStart 2 a.stamp else s

/-- Table 20.7: the cause of the first check that fails, or 0. -/
def State.actCheck (s : State) (slot : Nat) (ver : Word) (single : Bool) (cls : Nat) : Nat :=
  let a := s.yoke.act
  let ok (h : HalfId) : Bool :=
    s.role h = .retired || (decide (((s.half h).upSlot slot).st = 2) && decide (((s.half h).upSlot slot).ver = ver))
  let pair := (decide (s.role .a = .inCharge) && decide (s.role .b = .follower))
    || (decide (s.role .b = .inCharge) && decide (s.role .a = .follower))
  let rec_ := (s.a.upd.recovery && s.runs .a) || (s.b.upd.recovery && s.runs .b)
  if a.phase = 3 then 0x12
  else if a.phase ≠ 0 then 0x11
  else if 1 < slot ∨ !ok .a ∨ !ok .b then 0x13
  else if !pair ∧ !(single && decide (cls = 1)) ∧ !rec_ then 0x14
  else if s.yoke.pwr.pfw then 0x15
  else 0

/-- R488, R489: an activation is requested; answers the cause of a refusal, or 0. -/
def State.activate (s : State) (slot : Nat) (ver : Word) (single : Bool) (st : Stamp) : State × Nat :=
  let c := s.actCheck slot ver single (stampClass st)
  if c ≠ 0 then (s, c)
  else
    let pair := (decide (s.role .a = .inCharge) && decide (s.role .b = .follower))
      || (decide (s.role .b = .inCharge) && decide (s.role .a = .follower))
    let was := match s.yoke.holder with
      | some x => (s.half x).upd.run
      | none => if s.runs .a then s.a.upd.run else s.b.upd.run
    let s1 := (s.updAct (fun _ => ⟨0, slot, ver, !pair, st, none, 0, false, 0, s.yoke.now, 0, was, s.timeBase, false⟩)).setPhase 1
    ((s1.evAll 0x0603 slot ver.toNat single.toNat st.toNat).actStep, 0)

/-- R492: a probation ends. how: 1 time, 2 ACCEPT. -/
def State.probEnd (s : State) (how : Nat) (st : Stamp) : State :=
  let a := s.yoke.act
  if a.phase ≠ 3 then s
  else
    let m := match s.yoke.holder with
      | some h => s.half h
      | none => s.a
    let roll := (m.upSlot m.upd.run).roll
    let arb := max s.yoke.arb roll
    let s1 := if s.yoke.arb < roll then (s.updYk (fun k => { k with arb := arb })).evAll 0x0607 s.yoke.arb roll a.ver.toNat 0 else s
    let f (m : Half) : Half := m.updU (fun u => { u with
      slots := u.slots.map (fun e => (e.1, { e.2 with st :=
        if e.2.st = 4 then 3 else if e.2.st = 5 then (if e.2.roll < arb then 6 else 2) else e.2.st }))
      saved := none })
    ((s1.both f).evAll 0x0609 a.slot a.ver.toNat how st.toNat).setPhase 0

/-- The accessor's UPD.CMD_STAT (Table 20.10), in every half that the request reached. -/
def State.cmdStat (s : State) (h : HalfId) (r : Req) (cause status : Nat) : State :=
  let f (m : Half) : Half := m.setView (reqNum r) rUpdCmdStat (word (cause * 2 ^ 16 + status))
  match r with
  | .ipp _ => s.each f
  | _ => s.upd h f

/-- UPD.CMD (Table 20.13). -/
def State.updCmd (s : State) (h : HalfId) (r : Req) (v : Word) : State × Nat :=
  let op := fld v 0 4
  let st := reqStamp r
  let phase := s.yoke.act.phase
  let no (cause code : Nat) : State × Nat := (s.cmdStat h r cause 5, code)
  if op = 1 then
    let (s1, c) := s.activate (fld v 16 1) ((s.half h).rd rUpdActVer) (flag v 8) st
    if c = 0 then (s1.cmdStat h r 0 0, 0) else no c 8
  else if op = 2 then (if phase = 1 ∨ phase = 3 then ((s.cmdStat h r 0 0).backStart 0 st, 0) else no 0 8)
  else if op = 3 then (if phase = 3 then ((s.cmdStat h r 0 0).probEnd 2 st, 0) else no 0 8)
  else if op = 4 ∨ op = 5 then
    if phase = 1 ∧ (s.half h).upd.migrating then
      let s1 := (s.cmdStat h r 0 0).upd h (fun m => m.updU (fun u => { u with migrating := false, migrated := decide (op = 4) }))
      let m := s.half h
      let new := (m.upSlot m.upd.run).fmt
      if op = 4 then ((s1.upd h (fun m => m.updU (fun u => { u with dataFmt := new }))).actStep, 0)
      else ((s1.evAll 0x0606 (halfNum h) m.upd.dataFmt.toNat new.toNat 1).actAbort 3 h, 0)
    else no 0 8
  else no 0 5

/-- MIGRATION_TIMEOUT (R491): no report within UPD.CTRL.MIG_S counts as MIG_FAIL. -/
def State.migTimeout (s : State) : State :=
  let go (h : HalfId) : State :=
    let m := s.half h
    let s1 := s.upd h (fun m => m.updU (fun u => { u with migrating := false }))
    (s1.evAll 0x0606 (halfNum h) m.upd.dataFmt.toNat (m.upSlot m.upd.run).fmt.toNat 2).actAbort 3 h
  if s.yoke.act.phase ≠ 1 ∨ s.yoke.now < s.yoke.act.migAt + s.rdF .a rUpdCtrl 16 8 * oneSec then s else if s.a.upd.migrating then go .a else if s.b.upd.migrating then go .b else s

/-- ACTIVATION_TIMEOUT (R489): a half has not reached FOLLOWER within 10 s of its retirement. In a rollback the half in charge goes on
alone. -/
def State.actTimeout (s : State) : State :=
  let a := s.yoke.act
  match a.who with
  | none => s
  | some h =>
    if s.role h = .follower ∨ s.role h = .inCharge ∨ a.single ∨ s.yoke.now < a.since + 10 * oneSec then s
    else if a.phase = 1 then s.actAbort 2 h
    else if a.phase = 4 then (s.updAct (fun a => { a with single := true, who := none })).actStep
    else s

/-- YOKE_RELOAD_DONE (R489, R392): the hold ends; a failed reload aborts. -/
def State.reloadDone (s : State) (ok : Bool) : State :=
  if !s.yoke.hold then s
  else
    let s1 := s.updYk (fun k => { k with hold := false, latched := k.a.lost || k.b.lost })
    let a := s1.yoke.act
    let x := s1.yoke.holder.getD .a
    if a.phase = 2 then
      (if ok then (s1.updAct (fun a => { a with yoke := true })).probation else s1.actAbort 4 x)
    else if a.phase = 4 then (s1.updAct (fun a => { a with yoke := false })).backDone
    else s1

/-- UPD's registers that are not stored as written (Table 20.10). -/
def State.updRead (s : State) (h : HalfId) (k : Nat) : Option Word :=
  let m := s.half h
  let u := m.upd
  let a := s.yoke.act
  if k = rUpdStat then
    some (word (u.recovery.toNat * 2 ^ 31 + u.load.isSome.toNat * 2 ^ 30 + a.phase * 2 ^ 24 + u.run))
  else if k = rUpdRxOff then some (word u.rxOff)
  else if k = rUpdRxStat then some u.rxStat
  else if k = rUpdSlot 0 ∨ k = rUpdSlot 1 then
    let x := m.upSlot ((k - rUpdSlot 0) / 4)
    some (word (x.st * 2 ^ 28 + x.roll * 2 ^ 16 + x.cfgMod))
  else if k = rUpdLastVer 0 ∨ k = rUpdLastVer 1 then some (m.upSlot ((k - rUpdLastVer 0) / 4)).ver
  else if k = rUpdArb then some (word s.yoke.arb)
  else if k = rUpdProbLeft then
    some (if a.phase = 3 then word ((a.probAt + s.rdF h rUpdCtrl 8 8 * 3600 * oneSec - m.tai.toNat) / oneSec) else 0)
  else none

/-- SEC's registers that are not stored as written (Table 20.12). -/
def Half.secRead (m : Half) (k : Nat) : Option Word :=
  let id (x : Option (List Word)) : Word := match x with
    | some l => word (Config.ownerKeyId l)
    | none => 0
  if k = rSecStat then some (word (m.sec.prev.isSome.toNat * 4 + m.sec.key.isSome.toNat * 2 + Config.idOk.toNat))
  else if k = rSecSerial then some (word Config.serial)
  else if k = rSecSerial + 4 then some (word (Config.serial / 2 ^ 32))
  else if k = rSecEuiBase then some (word Config.euiBase)
  else if k = rSecEuiBase + 4 then some (word (Config.euiBase % 2 ^ 48 / 2 ^ 32))
  else if k = rSecClass then some (word Config.classId)
  else if rSecKzKey 0 ≤ k ∧ k ≤ rSecKzKey 3 then some (word (Config.kzKeyId ((k - rSecKzKey 0) / 4)))
  else if k = rSecOwnerId then some (id m.sec.key)
  else if k = rSecOwnerPrev then some (id m.sec.prev)
  else if rSecIdPub 0 ≤ k ∧ k ≤ rSecIdPub 23 then
    some (word (leAt (ptBytes (ptMul (some p384G) (scalar384 Config.idKey) 384)) (k - rSecIdPub 0) 4))
  else none

/-- OWNER_KEY_COMMIT (R498): a valid point becomes the owner key, and the current one the previous. -/
def Half.ownerKeyEff (m : Half) (n : Nat) (st : Stamp) (v : Word) : Half × Nat :=
  let k := v :: (List.range 23).map (fun i => (m.stagedWord n (rSecOwnerKey + 4 * (i + 1))).getD
    ((m.sec.key.getD []).getD (i + 1) 0))
  if !onCurve (ownerPoint k) then (m, 8)
  else
    let old := match m.sec.key with
      | some l => Config.ownerKeyId l
      | none => 0
    (({ m with sec := ⟨some k, m.sec.key⟩ } : Half).ev 0x060C (Config.ownerKeyId k) old st.toNat 0, 0)

/-- UPD.CTRL (Table 20.11): a code of Table 2.10 where a field is out of range. -/
def updCtrlCheck (v : Word) : Nat := if fld v 16 8 = 0 ∨ fld v 8 8 = 0 ∨ 168 < fld v 8 8 then 5 else 0

/-- UPD.STREAM of a half. -/
def State.streamCmd (s : State) (h : HalfId) (st : Stamp) (v : Word) : State × Nat :=
  let (m, c) := (s.half h).streamEff (decide (s.yoke.act.phase = 3)) st v
  (s.set h m, c)

/-- UPD.WIN of a half, written with a list of words. -/
def State.winCmd (s : State) (h : HalfId) (st : Stamp) (ws : List Word) : State × Nat :=
  let (m, c) := (s.half h).winEff s.yoke.arb st ws
  (s.set h m, c)

/-- STREAM_OPEN (R483). -/
def execStreamOpen (h : HalfId) (r : Req) (v : Word) (s : State) : Host.Outcome State Fault Refusal :=
  .next (s.regCmdS h r rUpdStream v (fun h s => s.streamCmd h (reqStamp r) v))

/-- STREAM_ABORT (R484). -/
def execStreamAbort (h : HalfId) (r : Req) (v : Word) (s : State) : Host.Outcome State Fault Refusal :=
  .next (s.regCmdS h r rUpdStream v (fun h s => s.streamCmd h (reqStamp r) v))

/-- WIN_WRITE (R483). -/
def execWinWrite (h : HalfId) (r : Req) (ws : List Word) (s : State) : Host.Outcome State Fault Refusal :=
  .next (s.regCmdS h r (rUpdWin 0) (ws.getD 0 0) (fun h s => s.winCmd h (reqStamp r) ws))

/-- LOAD_TIMEOUT (Table 20.4): no accepted write for 600 s. -/
def execLoadTimeout (h : HalfId) (s : State) : Host.Outcome State Fault Refusal :=
  .next (s.local_ h (fun _ m =>
    if m.upd.load.any (fun x => !x.copy && decide (x.since + 600 * oneSec ≤ m.up)) then m.loadEnd 0x0A else m))

/-- SLOT_COPY_DONE (R484). -/
def execSlotCopyDone (h : HalfId) (s : State) : Host.Outcome State Fault Refusal := .next (s.local_ h (fun _ m => m.copyDone))

/-- UPD_ACTIVATE (R488): UPD.CMD with OP 1. -/
def execUpdActivate (h : HalfId) (r : Req) (v : Word) (s : State) : Host.Outcome State Fault Refusal :=
  .next (s.yokeCmd h r rUpdCmd v (fun h s => s.updCmd h r v))

/-- ROLLBACK (R493). -/
def execRollback (h : HalfId) (r : Req) (s : State) : Host.Outcome State Fault Refusal :=
  .next (s.yokeCmd h r rUpdCmd 2 (fun h s => s.updCmd h r 2))

/-- ACCEPT (R492). -/
def execAccept (h : HalfId) (r : Req) (s : State) : Host.Outcome State Fault Refusal :=
  .next (s.yokeCmd h r rUpdCmd 3 (fun h s => s.updCmd h r 3))

/-- MIG_DONE (R491). -/
def execMigDone (h : HalfId) (r : Req) (s : State) : Host.Outcome State Fault Refusal :=
  .next (s.regCmdS h r rUpdCmd 4 (fun h s => s.updCmd h r 4))

/-- MIG_FAIL (R491). -/
def execMigFail (h : HalfId) (r : Req) (s : State) : Host.Outcome State Fault Refusal :=
  .next (s.regCmdS h r rUpdCmd 5 (fun h s => s.updCmd h r 5))

/-- MIGRATION_TIMEOUT (R491). -/
def execMigrationTimeout (s : State) : Host.Outcome State Fault Refusal := .next s.migTimeout

/-- ACTIVATION_TIMEOUT (R489). -/
def execActivationTimeout (s : State) : Host.Outcome State Fault Refusal := .next s.actTimeout

/-- YOKE_RELOAD_DONE (R489). -/
def execYokeReloadDone (ok : Bool) (s : State) : Host.Outcome State Fault Refusal := .next (s.reloadDone ok)

/-- PROBATION_END (R492): PROB_H hours of the time base have passed. -/
def execProbationEnd (s : State) : Host.Outcome State Fault Refusal :=
  .next (if s.timeBase < s.yoke.act.probAt + s.rdF .a rUpdCtrl 8 8 * 3600 * oneSec then s else s.probEnd 1 0)

/-- OWNER_KEY_COMMIT (R498). -/
def execOwnerKeyCommit (h : HalfId) (r : Req) (v : Word) (s : State) : Host.Outcome State Fault Refusal :=
  .next (s.regCmd h r rSecOwnerKey v (fun m => m.ownerKeyEff (reqNum r) (reqStamp r) v))

end Sys2Proof.Machine
end

