-- ==== Sys2Proof/Machine/CryptoJobs.lean ====
section
/-! DEFINITION. The policy cores' queue registers (R475, R499) and the crypto engine's jobs (R502). -/
namespace Sys2Proof.Machine

/-- What a core's kzqsel and kzdeleg hold, as its firmware has last written them (Table 20.1), and the mode that it runs in. -/
def Half.kzSet (m0 : Half) (c : Nat) (x : KzCtx) : Half :=
  let m := m0.updCore c (fun k => { k with sup := x.sup })
  { m with que := { m.que with
    sel := sset 0 m.que.sel c x.sel.val
    deleg := if x.deleg then insNat m.que.deleg c else m.que.deleg.filter (fun d => decide (d ≠ c)) } }

/-- The core's mode may use the queue registers: machine mode always, supervisor mode where kzdeleg bit 0 is 1 (Table 20.1). -/
def Half.kzMay (m : Half) (c : Nat) (x : KzCtx) : Bool := !x.sup || decide (c ∈ m.que.deleg)

/-- KZQPUSH (R499, Table 20.1): the address goes onto the selected queue; where it is full the write is discarded and FULL set. A MAC
takes what its transmit queue holds. -/
def Half.kzPush (m0 : Half) (c : Nat) (x : KzCtx) (v : Dword) : Half :=
  let m := m0.kzSet c x
  if !m.kzMay c x then m
  else
    let q := x.sel.val
    let (m1, ok) := m.push q v.toNat
    let full := if ok then m1.que.full.filter (fun d => decide (d ≠ c)) else insNat m1.que.full c
    let m2 := { m1 with que := { m1.que with full := full } }
    match m2.macOfQueue q with
    | some p => if ok then m2.macTake p else m2
    | none => m2

/-- KZQPOP (R499, Table 20.1): the oldest address of the selected queue, or 0 where it is empty. -/
def Half.kzPop (m0 : Half) (c : Nat) (x : KzCtx) : Half :=
  let m := m0.kzSet c x
  if !m.kzMay c x then m
  else
    let (m1, a) := m.pop x.sel.val
    { m1 with que := { m1.que with popped := sset 0 m1.que.popped c (a.getD 0) } }

/-- kzqstat (Table 20.1): FULL at the last push, and the depth of the selected queue. -/
def Half.kzStat (m : Half) (c : Nat) : Word :=
  word ((decide (c ∈ m.que.full)).toNat * 2 ^ 31 + (m.queue (sget 0 m.que.sel c)).length)

/-- A control and status register as core c of a half reads it (R475, Table 20.1): the Klokezor registers, time as SYS.TIME_NS, and the
standard ones as they stand. -/
def Half.coreCsr (m : Half) (y : View) (c k : Nat) : Dword :=
  if k = 0xFC0 then BitVec.ofNat 64 (4 * halfNum m.self + c)
  else if k = 0xFC1 then BitVec.ofNat 64 (y.recov.toNat * 2 ^ 31 + roleCode y.role)
  else if k = 0xFC2 then BitVec.ofNat 64 (m.rdN rSysPace)
  else if k = 0x7C0 ∨ k = 0x5C0 then BitVec.ofNat 64 (sget 0 m.que.sel c)
  else if k = 0x7C3 ∨ k = 0x5C3 then BitVec.ofNat 64 (m.kzStat c).toNat
  else if k = 0x7C4 then BitVec.ofNat 64 (decide (c ∈ m.que.deleg)).toNat
  else if k = 0xC01 then m.tai
  else (m.core c).get k

/-- A job is complete (R502, R503): OUT_LEN, STATUS and TIME, the completion list, and PG_IRQ_RAW bit 0 of the SEC page. -/
def Half.jobEnd (m : Half) (q a status outLen : Nat) : Half :=
  ((m.poke (a + 60) (leBytes 4 outLen)).complete q a 0x008 status).irq 0x008 0

/-- The input of a job: none where its length does not fit the buffer or 1 MiB. -/
def Half.jobIn (m : Half) (a : Nat) : Option (List Byte) :=
  let len := leNat (m.peekN (a + 4) 4)
  let src := leNat (m.peekN (a + 40) 8)
  if src = 0 then (if len ≤ 1984 then some (m.peekN (a + 64) len) else none)
  else if len ≤ 2 ^ 20 then some (m.peekN src len) else none

/-- A job with its output, or a status other than OK. -/
def Half.jobOut (m : Half) (q a : Nat) (res : Nat × List Byte) : Half :=
  let cap := leNat (m.peekN (a + 56) 4)
  if res.1 ≠ 0 then m.jobEnd q a res.1 0
  else if cap < res.2.length then m.jobEnd q a 0x0B 0
  else (m.poke (leNat (m.peekN (a + 48) 8)) res.2).jobEnd q a 0 res.2.length

/-- One free value is taken. -/
def Half.take1 (m : Half) : Half := { m with fresh := m.fresh + 1 }

/-- Table 20.17: what an operation answers for its input: STATUS, and the output. -/
def Half.jobResult (m : Half) (op aad : Nat) (x : List Byte) : Nat × List Byte :=
  let len := x.length
  if op = 1 then
    (if len < 44 + aad then (0x0B, [])
     else (0, gcmEncrypt (x.take 32) ((x.drop 32).take 12) ((x.drop 44).take aad) (x.drop (44 + aad))))
  else if op = 2 then
    (if len < 60 + aad then (0x0B, [])
     else match gcmDecrypt (x.take 32) ((x.drop 32).take 12) ((x.drop 44).take aad) (x.drop (44 + aad)) with
       | some p => (0, p)
       | none => (0x10, []))
  else if op = 3 then (0, sha384 x)
  else if op = 4 then
    (if len ≠ 240 then (0x0B, [])
     else if ecdsaOk (ptOf x) ((x.drop 96).take 48) (beAt x 144 48) (beAt x 192 48) then (0, []) else (0x10, []))
  else if op = 5 then
    (if len ≠ 96 then (0x0B, [])
     else if !onCurve (ptOf x) then (let r := Config.ecdhBad x; (r.1 % 256, r.2))
     else
       let d := scalar384 (Config.ephemeral m.fresh)
       (0, ptBytes (ptMul (some p384G) d 384) ++ (ptBytes (ptMul (some (ptOf x)) d 384)).take 48))
  else if op = 6 then
    (if len ≠ 48 then (0x0B, [])
     else (0, ecdsaSign (scalar384 Config.idKey) (scalar384 (Config.signNonce m.fresh)) x))
  else (5, [])

/-- R502: the engine takes its jobs in order of submission. A descriptor of another type (R501), and one of an unknown OP, is completed
with REFUSED; a job of operation op is carried out. -/
def Half.jobRun (m : Half) (op : Nat) : Nat → Half
  | 0 => m
  | n + 1 =>
    let q := m.rdF rSecJobq 0 8
    if !(m.on 0x008 && m.rdB rSecJobq 31) then m
    else
      match m.queue q with
      | [] => m
      | a :: l =>
        let m1 := m.setQueue q l
        let o := (m.peek (a + 32)).toNat
        if m.peek a ≠ 0x0C then ((m1.complete q a 0x008 5).irq 0x008 0).jobRun op n
        else if o = 0 ∨ 6 < o then (m1.jobEnd q a 5 0).jobRun op n
        else if o ≠ op then m
        else
          match m1.jobIn a with
          | none => m1.jobEnd q a 0x0B 0
          | some x => (m1.jobOut q a (m1.jobResult op (leNat (m1.peekN (a + 36) 4)) x)).take1

/-- A job of one operation: as many descriptors before it as the queue can hold. -/
def Half.cryptoJob (m : Half) (op : Nat) : Half := m.jobRun op 1025

/-- KZQPUSH (R499). -/
def execKzqpush (h : HalfId) (c : Fin 4) (x : KzCtx) (v : Dword) (s : State) : Host.Outcome State Fault Refusal :=
  .next (s.onReq h (.core c) (fun h s => s.upd h (fun m => m.kzPush c.val x v)))

/-- KZQPOP (R499). -/
def execKzqpop (h : HalfId) (c : Fin 4) (x : KzCtx) (s : State) : Host.Outcome State Fault Refusal :=
  .next (s.onReq h (.core c) (fun h s => s.upd h (fun m => m.kzPop c.val x)))

/-- AES_GCM_ENCRYPT (R502). -/
def execAesGcmEncrypt (h : HalfId) (s : State) : Host.Outcome State Fault Refusal := .next (s.local_ h (fun _ m => m.cryptoJob 1))

/-- AES_GCM_DECRYPT (R502). -/
def execAesGcmDecrypt (h : HalfId) (s : State) : Host.Outcome State Fault Refusal := .next (s.local_ h (fun _ m => m.cryptoJob 2))

/-- SHA384 (R502). -/
def execSha384 (h : HalfId) (s : State) : Host.Outcome State Fault Refusal := .next (s.local_ h (fun _ m => m.cryptoJob 3))

/-- ECDSA_VERIFY (R502). -/
def execEcdsaVerify (h : HalfId) (s : State) : Host.Outcome State Fault Refusal := .next (s.local_ h (fun _ m => m.cryptoJob 4))

/-- ECDH (R502). -/
def execEcdh (h : HalfId) (s : State) : Host.Outcome State Fault Refusal := .next (s.local_ h (fun _ m => m.cryptoJob 5))

/-- SIGN_ID (R502). -/
def execSignId (h : HalfId) (s : State) : Host.Outcome State Fault Refusal := .next (s.local_ h (fun _ m => m.cryptoJob 6))

end Sys2Proof.Machine
end

