-- ==== Sys2Proof/Machine/DrillIsa.lean ====
section
/-! DEFINITION. The Drill instructions (Table 7.3), one command each: engine e executes the instruction at its task's program
counter, if that instruction is the one commanded. -/
namespace Sys2Proof.Machine

/-- SETIF and CLRIF with LB = 0: nothing is written, but the operand must be valid. -/
def Half.iMaySet (m : Half) (t : Nat) (w : Word) : IRes :=
  match m.iSetBit t w false with
  | .ok _ => .ok m
  | .error e => .error e

/-- SPULSE (Table 7.3): the width is in the extension word. -/
def Half.iSpulse (m : Half) (t pc : Nat) (w : Word) : IRes :=
  let n := (m.code (pc + 1)).toNat
  if n = 0 ∨ 60000 < n then .error 1
  else m.iAct t ⟨4, iOpd w, 0, BitVec.ofNat 64 n, 0, [], localStamp, false⟩

/-- One instruction of engine e, and what the sheaf engine then does with a sheaf that the instruction has put before it. -/
def State.drl (s : State) (h : HalfId) (e : Fin 8) (op : Nat) (f : Half → Nat → Nat → Word → IRes) : State :=
  s.local_ h (fun y m => let m1 := m.drlStep e.val op f; if m1.drl.jobs = m.drl.jobs then m1 else m1.pump y)

/-- NOP (R194). -/
def execDrlNop (h : HalfId) (e : Fin 8) (s : State) : Host.Outcome State Fault Refusal :=
  .next (s.drl h e 0x00 (fun m _ _ _ => .ok m))

/-- LDB (R192). -/
def execDrlLdb (h : HalfId) (e : Fin 8) (s : State) : Host.Outcome State Fault Refusal :=
  .next (s.drl h e 0x10 (fun m t _ w => m.iLogic t w (fun _ b => b)))

/-- ANDB (R194). -/
def execDrlAndb (h : HalfId) (e : Fin 8) (s : State) : Host.Outcome State Fault Refusal :=
  .next (s.drl h e 0x11 (fun m t _ w => m.iLogic t w (fun a b => a && b)))

/-- ORB (R194). -/
def execDrlOrb (h : HalfId) (e : Fin 8) (s : State) : Host.Outcome State Fault Refusal :=
  .next (s.drl h e 0x12 (fun m t _ w => m.iLogic t w (fun a b => a || b)))

/-- XORB (R194). -/
def execDrlXorb (h : HalfId) (e : Fin 8) (s : State) : Host.Outcome State Fault Refusal :=
  .next (s.drl h e 0x13 (fun m t _ w => m.iLogic t w (fun a b => xor a b)))

/-- BPUSH (R193). -/
def execDrlBpush (h : HalfId) (e : Fin 8) (s : State) : Host.Outcome State Fault Refusal :=
  .next (s.drl h e 0x14 (fun m t _ _ => m.iPush t (.logic (m.task t).lb)))

/-- BPOPA (R193). -/
def execDrlBpopa (h : HalfId) (e : Fin 8) (s : State) : Host.Outcome State Fault Refusal :=
  .next (s.drl h e 0x15 (fun m t _ w => m.iPopLogic t w (fun e r => e && r)))

/-- BPOPO (R193). -/
def execDrlBpopo (h : HalfId) (e : Fin 8) (s : State) : Host.Outcome State Fault Refusal :=
  .next (s.drl h e 0x16 (fun m t _ w => m.iPopLogic t w (fun e r => e || r)))

/-- BPOPX (R193). -/
def execDrlBpopx (h : HalfId) (e : Fin 8) (s : State) : Host.Outcome State Fault Refusal :=
  .next (s.drl h e 0x17 (fun m t _ w => m.iPopLogic t w (fun e r => xor e r)))

/-- NOTB (R194). -/
def execDrlNotb (h : HalfId) (e : Fin 8) (s : State) : Host.Outcome State Fault Refusal :=
  .next (s.drl h e 0x18 (fun m t _ _ => .ok (m.setLb t (!(m.task t).lb))))

/-- SETB (R194). -/
def execDrlSetb (h : HalfId) (e : Fin 8) (s : State) : Host.Outcome State Fault Refusal :=
  .next (s.drl h e 0x19 (fun m t _ _ => .ok (m.setLb t true)))

/-- CLRB (R194). -/
def execDrlClrb (h : HalfId) (e : Fin 8) (s : State) : Host.Outcome State Fault Refusal :=
  .next (s.drl h e 0x1A (fun m t _ _ => .ok (m.setLb t false)))

/-- STB (R194). -/
def execDrlStb (h : HalfId) (e : Fin 8) (s : State) : Host.Outcome State Fault Refusal :=
  .next (s.drl h e 0x1B (fun m t _ w => m.iSetBit t w (xor (m.task t).lb ((iMod w).testBit 0))))

/-- SETIF (R194). -/
def execDrlSetif (h : HalfId) (e : Fin 8) (s : State) : Host.Outcome State Fault Refusal :=
  .next (s.drl h e 0x1C (fun m t _ w => if (m.task t).lb then m.iSetBit t w true else m.iMaySet t w))

/-- CLRIF (R194). -/
def execDrlClrif (h : HalfId) (e : Fin 8) (s : State) : Host.Outcome State Fault Refusal :=
  .next (s.drl h e 0x1D (fun m t _ w => if (m.task t).lb then m.iSetBit t w false else m.iMaySet t w))

/-- RISE (R194). -/
def execDrlRise (h : HalfId) (e : Fin 8) (s : State) : Host.Outcome State Fault Refusal :=
  .next (s.drl h e 0x1E (fun m t _ w => .ok ((m.setMarker (iOpd w) (m.task t).lb).setLb t ((m.task t).lb && !m.marker (iOpd w)))))

/-- FALL (R194). -/
def execDrlFall (h : HalfId) (e : Fin 8) (s : State) : Host.Outcome State Fault Refusal :=
  .next (s.drl h e 0x1F (fun m t _ w => .ok ((m.setMarker (iOpd w) (m.task t).lb).setLb t (m.marker (iOpd w) && !(m.task t).lb))))

/-- LDW (R196). -/
def execDrlLdw (h : HalfId) (e : Fin 8) (s : State) : Host.Outcome State Fault Refusal :=
  .next (s.drl h e 0x40 (fun m t pc w => match m.iLoad t pc w with | some (v, f) => .ok (m.setAcc t v f) | none => .error 1))

/-- STW (R196). -/
def execDrlStw (h : HalfId) (e : Fin 8) (s : State) : Host.Outcome State Fault Refusal :=
  .next (s.drl h e 0x41 (fun m t _ w => m.iStore t w))

/-- ADD (R197). -/
def execDrlAdd (h : HalfId) (e : Fin 8) (s : State) : Host.Outcome State Fault Refusal :=
  .next (s.drl h e 0x42 (fun m t pc w => m.iArith t pc w (fun a x => a + x)))

/-- SUB (R197). -/
def execDrlSub (h : HalfId) (e : Fin 8) (s : State) : Host.Outcome State Fault Refusal :=
  .next (s.drl h e 0x43 (fun m t pc w => m.iArith t pc w (fun a x => a - x)))

/-- MUL (R197). -/
def execDrlMul (h : HalfId) (e : Fin 8) (s : State) : Host.Outcome State Fault Refusal :=
  .next (s.drl h e 0x44 (fun m t pc w => m.iArith t pc w (fun a x => a * x)))

/-- DIV (R197). -/
def execDrlDiv (h : HalfId) (e : Fin 8) (s : State) : Host.Outcome State Fault Refusal :=
  .next (s.drl h e 0x45 (fun m t pc w => m.iDivRem t pc w Int.tdiv))

/-- REM (R197). -/
def execDrlRem (h : HalfId) (e : Fin 8) (s : State) : Host.Outcome State Fault Refusal :=
  .next (s.drl h e 0x46 (fun m t pc w => m.iDivRem t pc w Int.tmod))

/-- FADD (R197). -/
def execDrlFadd (h : HalfId) (e : Fin 8) (s : State) : Host.Outcome State Fault Refusal :=
  .next (s.drl h e 0x47 (fun m t pc w => m.iFloat t pc w fadd))

/-- FSUB (R197). -/
def execDrlFsub (h : HalfId) (e : Fin 8) (s : State) : Host.Outcome State Fault Refusal :=
  .next (s.drl h e 0x48 (fun m t pc w => m.iFloat t pc w fsub))

/-- FMUL (R197). -/
def execDrlFmul (h : HalfId) (e : Fin 8) (s : State) : Host.Outcome State Fault Refusal :=
  .next (s.drl h e 0x49 (fun m t pc w => m.iFloat t pc w fmul))

/-- FDIV (R197). -/
def execDrlFdiv (h : HalfId) (e : Fin 8) (s : State) : Host.Outcome State Fault Refusal :=
  .next (s.drl h e 0x4A (fun m t pc w => m.iFloat t pc w fdiv))

/-- WAND (R194). -/
def execDrlWand (h : HalfId) (e : Fin 8) (s : State) : Host.Outcome State Fault Refusal :=
  .next (s.drl h e 0x4B (fun m t pc w => m.iBitwise t pc w (fun a x => a &&& x)))

/-- WOR (R194). -/
def execDrlWor (h : HalfId) (e : Fin 8) (s : State) : Host.Outcome State Fault Refusal :=
  .next (s.drl h e 0x4C (fun m t pc w => m.iBitwise t pc w (fun a x => a ||| x)))

/-- WXOR (R194). -/
def execDrlWxor (h : HalfId) (e : Fin 8) (s : State) : Host.Outcome State Fault Refusal :=
  .next (s.drl h e 0x4D (fun m t pc w => m.iBitwise t pc w (fun a x => a ^^^ x)))

/-- SHL (R194). -/
def execDrlShl (h : HalfId) (e : Fin 8) (s : State) : Host.Outcome State Fault Refusal :=
  .next (s.drl h e 0x4E (fun m t _ w => .ok (m.setAcc t ((m.task t).acc <<< iOpd w) false)))

/-- SHR (R194). -/
def execDrlShr (h : HalfId) (e : Fin 8) (s : State) : Host.Outcome State Fault Refusal :=
  .next (s.drl h e 0x4F (fun m t _ w => .ok (m.setAcc t ((m.task t).acc >>> iOpd w) false)))

/-- ASR (R194). -/
def execDrlAsr (h : HalfId) (e : Fin 8) (s : State) : Host.Outcome State Fault Refusal :=
  .next (s.drl h e 0x50 (fun m t _ w => .ok (m.setAcc t ((m.task t).acc.sshiftRight (iOpd w)) false)))

/-- CMP (R194). -/
def execDrlCmp (h : HalfId) (e : Fin 8) (s : State) : Host.Outcome State Fault Refusal :=
  .next (s.drl h e 0x51 (fun m t pc w => m.iCmp t pc w))

/-- FCMP (R197). -/
def execDrlFcmp (h : HalfId) (e : Fin 8) (s : State) : Host.Outcome State Fault Refusal :=
  .next (s.drl h e 0x52 (fun m t pc w => m.iFcmp t pc w))

/-- ITF (R194). -/
def execDrlItf (h : HalfId) (e : Fin 8) (s : State) : Host.Outcome State Fault Refusal :=
  .next (s.drl h e 0x53 (fun m t _ _ => .ok (m.setAcc t (BitVec.ofNat 64 (fenc f64 (fint (m.task t).acc.toInt))) true)))

/-- FTI (R194). -/
def execDrlFti (h : HalfId) (e : Fin 8) (s : State) : Host.Outcome State Fault Refusal :=
  .next (s.drl h e 0x54 (fun m t _ _ => .ok (m.iFti t)))

/-- NEG (R194). -/
def execDrlNeg (h : HalfId) (e : Fin 8) (s : State) : Host.Outcome State Fault Refusal :=
  .next (s.drl h e 0x55 (fun m t _ _ => .ok (m.setInt t (-(m.task t).acc.toInt))))

/-- ABS (R194). -/
def execDrlAbs (h : HalfId) (e : Fin 8) (s : State) : Host.Outcome State Fault Refusal :=
  .next (s.drl h e 0x56 (fun m t _ _ => .ok (m.setInt t (m.task t).acc.toInt.natAbs)))

/-- TON (R199). -/
def execDrlTon (h : HalfId) (e : Fin 8) (s : State) : Host.Outcome State Fault Refusal :=
  .next (s.drl h e 0x80 (fun m t pc w => m.iTimer t pc w Timer.ton))

/-- TOF (R199). -/
def execDrlTof (h : HalfId) (e : Fin 8) (s : State) : Host.Outcome State Fault Refusal :=
  .next (s.drl h e 0x81 (fun m t pc w => m.iTimer t pc w Timer.tof))

/-- TP (R199). -/
def execDrlTp (h : HalfId) (e : Fin 8) (s : State) : Host.Outcome State Fault Refusal :=
  .next (s.drl h e 0x82 (fun m t pc w => m.iTimer t pc w Timer.tp))

/-- TONR (R199). -/
def execDrlTonr (h : HalfId) (e : Fin 8) (s : State) : Host.Outcome State Fault Refusal :=
  .next (s.drl h e 0x83 (fun m t pc w => m.iTimer t pc w Timer.tonr))

/-- TRST (R198). -/
def execDrlTrst (h : HalfId) (e : Fin 8) (s : State) : Host.Outcome State Fault Refusal :=
  .next (s.drl h e 0x84 (fun m t _ w => m.iTrst t w))

/-- CTU (R200). -/
def execDrlCtu (h : HalfId) (e : Fin 8) (s : State) : Host.Outcome State Fault Refusal :=
  .next (s.drl h e 0x88 (fun m t _ w => m.iCount t w true))

/-- CTD (R200). -/
def execDrlCtd (h : HalfId) (e : Fin 8) (s : State) : Host.Outcome State Fault Refusal :=
  .next (s.drl h e 0x89 (fun m t _ w => m.iCount t w false))

/-- CRST (R200). -/
def execDrlCrst (h : HalfId) (e : Fin 8) (s : State) : Host.Outcome State Fault Refusal :=
  .next (s.drl h e 0x8A (fun m t pc w => m.iCset t pc w))

/-- CLD (R200). -/
def execDrlCld (h : HalfId) (e : Fin 8) (s : State) : Host.Outcome State Fault Refusal :=
  .next (s.drl h e 0x8B (fun m t pc w => m.iCset t pc w))

/-- CPV (R200). -/
def execDrlCpv (h : HalfId) (e : Fin 8) (s : State) : Host.Outcome State Fault Refusal :=
  .next (s.drl h e 0x8C (fun m t pc w => m.iCset t pc w))

/-- SPW (R201). -/
def execDrlSpw (h : HalfId) (e : Fin 8) (s : State) : Host.Outcome State Fault Refusal :=
  .next (s.drl h e 0xA0 (fun m t pc w => m.iSpw t pc w))

/-- SDRV (R201). -/
def execDrlSdrv (h : HalfId) (e : Fin 8) (s : State) : Host.Outcome State Fault Refusal :=
  .next (s.drl h e 0xA1 (fun m t _ w => m.iAct t ⟨2, iOpd w, 0, BitVec.ofNat 64 ((m.task t).acc.toNat % 2 ^ 32), 0, [], localStamp, false⟩))

/-- SPULSE (R201). -/
def execDrlSpulse (h : HalfId) (e : Fin 8) (s : State) : Host.Outcome State Fault Refusal :=
  .next (s.drl h e 0xA2 (fun m t pc w => m.iSpulse t pc w))

/-- SPROF (R201). -/
def execDrlSprof (h : HalfId) (e : Fin 8) (s : State) : Host.Outcome State Fault Refusal :=
  .next (s.drl h e 0xA3 (fun m t _ w => m.iSprof t w))

/-- SEVT (R201). -/
def execDrlSevt (h : HalfId) (e : Fin 8) (s : State) : Host.Outcome State Fault Refusal :=
  .next (s.drl h e 0xA4 (fun m t _ w => m.iAct t ⟨9, 0x09C0 + iOpd w, 0, (m.task t).acc, 0, [], localStamp, false⟩))

/-- JMP (R202). -/
def execDrlJmp (h : HalfId) (e : Fin 8) (s : State) : Host.Outcome State Fault Refusal :=
  .next (s.drl h e 0xC0 (fun m t pc w => m.iJump t pc w true))

/-- JT (R202). -/
def execDrlJt (h : HalfId) (e : Fin 8) (s : State) : Host.Outcome State Fault Refusal :=
  .next (s.drl h e 0xC1 (fun m t pc w => m.iJump t pc w (m.task t).lb))

/-- JF (R202). -/
def execDrlJf (h : HalfId) (e : Fin 8) (s : State) : Host.Outcome State Fault Refusal :=
  .next (s.drl h e 0xC2 (fun m t pc w => m.iJump t pc w (!(m.task t).lb)))

/-- CALL (R193). -/
def execDrlCall (h : HalfId) (e : Fin 8) (s : State) : Host.Outcome State Fault Refusal :=
  .next (s.drl h e 0xC3 (fun m t pc w => m.iCall t pc w))

/-- RET (R193). -/
def execDrlRet (h : HalfId) (e : Fin 8) (s : State) : Host.Outcome State Fault Refusal :=
  .next (s.drl h e 0xC4 (fun m t _ _ => m.iRet t))

/-- LOOP (R202). -/
def execDrlLoop (h : HalfId) (e : Fin 8) (s : State) : Host.Outcome State Fault Refusal :=
  .next (s.drl h e 0xC5 (fun m t pc w => m.iLoop t pc w))

/-- END (R168). -/
def execDrlEnd (h : HalfId) (e : Fin 8) (s : State) : Host.Outcome State Fault Refusal :=
  .next (s.drl h e 0xC6 (fun m t _ _ => m.iEnd t))

end Sys2Proof.Machine
end

