-- ==== Sys2Proof/Machine/Foster.lean ====
section
/-! DEFINITION. Fostering (R393 to R404): packs, the foster's slots and instances, and the protected side's negotiation. -/
namespace Sys2Proof.Machine

/-- What BUSCFG holds of one shared bus (Table 16.5): the bus, the foster's controller, the station address, register words by page
offset, CAN object words by index, and frame templates. -/
structure BusCfg where
  bus   : Nat
  ctrl  : Nat
  addr  : Nat
  regs  : List (Nat × Word)
  objs  : List (Nat × Word)
  tmpls : List (Nat × Template)

/-- Bytes of a priority-array slot (R119). -/
def prioBytes (x : PrioSlot) : List Byte :=
  (List.range 17).flatMap (fun l => leBytes 8 (sget 0 x.vals (l + 1)).toNat) ++ leBytes 2 (maskOf (x.occ.map (· - 1))) ++ leBytes 2 x.outb

/-- The priority-array slot that 140 bytes hold. -/
def prioOf (b : List Byte) : PrioSlot :=
  ⟨(List.range 17).foldl (fun a l => sset 0 a (l + 1) (BitVec.ofNat 64 (leAt b (8 * l) 8))) [],
   (bitsOf 16 (leAt b 136 2)).map (· + 1), leAt b 138 2⟩

/-- The record that 32 bytes hold (Table 4.1). -/
def recOf (b : List Byte) : PointRec :=
  ⟨BitVec.ofNat 64 (leAt b 0 8), BitVec.ofNat 64 (leAt b 8 8), BitVec.ofNat 16 (leAt b 16 2), BitVec.ofNat 8 (leAt b 18 1),
   BitVec.ofNat 8 (leAt b 19 1), BitVec.ofNat 16 (leAt b 20 2), BitVec.ofNat 16 (leAt b 22 2), word (leAt b 24 4),
   BitVec.ofNat 16 (leAt b 28 2), BitVec.ofNat 16 (leAt b 30 2)⟩

/-- Table 16.5: a pack of its sections. -/
def packBytes (seq : Word) (addr kind : Nat) (time : Dword) (hash : List Byte) (secs : List (Nat × List Byte)) : List Byte :=
  leBytes 4 seq.toNat ++ leBytes 2 addr ++ leBytes 1 kind ++ leBytes 1 secs.length ++ leBytes 8 time.toNat
    ++ (hash ++ List.replicate 32 0).take 32 ++ leBytes 16 0
    ++ secs.flatMap (fun s => leBytes 4 s.1 ++ leBytes 4 s.2.length) ++ secs.flatMap (·.2)

/-- The bytes of the sections of a pack, in order. -/
def packData : List Byte → List (Nat × Nat) → List (Nat × List Byte)
  | _, [] => []
  | b, (t, n) :: l => (t, b.take n) :: packData (b.drop n) l

/-- A section of a pack, by TYPE; nothing where the pack has none. -/
def packSec (b : List Byte) (type : Nat) : List Byte :=
  let n := leAt b 7 1
  let table := (List.range n).map (fun i => (leAt b (64 + 8 * i) 1, leAt b (68 + 8 * i) 4))
  ((packData (b.drop (64 + 8 * n)) table).find? (fun s => decide (s.1 = type))).elim [] (·.2)

/-- POINTS: index, record and priority-array slot of each point; at most n. -/
def packPoints : Nat → List Byte → List (Nat × PointRec × Option PrioSlot)
  | 0, _ => []
  | n + 1, b =>
    if b.length < 36 then []
    else
      let r := recOf ((b.drop 4).take 32)
      if tcCmd r.tc then (leAt b 0 2, r, some (prioOf ((b.drop 36).take 140))) :: packPoints n (b.drop 176)
      else (leAt b 0 2, r, none) :: packPoints n (b.drop 36)

/-- BUSCFG's bytes of one bus. The specification lists its content (Table 16.5) and no layout: bus, controller, three counts, the station
address, then register words by page offset, object words by index, and templates. -/
def busBytes (x : BusCfg) : List Byte :=
  leBytes 1 x.bus ++ leBytes 1 x.ctrl ++ leBytes 2 x.regs.length ++ leBytes 2 x.objs.length ++ leBytes 2 x.tmpls.length ++ leBytes 8 x.addr
    ++ x.regs.flatMap (fun e => leBytes 4 e.1 ++ leBytes 4 e.2.toNat) ++ x.objs.flatMap (fun e => leBytes 4 e.1 ++ leBytes 4 e.2.toNat)
    ++ x.tmpls.flatMap (fun e => leBytes 2 e.1 ++ leBytes 2 e.2.varAt ++ leBytes 2 (e.2.pairAt.elim 0 (· + 1)) ++ leBytes 2 e.2.bytes.length
        ++ e.2.bytes)

/-- Pairs of words from bytes. -/
def wordPairs (b : List Byte) (n : Nat) : List (Nat × Word) := (List.range n).map (fun i => (leAt b (8 * i) 4, word (leAt b (8 * i + 4) 4)))

/-- Templates from bytes, and what follows them. -/
def tmplsOf : Nat → List Byte → List (Nat × Template) × List Byte
  | 0, b => ([], b)
  | n + 1, b =>
    let len := leAt b 6 2
    let p := leAt b 4 2
    let (l, rest) := tmplsOf n (b.drop (8 + len))
    ((leAt b 0 2, ⟨(b.drop 8).take len, leAt b 2 2, if p = 0 then none else some (p - 1), 0, 0, 0⟩) :: l, rest)

/-- BUSCFG: the shared buses; at most n. -/
def busesOf : Nat → List Byte → List BusCfg
  | 0, _ => []
  | n + 1, b =>
    if b.length < 16 then []
    else
      let nr := leAt b 2 2
      let no := leAt b 4 2
      let (ts, rest) := tmplsOf (leAt b 6 2) (b.drop (16 + 8 * nr + 8 * no))
      ⟨leAt b 0 1, leAt b 1 1, leAt b 8 8, wordPairs (b.drop 16) nr, wordPairs (b.drop (16 + 8 * nr)) no, ts⟩ :: busesOf n rest

/-- The buses of a pack. -/
def packBuses (b : List Byte) : List BusCfg := busesOf 48 (packSec b 7)

/-- The mask of buses of a pack. -/
def packMask (b : List Byte) : Nat := maskOf ((packBuses b).map (·.bus))

/-- The foster's own bus for a bus of a pack. -/
def BusCfg.here (x : BusCfg) : Nat := busAt x.bus x.ctrl

/-- A configuration register of a bus's page: from 0x040 on, one that keeps what is written to it. -/
def busReg (p k : Nat) : Bool :=
  decide (k / 4096 = p) && decide (0x40 ≤ k % 4096) &&
    (match regRow k with
     | some (row, _, _) => (decide (row.acc = .rw) || decide (row.acc = .st)) && !row.perAcc
     | none => false)

/-- BUSCFG of one shared bus: this module's registers, CAN objects and templates for it (Table 16.5, part 13). -/
def Half.busCfg (m : Half) (b : Nat) : BusCfg :=
  let p := busPage b
  let tm := (m.ptab.outB.filter (fun e => decide (bindBus e.2 = some b) && decide (40 ≤ b))).map (fun e => bHalf e.2 9 % 1024)
  { bus := b
    ctrl := ((sfind (m.cfg 13) b).getD [b]).getD 0 0
    addr := if 40 ≤ b then m.macAddr p else 0
    regs := (m.regs.filter (fun e => busReg p e.1)).map (fun e => (e.1 % 4096, e.2))
    objs := if b < 16 then (m.canOf b).objs else []
    tmpls := (m.tmpl.filter (fun e => decide (e.1 ∈ tm))) }

/-- The foster loads a controller (R397): registers, CAN objects, templates and the station address, and its MODE stays. -/
def Half.busLoad (m : Half) (x : BusCfg) : Half :=
  let b := x.here
  let p := busPage b
  let ctrl := p * 4096 + 0x040
  let mode := m.rdF ctrl 0 2
  let m1 := { m with regs := m.regs.filter (fun e => !busReg p e.1) }
  let m2 := x.regs.foldl (fun m (e : Nat × Word) => m.wr (p * 4096 + e.1) e.2) m1
  let m3 := m2.wrF ctrl 0 2 mode
  let m4 := if b < 16 then
      (x.objs.filter (fun e => decide (e.1 % 20 = 0))).foldl (fun m (e : Nat × Word) =>
        m.updCan b (fun z => (z.commitObj (m3.rdB (rCanCtrl b) 4) (e.1 / 20) e.2 ((x.objs.find? (fun i => decide (i.1 = e.1 + 1))).elim 0 (·.2)) []).1)) m3
    else if 40 ≤ b then m3.updMac p (fun z => { z with addr := some x.addr })
    else m3
  { m4 with tmpl := x.tmpls.foldl (fun a e => sset ⟨[], 0, none, 0, 0, 0⟩ a e.1 e.2) m4.tmpl }

/-- The index under which a point of the protected module stands at the foster: its place in the pack, from BASE; other values stay. -/
def pointAt (base : Nat) (pts : List Nat) (i : Nat) : Nat :=
  match pts.findIdx? (fun j => decide (j = i)) with
  | some k => base + k
  | none => i

/-- The point's own index again. -/
def pointBack (base : Nat) (pts : List Nat) (i : Nat) : Nat := if base ≤ i ∧ i < base + pts.length then pts.getD (i - base) i else i

/-- The 512 words of a descriptor with the points it names translated: inputs in words 3 to 6, outputs in words 7 and 8. -/
def descWith (f : Nat → Nat) (l : List Word) : List Word :=
  l.zipIdx.map (fun e =>
    if 3 ≤ e.2 ∧ e.2 ≤ 8 then word (f (fld e.1 0 16) + 2 ^ 16 * f (fld e.1 16 16)) else e.1)

/-- POINTS of a pack: own index and the index here. -/
def Half.pointSec (m : Half) (l : List (Nat × Nat)) : List Byte :=
  (l.take 4096).flatMap (fun e =>
    let r := m.pt e.2
    leBytes 2 e.1 ++ leBytes 2 0 ++ recAll r ++ (if tcCmd r.tc then prioBytes (m.prio e.2) else []))

/-- FORCES of a pack. -/
def Half.forceSec (m : Half) (l : List (Nat × Nat)) : List Byte :=
  m.ptab.forces.flatMap (fun e =>
    match l.find? (fun p => decide (p.2 = e.2.addr)) with
    | some p => if e.2.kind = 1 then [] else forceBytes (some { e.2 with addr := p.1 })
    | none => [])

/-- The loops whose outputs are points of a list. -/
def Half.busLoops (m : Half) (l : List Nat) : List (Nat × Loop) :=
  m.tlr.loops.filter (fun e => decide (e.2.st ≠ 0) && (List.range 4).any (fun k => decide (m.dOut e.2.desc k ∈ l)))

/-- R394: a running pack of this module. -/
def Half.runPack (m : Half) (seq : Word) : List Byte :=
  let pts := (m.busPoints m.shared).map (fun i => (i, i))
  let secs := [(1, (List.range 256).flatMap (fun p => m.gPage p)),
    (2, leBytes 32 (maskOf ((sfind (m.cfg 16) 1).getD []))), (3, m.pointSec pts), (4, m.forceSec pts),
    (5, (m.busLoops (pts.map (·.1))).flatMap (fun e => leBytes 2 e.1 ++ leBytes 2 0 ++ (m.dws e.2.desc 0 512).flatMap (fun w => leBytes 4 w.toNat))),
    (6, ((sfind (m.cfg 16) 3).getD []).map (BitVec.ofNat 8)),
    (7, (bitsOf 48 m.shared).flatMap (fun b => busBytes (m.busCfg b)))]
  packBytes seq m.addr 1 m.tai (((sfind (m.cfg 16) 0).getD []).map (BitVec.ofNat 8)) secs

/-- R394: a configuration pack of this module. -/
def Half.cfgPack (m : Half) (seq : Word) : List Byte :=
  packBytes seq m.addr 2 m.tai (((sfind (m.cfg 16) 0).getD []).map (BitVec.ofNat 8)) [(8, (m.upSlot m.upd.run).cfg)]

/-- FOSTER_PACK: a pack leaves in fragments of 1,008 bytes (R367). -/
def Half.sendPack (m : Half) (y : View) (dest : Nat) (p : Pack) : Half :=
  let n := (p.bytes.length + 1007) / 1008
  let crc := crc32c p.bytes
  (List.range n).foldl (fun m i => m.mzSend y dest 0x30 0x30 peerStamp 0
    (leBytes 4 p.seq.toNat ++ leBytes 2 i ++ leBytes 2 n ++ leBytes 4 p.bytes.length ++ leBytes 4 crc ++ (p.bytes.drop (i * 1008)).take 1008)) m

/-- A pack waits for an instant at which no sheaf is COMMITTED, or is built and sent (R394). One that waited for it is built then. -/
def Half.protect (m : Half) (y : View) (cfg : Bool) : Half :=
  if !m.rdB rFostCtrl 0 ∨ m.foster = 0 then m
  else if !m.noneCommitted then m.updF (fun f => { f with dirty := f.dirty ||| (if cfg then 2 else 1) })
  else
    let seq := m.fost.sentSeq + 1
    let p : Pack := ⟨seq, if cfg then m.cfgPack seq else m.runPack seq⟩
    (m.updF (fun f => { f with sentSeq := seq, out := some p, dirty := f.dirty &&& (if cfg then 1 else 2) })).sendPack y m.foster p

/-- R394: packs that waited go at the first instant at which no sheaf is COMMITTED. -/
def Half.packsDue (m : Half) (y : View) : Half :=
  if m.fost.dirty = 0 ∨ !m.noneCommitted then m
  else
    let d := m.fost.dirty
    let m1 := m.updF (fun f => { f with dirty := 0 })
    let m2 := if d.testBit 0 then m1.protect y false else m1
    if d.testBit 1 then m2.protect y true else m2

/-- The buses a slot has taken that carry a point with LIFE, LIFT_FS or EGRESS (R403), in the protected module's numbering. -/
def Half.privBuses (m : Half) (k : Nat) : Nat :=
  let x := m.fslot k
  let pts := (List.range x.pts.length).map (x.base + ·)
  match x.pack with
  | none => 0
  | some p => maskOf (((packBuses p.bytes).filter (fun b => x.buses.testBit b.bus
      && pts.any (fun i => tcPriv (m.pt i).tc && decide (b.here ∈ m.pointBuses i)))).map (·.bus))

/-- FOSTER_CTRL STATUS to the protected module (Table 16.10). -/
def Half.sendStatus (m : Half) (y : View) (k dest : Nat) : Half :=
  let x := m.fslot k
  let flags := x.mismatch.toNat + 2 * (decide (m.privBuses k ≠ 0)).toNat + 4 * x.asleep.toNat
  m.fostCtrl y dest 2 (leBytes 1 x.st ++ leBytes 1 flags ++ leBytes 2 0 ++ leBytes 4 x.seq.toNat ++ leBytes 8 x.buses)

/-- The foster slot that names a module. -/
def Half.slotFor (m : Half) (a : Nat) : Option Nat :=
  if a = 0 then none else [0, 1].find? (fun k => decide ((m.fslot k).addr = a))

/-- The buses of a slot's pack in a mask. -/
def Half.slotBuses (m : Half) (k mask : Nat) : List BusCfg :=
  match (m.fslot k).pack with
  | none => []
  | some p => (packBuses p.bytes).filter (fun b => mask.testBit b.bus)

/-- R397: a slot takes buses: each controller is loaded and driven. -/
def Half.takeBuses (m : Half) (y : View) (k mask : Nat) : Half :=
  let l := m.slotBuses k mask
  let m1 := l.foldl (fun m b => (m.busLoad b).busMode y 1 b.here) m
  m1.updFs k (fun x => { x with buses := x.buses ||| maskOf (l.map (·.bus)), pending := x.pending &&& (2 ^ 48 - 1 - maskOf (l.map (·.bus))) })

/-- R402: a slot gives up buses: their controllers go to LISTEN. -/
def Half.leaveBuses (m : Half) (y : View) (k mask : Nat) : Half :=
  let l := m.slotBuses k mask
  (l.foldl (fun m b => m.busMode y 2 b.here) m).updFs k (fun x => { x with buses := x.buses &&& (2 ^ 48 - 1 - mask) })

/-- R398: the points of a pack stand at SLOT_PBASE, FOSTERED, and its forces apply to them. -/
def Half.fosterPoints (m : Half) (k : Nat) (b : List Byte) : Half :=
  let x := m.fslot k
  let pts := packPoints (fld x.pbase 16 16) (packSec b 3)
  let own := pts.map (·.1)
  let m1 := pts.zipIdx.foldl (fun m e =>
    let i := x.base + e.2
    let r := { e.1.2.1 with quality := qSet e.1.2.1.quality 6 true, cov := putFld e.1.2.1.cov 16 16 0xFFFF }
    let m1 := (if m.configured i then m.cfgCount (m.pt i).tc i false else m).putRec i r |>.cfgCount r.tc i true
    match e.1.2.2 with
    | some p => m1.setPrio i p
    | none => m1) (m.updFs k (fun x => { x with pts := own }))
  let fs := packSec b 4
  ((List.range (fs.length / 12)).foldl (fun m j =>
    match forceOfBytes ((fs.drop (12 * j)).take 12) m.up, m.freeForce with
    | some f, some n => (m.putForce n (some { f with addr := pointAt x.base own f.addr })).getD m
    | _, _ => m) m1).forceChanged

/-- R398: BUSPAGES pages into the slot's reserve. -/
def Half.fosterPages (m : Half) (k : Nat) (b : List Byte) : Half :=
  let from_ := bitsOf 256 (leNat (packSec b 2))
  let to_ := (sfind (m.cfg 14) (k * 8 + 1)).getD []
  let g := packSec b 1
  (from_.zip to_).foldl (fun m e => if m.gMay 4 e.2 then m.gPut (e.2 * 64) ((g.drop (e.1 * 64)).take 64) else m) m

/-- R398: the loops in reserved descriptors. -/
def Half.fosterLoops (m : Half) (y : View) (k : Nat) (b : List Byte) : Half :=
  let x := m.fslot k
  let t := packSec b 5
  let ds := (sfind (m.cfg 14) (k * 8 + 2)).getD []
  let ls := (sfind (m.cfg 14) (k * 8 + 3)).getD []
  ((ds.zip ls).zipIdx.take (t.length / 2052)).foldl (fun m e =>
    let d := (t.drop (2052 * e.2 + 4)).take 2048
    let ws := descWith (pointAt x.base x.pts) ((List.range 512).map (fun i => word (leAt d (4 * i) 4)))
    (m.setDws e.1.1 0 ws).loopStart y e.1.2 e.1.1) m

/-- R398: the tasks that match the pack's DRILL hash start; a mismatch leaves them stopped, with event 0x1205. -/
def Half.fosterTasks (m : Half) (k : Nat) (b : List Byte) : Half :=
  let d := packSec b 6
  let hash := ((sfind (m.cfg 14) (k * 8 + 5)).getD []).map (BitVec.ofNat 8)
  let ts := m.reserveTasks k
  if d.isEmpty && ts.isEmpty then m
  else if d.drop (d.length - hash.length) ≠ hash then (m.irq 0x0F0 3).ev 0x1205 k 0xFF 0 0
  else if m.rdB rDrlcCtrl 0 then
    ts.foldl (fun m t => if (m.task t).st = 0 then m.updTask t (fun z => { z with st := 1, first := true }) else m) m
  else m

/-- INSTANCE_START (R398): the steps in their order, and event 0x1206. -/
def Half.instanceStart (m : Half) (y : View) (k : Nat) : Half :=
  match (m.fslot k).pack with
  | none => m
  | some p =>
    let m1 := ((((m.fosterPoints k p.bytes).fosterPages k p.bytes).setSlotSt k 3).fosterLoops y k p.bytes).fosterTasks k p.bytes
    let x := m1.fslot k
    m1.ev 0x1206 k (x.buses % 2 ^ 32) (x.buses / 2 ^ 32) ((m1.up - x.beatAt) / oneMs)

/-- Table 16.9: the instance stops, and its points, loops and tasks are freed; its streams start again at 1 (R398). -/
def Half.instanceStop (m : Half) (k : Nat) : Half :=
  let x := m.fslot k
  let here := (List.range x.pts.length).map (x.base + ·)
  let m1 := (m.reserveTasks k).foldl (fun m t => m.taskHalt t) m
  let m2 := (((sfind (m.cfg 14) (k * 8 + 3)).getD []).foldl (fun m l => m.setLoop l loopReset) m1).tlrCount
  let m3 := (m2.ptab.forces.filter (fun e => decide (e.2.kind ≠ 1) && decide (e.2.addr ∈ here))).foldl
    (fun m e => (m.putForce e.1 none).getD m) m2
  let m4 := here.foldl (fun m i =>
    ((if m.configured i then m.cfgCount (m.pt i).tc i false else m).putRaw i recReset).setPrio i prioReset) m3.forceChanged
  let keep (e : Nat × Word) : Bool := decide (e.1 / 256 ≠ k + 1)
  { m4.updFs k (fun x => { x with pts := [] }) with
    mz := { m4.mz with seqs := m4.mz.seqs.filter keep, early := m4.mz.early.filter (fun e => decide (e.1 / 256 ≠ k + 1)) } }

/-- The slot drops what it holds and is IDLE. -/
def Half.slotIdle (m : Half) (y : View) (k : Nat) : Half :=
  let m1 := if (m.fslot k).runs then (m.leaveBuses y k (m.fslot k).buses).instanceStop k else m
  (m1.setSlotSt k 0).updFs k (fun x => { fostSlotReset with addr := x.addr, pbase := x.pbase, hb := x.hb, cfgPack := x.cfgPack })

/-- R402, R403: a running pack of a slot's instance for its protected module, of the buses in a mask. -/
def Half.returnPack (m : Half) (k mask : Nat) (seq : Word) : List Byte :=
  let x := m.fslot k
  match x.pack with
  | none => []
  | some p =>
    let buses := (packBuses p.bytes).filter (fun b => mask.testBit b.bus)
    let all := x.pts.zipIdx.map (fun e => (e.1, x.base + e.2))
    let pts := all.filter (fun e => (m.pointBuses e.2).any (fun b => buses.any (fun c => decide (c.here = b))))
    let from_ := bitsOf 256 (leNat (packSec p.bytes 2))
    let to_ := (sfind (m.cfg 14) (k * 8 + 1)).getD []
    let g := (from_.zip to_).foldl (fun g e => bytesInto (e.1 * 64) (m.gPage e.2) g) (packSec p.bytes 1)
    let t := packSec p.bytes 5
    let loops := (m.busLoops (pts.map (·.2))).map (fun e =>
      let j := (((sfind (m.cfg 14) (k * 8 + 3)).getD []).findIdx? (fun l => decide (l = e.1))).getD 0
      leBytes 2 (leAt t (2052 * j) 2) ++ leBytes 2 0
        ++ (descWith (pointBack x.base x.pts) (m.dws e.2.desc 0 512)).flatMap (fun w => leBytes 4 w.toNat))
    packBytes seq x.addr 1 m.tai ((p.bytes.drop 16).take 32)
      [(1, g), (2, packSec p.bytes 2), (3, m.pointSec pts), (4, m.forceSec pts), (5, loops.flatten), (6, packSec p.bytes 6),
       (7, buses.flatMap busBytes)]

/-- The foster sends its instance's pack to the protected module. -/
def Half.sendReturn (m : Half) (y : View) (k mask dest : Nat) : Half :=
  let seq := (m.fslot k).outSeq + 1
  (m.updFs k (fun x => { x with outSeq := seq })).sendPack y dest ⟨seq, m.returnPack k mask seq⟩

/-- R395: a complete pack at the foster: its RESERVE_HASH is compared with the slot's reserve, and STATUS says so. -/
def Half.packAtFoster (m : Half) (y : View) (k : Nat) (p : Pack) : Half :=
  let kind := leAt p.bytes 6 1
  let hash := ((sfind (m.cfg 14) (k * 8)).getD []).map (BitVec.ofNat 8)
  let m0 := m.updFs k (fun x => { x with asleep := false })
  if (p.bytes.drop 16).take 32 ≠ hash then
    let m1 := (m0.updFs k (fun x => { x with mismatch := true })).irq 0x0F0 2
    let m2 := if (m1.fslot k).st = 1 then m1.setSlotSt k 0 else m1
    (m2.ev 0x1203 k (m.fslot k).addr p.seq.toNat 0).sendStatus y k (m.fslot k).addr
  else if kind = 2 then
    (m0.updFs k (fun x => { x with mismatch := false, cfgPack := some p })).sendStatus y k (m.fslot k).addr
  else
    let m1 := m0.updFs k (fun x => { x with mismatch := false, seq := p.seq, pack := some p })
    (if (m1.fslot k).st = 0 then m1.setSlotSt k 1 else m1).sendStatus y k (m.fslot k).addr

/-- The held buses that carry no point with LIFE, LIFT_FS or EGRESS, at the protected side. -/
def Half.freeHeld (m : Half) : Nat :=
  let held := m.fost.held
  maskOf ((bitsOf 48 held).filter (fun b => !(m.busPoints (2 ^ b)).any (fun i => tcPriv (m.pt i).tc)))

/-- R402: a return pack is loaded, and RELEASE follows for every held bus without privileged points. A pack of a handback brings its points
alone, and the foster releases its buses unasked (R403). -/
def Half.returnLoad (m : Half) (y : View) (p : Pack) : Half :=
  let b := p.bytes
  let recalled := decide (m.grn.recSt = 1) || decide (m.grn.recSt = 2) || decide (m.grn.recSt = 4)
  let pages := if recalled then bitsOf 256 (leNat (packSec b 2)) else List.range 256
  let g := packSec b 1
  let m1 := pages.foldl (fun m i => m.gPut (i * 64) ((g.drop (i * 64)).take 64)) m
  let pts := (packPoints 4096 (packSec b 3)).filter (fun e => m.configured e.1)
  let own := m.fost.held
  let m2 := pts.foldl (fun m e =>
    let old := m.pt e.1
    let here := (m.pointBuses e.1).any (fun b => own.testBit b)
    let m1 := m.putRec e.1 { e.2.1 with quality := qSet e.2.1.quality 6 here, srcBind := old.srcBind, cov := putFld e.2.1.cov 16 16 (fld old.cov 16 16) }
    match e.2.2 with
    | some s => m1.setPrio e.1 { s with outb := (m.prio e.1).outb }
    | none => m1) m1
  let fs := packSec b 4
  let m3 := (List.range (fs.length / 12)).foldl (fun m j =>
    match forceOfBytes ((fs.drop (12 * j)).take 12) m.up with
    | none => m
    | some f =>
      match m.forceOf f.addr with
      | some (n, _) => (m.putForce n (some f)).getD m
      | none => m.freeForce.elim m (fun n => (m.putForce n (some f)).getD m)) m2
  let m4 := if recalled then m3 else m3.nrgRestore y.leap none
  let m5 := (m4.ev 0x120A m.foster pts.length pages.length 0).forceChanged
  let rel := m5.freeHeld &&& packMask b
  if rel = 0 ∨ m5.fost.self ≠ 2 then m5 else (m5.fostCtrl y m5.foster 4 (leBytes 8 rel)).setSelf 3 5

/-- CONFIG_PACK_ACCEPT (R404): a pulled configuration pack is judged: its signature, its module address and its rollback level; event
0x1209 says whether it was accepted, and it is stored. -/
def Half.configPulled (m : Half) (arb src : Nat) (p : Pack) : Half :=
  let img := packSec p.bytes 8
  let bad := if img.length < 256 then 1 else m.imgHeader arb 0 img
  let why := if leAt img 5 1 ≠ 2 then 4 else if bad ≠ 0 then bad else if leAt img 16 2 ≠ Config.addrStrap % 2 ^ 16 then 6 else if !m.imgSigned img then 9 else 0
  let ver := leAt img 8 4
  if why ≠ 0 then m.ev 0x1209 src ver 0 why
  else
    ((m.updSlot m.upd.run (fun s => { s with cfg := img, cfgMod := leAt img 16 2, cfgVer := word ver })).updFs 2 (fun x =>
      { x with cfgPack := some p })).ev 0x1209 src ver 1 0

/-- The module holds no valid configuration image (R404). -/
def Half.unconfigured (m : Half) : Bool := (m.upSlot m.upd.run).cfg.isEmpty && !m.upd.recovery

/-- A complete pack is with the slot it came for: a foster's (0, 1), or the return pack's (2). -/
def Half.packDone (m : Half) (y : View) (arb k src : Nat) (p : Pack) : Half :=
  if k < 2 then m.packAtFoster y k p
  else if leAt p.bytes 6 1 = 2 then (if m.unconfigured then m.configPulled arb src p else m)
  else if m.fost.self = 2 ∨ m.fost.self = 3 then m.returnLoad y p
  else m

/-- R367, R395: a FOSTER_PACK fragment: the pack is acknowledged once it is whole, or at once where it is too large. -/
def Half.packRx (m : Half) (y : View) (arb : Nat) (f : MzFrame) : Half :=
  let seq := mzWord f 0
  let total := leAt f.payload 8 4
  let slot := match m.slotFor f.src with
    | some k => if m.rdB rFostCtrl 1 then some k else none
    | none => if (f.src = m.foster ∧ m.foster ≠ 0) ∨ m.unconfigured then some 2 else none
  let ack (m : Half) (st : Nat) : Half := m.mzSend y f.src 0x30 0x31 peerStamp 0 (leBytes 4 seq.toNat ++ leBytes 1 st ++ leBytes 3 0)
  match slot with
  | none => m
  | some k =>
    if 1032192 < total then (if leAt f.payload 4 2 = 0 then ack m 2 else m)
    else
      let n := leAt f.payload 6 2
      let x := m.fslot k
      let old := if x.fragSeq = seq then x.frags else []
      let frags := sput old (leAt f.payload 4 2) (f.payload.drop 16)
      if frags.length < n then m.updFs k (fun x => { x with fragSeq := seq, frags := frags })
      else
        let b := (frags.flatMap (·.2)).take total
        let m1 := m.updFs k (fun x => { x with fragSeq := seq, frags := [] })
        if crc32c b ≠ leAt f.payload 12 4 ∨ b.length ≠ total then ack m1 1 else (ack m1 0).packDone y arb k f.src ⟨seq, b⟩

/-- After a pulled image has been stored, the module restarts cold with it (R404). -/
def State.pulled (s : State) : State :=
  if (s.a.fslot 2).cfgPack.isSome ∨ (s.b.fslot 2).cfgPack.isSome then
    (s.both (fun m => m.updFs 2 (fun x => { x with cfgPack := none }))).failStart 8 true 1
  else s

/-- R395: a FOSTER_ACK. -/
def Half.ackPack (m : Half) (f : MzFrame) : Half :=
  match m.fost.out with
  | some p =>
    if f.src = m.foster ∧ p.seq = mzWord f 0 then
      (if leAt f.payload 4 1 = 0 then
         m.updF (fun z => { z with
           out := none
           ackSeq := if leAt p.bytes 6 1 = 1 then p.seq else z.ackSeq
           ackAt := if leAt p.bytes 6 1 = 1 then some m.up else z.ackAt })
       else m.irq 0x0F0 2)
    else m
  | none => m

/-- R393: HEARTBEAT (Table 16.4). -/
def Half.heartbeat (m : Half) (y : View) : Half :=
  if !y.speaks then m
  else m.mzSend y 0xFFFF 0x03 0x03 peerStamp 0
    (leBytes 1 (halfNum m.self) ++ leBytes 1 (roleCode y.role) ++ leBytes 2 (m.fost.self + (m.rdB rFostCtrl 1).toNat * 256) ++ leBytes 2 m.foster
      ++ leBytes 2 0 ++ leBytes 4 m.fost.ackSeq.toNat ++ leBytes 8 m.tai.toNat)

/-- Table 16.9: a sign of life of the protected module: a HEARTBEAT (beat), or a QUERY. -/
def Half.alive (m : Half) (k : Nat) (beat : Bool) : Half :=
  let m1 := m.updFs k (fun x => { x with beatAt := if beat then m.up else x.beatAt, asleep := false })
  if (m1.fslot k).st = 2 ∧ beat then (m1.updFs k (fun x => { x with pending := 0 })).setSlotSt k 1
  else if (m1.fslot k).st = 3 then m1.setSlotSt k 4
  else m1

/-- A HEARTBEAT arrives. -/
def Half.heartbeatRx (m : Half) (f : MzFrame) : Half :=
  match m.slotFor f.src with
  | some k => m.alive k true
  | none => m

/-- R396: ABSENT_MS have passed without a HEARTBEAT. -/
def Half.absence (m : Half) (k : Nat) : Half :=
  let x := m.fslot k
  let all := match x.pack with
    | some p => packMask p.bytes
    | none => 0
  if x.addr = 0 ∨ m.up < x.beatAt + m.rdF rFostCtrl 16 8 * oneMs then m
  else if x.st = 1 ∧ !x.asleep then
    ((m.updFs k (fun x => { x with pending := all })).setSlotSt k 2).ev 0x1204 k x.addr ((m.up - x.beatAt) / oneMs) 0
  else if x.st = 4 then (m.updFs k (fun x => { x with pending := all &&& (2 ^ 48 - 1 - x.buses) })).setSlotSt k 3
  else m

/-- The frames a check saw on a bus. -/
def busSeen (l : List BusSeen) (b : Nat) : Nat := ((l.filter (fun e => decide (e.bus = b))).map (·.n)).sum

/-- R397: the buses under check are judged: clean ones are taken, and the first instance starts; an unclean one stays in LISTEN, with event
0x1205 when it is found so. first: the 20 ms check, which reports each. -/
def Half.checkBuses (m : Half) (y : View) (k : Nat) (first : Bool) (seen : List BusSeen) : Half :=
  let x := m.fslot k
  let l := bitsOf 48 x.pending
  let clean := l.filter (fun b => decide (busSeen seen b = 0))
  let m1 := (l.filter (fun b => decide (busSeen seen b ≠ 0) && first)).foldl (fun m b => (m.irq 0x0F0 3).ev 0x1205 k b (busSeen seen b) 0) m
  if clean.isEmpty then m1
  else
    let m2 := m1.takeBuses y k (maskOf clean)
    if x.st = 2 then m2.instanceStart y k else m2

/-- R399: the protected side's own check of its shared buses. -/
def Half.checkOwn (m : Half) (y : View) (mask : Nat) (first : Bool) (seen : List BusSeen) : Half :=
  let l := bitsOf 48 mask
  let bad := l.filter (fun b => decide (busSeen seen b ≠ 0))
  let m1 := bad.foldl (fun m b => if first then (m.irq 0x0F0 3).ev 0x1205 0xFF b (busSeen seen b) 0 else m) m
  (m1.busModes y 1 (maskOf (l.filter (fun b => decide (b ∉ bad))))).updF (fun f => { f with blocked := maskOf bad })

/-- R399: no STATUS within 500 ms. -/
def Half.queryTimeout (m : Half) (y : View) (seen : List BusSeen) : Half :=
  if !m.fost.query then m
  else ((m.updF (fun f => { f with query := false })).checkOwn y m.shared true seen).setSelf 0 4

/-- BUS_RECHECK: the foster's unclean buses, or the protected side's (k = 2). -/
def Half.busRecheck (m : Half) (y : View) (k : Nat) (seen : List BusSeen) : Half :=
  if k = 2 then m.checkOwn y m.fost.blocked false seen
  else if (m.fslot k).st = 2 ∨ (m.fslot k).st = 3 then m.checkBuses y k false seen
  else m

/-- R399: a QUERY is answered by the slot that names its sender. -/
def Half.queryRx (m : Half) (y : View) (f : MzFrame) : Half :=
  match m.slotFor f.src with
  | some k => (m.alive k false).sendStatus y k f.src
  | none => m

/-- R400, R396, R399, R401: a STATUS of the foster. -/
def Half.statusRx (m : Half) (y : View) (f : MzFrame) : Half :=
  let st := leAt f.payload 4 1
  let flags := leAt f.payload 5 1
  let held := leAt f.payload 12 8 % 2 ^ 48
  if m.unconfigured then (if m.fost.query then (m.updF (fun z => { z with query := false })).fostCtrl y f.src 3 (leBytes 4 2) else m)
  else if f.src ≠ m.foster ∨ m.foster = 0 then m
  else if m.fost.query then
    let m1 := m.updF (fun z => { z with query := false, mismatch := flags.testBit 0 })
    if st = 3 ∨ st = 4 then
      let m2 := (m1.updF (fun z => { z with held := held })).setSelf 2 3
      ((m2.busModes y 1 (m.shared &&& (2 ^ 48 - 1 - held))).markFostered y held true).fostCtrl y m.foster 3 (leBytes 4 1)
    else (m1.busModes y 1 m.shared).setSelf (if st = 1 ∧ !flags.testBit 0 then 1 else 0) 4
  else
    let m1 := m.updF (fun z => { z with
      mismatch := flags.testBit 0, sleeping := if z.sleeping = 1 ∧ flags.testBit 2 then 2 else z.sleeping })
    if m1.fost.self = 1 ∧ flags.testBit 0 then m1.setSelf 0 2
    else if m1.fost.self = 0 ∧ st = 1 ∧ !flags.testBit 0 ∧ m1.fost.ackAt.isSome then m1.setSelf 1 1
    else m1

/-- R402, R404: a PULL. -/
def Half.pullRx (m : Half) (y : View) (f : MzFrame) : Half :=
  match m.slotFor f.src with
  | none => m
  | some k =>
    let x := m.fslot k
    if leAt f.payload 4 1 = 2 then
      (match x.cfgPack with
       | some p => m.sendPack y f.src p
       | none => m)
    else if leAt f.payload 4 1 = 1 ∧ x.runs then m.sendReturn y k (2 ^ 48 - 1) f.src
    else m

/-- FOSTER_CTRL RELEASED, with event 0x1207: 1 handback, 0 automatic. -/
def Half.release (m : Half) (y : View) (k mask how : Nat) : Half :=
  let m1 := (m.leaveBuses y k mask).ev 0x1207 k (mask % 2 ^ 32) (mask / 2 ^ 32) how
  m1.fostCtrl y (m1.fslot k).addr 5 (leBytes 8 mask ++ leBytes 8 (m1.fslot k).buses)

/-- R402: a RELEASE: the named buses that carry no privileged point. -/
def Half.releaseRx (m : Half) (y : View) (f : MzFrame) : Half :=
  match m.slotFor f.src with
  | some k =>
    let x := m.fslot k
    if x.runs then m.release y k (leAt f.payload 4 8 % 2 ^ 48 &&& x.buses &&& (2 ^ 48 - 1 - m.privBuses k)) 0 else m
  | none => m

/-- R402: a RELEASED: the module drives the buses and says so with CLAIMED. -/
def Half.releasedRx (m : Half) (y : View) (f : MzFrame) : Half :=
  let mask := leAt f.payload 4 8 % 2 ^ 48 &&& m.fost.held
  if f.src ≠ m.foster ∨ m.foster = 0 ∨ (m.fost.self ≠ 2 ∧ m.fost.self ≠ 3) then m
  else
    let m1 := m.setSelf 3 5
    let m2 := ((m1.busModes y 1 mask).markFostered y mask false).updF (fun z => { z with held := z.held &&& (2 ^ 48 - 1 - mask) })
    let m3 := (m2.fostCtrl y m.foster 6 (leBytes 8 mask)).ev 0x1208 (mask % 2 ^ 32) (mask / 2 ^ 32) m.foster 0
    if m3.fost.held = 0 then m3.setSelf 1 7 else m3.setSelf 2 6

/-- R402: a CLAIMED: with no bus held any more, the slot is back in STANDBY and the instance stops. -/
def Half.claimedRx (m : Half) (f : MzFrame) : Half :=
  match m.slotFor f.src with
  | some k => if (m.fslot k).st = 4 ∧ (m.fslot k).buses = 0 then (m.instanceStop k).setSlotSt k 1 else m
  | none => m

/-- R401: a DORMANT. -/
def Half.dormantRx (m : Half) (y : View) (f : MzFrame) : Half :=
  match m.slotFor f.src with
  | some k => (m.updFs k (fun x => { x with asleep := true })).sendStatus y k f.src
  | none => m

/-- The slot of FOST.SLOT_SEL. -/
def Half.selFs (m : Half) : Nat := m.rdF rFostSlotSel 0 1

/-- FOST.CMD_STAT of an accessor takes a status, and the write its code. -/
def Half.fostStat (m : Half) (n status code : Nat) : Half × Nat := (m.setView n rFostCmdStat (word status), code)

/-- FOST.CMD HANDBACK (R403). -/
def Half.handback (m : Half) (y : View) (n : Nat) : Half × Nat :=
  let k := m.selFs
  let x := m.fslot k
  if x.st ≠ 4 then m.fostStat n 5 8
  else
    let mask := x.hb.toNat % 2 ^ 48 &&& x.buses
    ((m.sendReturn y k mask x.addr).release y k mask 1).fostStat n 0 0

/-- FOST.CMD DROP (Table 16.16). -/
def Half.drop (m : Half) (y : View) (n : Nat) : Half × Nat :=
  let k := m.selFs
  if 1 < (m.fslot k).st then m.fostStat n 5 8 else (m.slotIdle y k).fostStat n 0 0

/-- FOST.CMD SEND_PACK (Table 16.16). -/
def Half.sendPackCmd (m : Half) (y : View) (n : Nat) : Half × Nat :=
  if !m.rdB rFostCtrl 0 ∨ m.foster = 0 then m.fostStat n 5 8 else (m.protect y false).fostStat n 0 0

/-- FOST.CMD. -/
def Half.fostCmdEff (m : Half) (y : View) (n : Nat) (v : Word) : Half × Nat :=
  if fld v 0 4 = 1 then m.handback y n
  else if fld v 0 4 = 2 then m.drop y n
  else if fld v 0 4 = 3 then m.sendPackCmd y n
  else m.fostStat n 5 5

/-- FOST.FOSTER (R393). -/
def Half.fosterEff (m : Half) (y : View) (n : Nat) (v : Word) : Half × Nat :=
  let a := fld v 0 16
  if a ≠ 0 ∧ (!m.inRing a ∨ a = m.addr) then (m, 5)
  else
    let m1 := if a = 0 ∨ m.fost.self = 1 then m.setSelf 0 2 else m
    let m2 := if a = 0 then ((m1.busModes y 1 m.fost.held).markFostered y m.fost.held false).updF (fun f => { f with held := 0, out := none }) else m1
    (m2.plainWrite n rFostFoster v, 0)

/-- A write to a register of the FOST page (Table 16.15). -/
def Half.fostWrite (m : Half) (y : View) (n k : Nat) (v : Word) : Half × Nat :=
  let i := m.selFs
  if k = rFostFoster then m.fosterEff y n v
  else if k = rFostCmd then m.fostCmdEff y n v
  else if k = rFostCtrl then
    (if fld v 24 8 < 1 ∨ 60 < fld v 24 8 ∨ fld v 16 8 < 10 then (m, 5) else (m.plainWrite n k v, 0))
  else if k = rFostSlotAddr then
    ((((m.slotIdle y i).updFs i (fun x => { x with addr := fld v 0 16, cfgPack := none }))).gen 0x0F0, 0)
  else if k = rFostSlotPbase then
    (if 4096 < fld v 16 16 then (m, 5) else ((m.updFs i (fun x => { x with pbase := v })).gen 0x0F0, 0))
  else if k = rFostHbMask then
    (match m.commitWords n k 2 v with
     | lo :: hi :: _ => (m.updFs i (fun x => { x with hb := dword lo (hi &&& 0xFFFF) }), 0)
     | _ => (m, 0))
  else (m.plainWrite n k v, 0)

/-- The live registers of the FOST page (Table 16.15). -/
def Half.fostRead (m : Half) (k : Nat) : Option Word :=
  let f := m.fost
  let x := m.fslot m.selFs
  if k = rFostSelf then some (word (f.mismatch.toNat * 256 + f.self))
  else if k = rFostPackSeq then some f.ackSeq
  else if k = rFostPackAge then some (f.ackAt.elim 0xFFFFFFFF (fun t => word (min ((m.up - t) / oneSec) 0xFFFFFFFF)))
  else if k = rFostHeld then some (word f.held)
  else if k = rFostHeld + 4 then some (word (f.held / 2 ^ 32))
  else if k = rFostSlotAddr then some (word x.addr)
  else if k = rFostSlotStat then
    some (word (x.asleep.toNat * 2 ^ 10 + (decide (m.privBuses m.selFs ≠ 0)).toNat * 2 ^ 9 + x.mismatch.toNat * 2 ^ 8 + x.st))
  else if k = rFostSlotSeq then some x.seq
  else if k = rFostSlotBuses then some (word x.buses)
  else if k = rFostSlotBuses + 4 then some (word (x.buses / 2 ^ 32))
  else if k = rFostSlotPbase then some x.pbase
  else if k = rFostHbMask then some (loWord x.hb)
  else if k = rFostHbMask + 4 then some (hiWord x.hb)
  else none

/-- The foster slots as the configuration gives them (part 14): SLOT_ADDR and SLOT_PBASE. -/
def Half.cfgFoster (m : Half) : Half :=
  [0, 1].foldl (fun m k =>
    match sfind (m.cfg 14) (k * 8 + 6) with
    | some l => m.updFs k (fun x => { x with addr := l.getD 0 0 % 2 ^ 16, pbase := word (l.getD 1 0) })
    | none => m) m

/-- R399: a starting module with a foster puts its shared buses in LISTEN. -/
def Half.fosterListen (m : Half) (y : View) : Half :=
  if m.foster = 0 then m else (m.busModes y 2 m.shared).updF (fun f => { f with query := true })

/-- R399: the QUERY of a starting module leaves once its half speaks. -/
def Half.sendQuery (m : Half) (y : View) (dest : Nat) : Half := m.fostCtrl y dest 1 []

/-- HEARTBEAT_SEND (R393). -/
def execHeartbeatSend (h : HalfId) (s : State) : Host.Outcome State Fault Refusal := .next (s.local_ h (fun y m => m.heartbeat y))

/-- PACK_SEND (R394): a running pack, or with cfg a configuration pack. -/
def execPackSend (h : HalfId) (cfg : Bool) (s : State) : Host.Outcome State Fault Refusal := .next (s.local_ h (fun y m => m.protect y cfg))

/-- PACK_RETRY (R395): event 0x1201, and the pack again. -/
def execPackRetry (h : HalfId) (s : State) : Host.Outcome State Fault Refusal :=
  .next (s.local_ h (fun y m =>
    match m.fost.out with
    | none => m
    | some p =>
      if m.foster = 0 then m
      else ((m.irq 0x0F0 2).ev 0x1201 m.foster p.seq.toNat (m.fost.ackAt.elim 0xFFFFFFFF (fun t => (m.up - t) / oneSec)) 0).sendPack y m.foster p))

/-- PROTECTION_TIMEOUT (Table 16.8): 30 s without an acknowledged pack. -/
def execProtectionTimeout (h : HalfId) (s : State) : Host.Outcome State Fault Refusal :=
  .next (s.local_ h (fun _ m =>
    if m.fost.self = 1 ∧ m.fost.ackAt.all (fun t => decide (t + 30 * oneSec ≤ m.up)) then m.setSelf 0 2 else m))

/-- ABSENCE (R396). -/
def execAbsence (h : HalfId) (k : Fin 2) (s : State) : Host.Outcome State Fault Refusal := .next (s.local_ h (fun _ m => m.absence k.val))

/-- BUS_CHECK_END (R397). -/
def execBusCheckEnd (h : HalfId) (k : Fin 2) (seen : List BusSeen) (s : State) : Host.Outcome State Fault Refusal :=
  .next (s.local_ h (fun y m => if (m.fslot k.val).st = 2 then m.checkBuses y k.val true seen else m))

/-- BUS_RECHECK (R397, R399). -/
def execBusRecheck (h : HalfId) (k : Fin 3) (seen : List BusSeen) (s : State) : Host.Outcome State Fault Refusal :=
  .next (s.local_ h (fun y m => m.busRecheck y k.val seen))

/-- QUERY (R399). -/
def execQuery (f : MzFrame) (s : State) : Host.Outcome State Fault Refusal := .next (s.input (fun y m => if m.mzMine f then m.queryRx y f else m))

/-- QUERY_TIMEOUT (R399). -/
def execQueryTimeout (h : HalfId) (seen : List BusSeen) (s : State) : Host.Outcome State Fault Refusal :=
  .next (s.local_ h (fun y m => m.queryTimeout y seen))

/-- FOSTER_STATUS (R400). -/
def execFosterStatus (f : MzFrame) (s : State) : Host.Outcome State Fault Refusal :=
  .next (s.input (fun y m => if m.mzMine f then m.statusRx y f else m))

/-- PULL (R402, R404). -/
def execPull (f : MzFrame) (s : State) : Host.Outcome State Fault Refusal := .next (s.input (fun y m => if m.mzMine f then m.pullRx y f else m))

/-- FOSTER_RELEASE (R402). -/
def execFosterRelease (f : MzFrame) (s : State) : Host.Outcome State Fault Refusal :=
  .next (s.input (fun y m => if m.mzMine f then m.releaseRx y f else m))

/-- RELEASED (R402). -/
def execReleased (f : MzFrame) (s : State) : Host.Outcome State Fault Refusal :=
  .next (s.input (fun y m => if m.mzMine f then m.releasedRx y f else m))

/-- CLAIMED (R402). -/
def execClaimed (f : MzFrame) (s : State) : Host.Outcome State Fault Refusal :=
  .next (s.input (fun _ m => if m.mzMine f then m.claimedRx f else m))

/-- FOSTER_DORMANT (R401). -/
def execFosterDormant (f : MzFrame) (s : State) : Host.Outcome State Fault Refusal :=
  .next (s.input (fun y m => if m.mzMine f then m.dormantRx y f else m))

/-- FOSTER_PACK_RECEIVE (R395, R404). -/
def execFosterPackReceive (f : MzFrame) (s : State) : Host.Outcome State Fault Refusal :=
  .next (s.input (fun y m => if m.mzMine f then m.packRx y s.yoke.arb f else m)).pulled

/-- FOSTER_ACK_RECEIVE (R395). -/
def execFosterAckReceive (f : MzFrame) (s : State) : Host.Outcome State Fault Refusal :=
  .next (s.input (fun _ m => if m.mzMine f then m.ackPack f else m))

/-- MZ_HEARTBEAT_RECEIVE (R396). -/
def execMzHeartbeatReceive (f : MzFrame) (s : State) : Host.Outcome State Fault Refusal :=
  .next (s.input (fun _ m => if m.mzMine f then m.heartbeatRx f else m))

/-- HANDBACK (R403). -/
def execHandback (h : HalfId) (r : Req) (s : State) : Host.Outcome State Fault Refusal :=
  .next (s.regCmdV h r rFostCmd 1 (fun y m => m.handback y (reqNum r)))

/-- DROP (R396). -/
def execDrop (h : HalfId) (r : Req) (s : State) : Host.Outcome State Fault Refusal :=
  .next (s.regCmdV h r rFostCmd 2 (fun y m => m.drop y (reqNum r)))

/-- SEND_PACK (R394). -/
def execSendPack (h : HalfId) (r : Req) (s : State) : Host.Outcome State Fault Refusal :=
  .next (s.regCmdV h r rFostCmd 3 (fun y m => m.sendPackCmd y (reqNum r)))

/-- FOST_FOSTER_WRITE (R393). -/
def execFostFosterWrite (h : HalfId) (r : Req) (v : Word) (s : State) : Host.Outcome State Fault Refusal :=
  .next (s.regCmdV h r rFostFoster v (fun y m => m.fosterEff y (reqNum r) v))

end Sys2Proof.Machine
end

