-- ==== Sys2Proof/Machine/Startup.lean ====
section
/-! DEFINITION. The module's start (R524 to R530), the start of one half (R486, Table 16.2), and READY. -/
namespace Sys2Proof.Machine

/-- The registers of a half that outlive a start (R68, R530). kept: the always-on directory has not lost its values. -/
def Half.keptRegs (m : Half) (kept : Bool) : Sparse Word :=
  m.regs.filter (fun e => decide (e.1 = rSysRestartCause)
    || (kept && (keptKey e.1 || (decide (e.1 = rSysModuleAddr) && !flag e.2 16))))

/-- The link keys of a port that outlive a start, with their counters (R369, R530). -/
def MzpSt.kept (x : MzpSt) : MzpSt :=
  { mzpReset with key0 := x.key0, key1 := x.key1, txCnt0 := x.txCnt0, txCnt1 := x.txCnt1, rxCnt0 := x.rxCnt0, rxCnt1 := x.rxCnt1 }

/-- A half out of reset: its flash, its shadow banks and what the always-on directory keeps for it; everything else is at its reset value. -/
def Half.outOfReset (m : Half) (kept : Bool) (tai : Nat) : Half :=
  let r := halfReset m.self
  { r with
    regs := m.keptRegs kept
    tai := BitVec.ofNat 64 tai
    grn := { r.grn with bank0 := m.grn.bank0, bank1 := m.grn.bank1, count := m.grn.count }
    upd := { m.upd with load := none, rxOff := 0, rxStat := 0, migrating := false, migrated := false, recovery := false }
    sec := m.sec
    lpddr := m.lpddr
    mz := { r.mz with ports := if kept then m.mz.ports.map (fun e => (e.1, e.2.kept)) else [] }
    fost := { r.fost with slots := m.fost.slots.map (fun e => (e.1, { fostSlotReset with cfgPack := e.2.cfgPack })) }
    sent := m.sent
    fresh := m.fresh }

/-- R486: the configuration part's signature verifies under the owner key or the previous one. -/
def Half.cfgSigned (m : Half) (b : List Byte) : Bool :=
  let nblk := leAt b 20 4
  let t := b.drop (256 + nblk * 65552)
  b.isEmpty || (m.sec.key.toList ++ m.sec.prev.toList).any (fun k => decide (Config.ownerKeyId k = leAt b 36 4)
    && ecdsaOk (ownerPoint k) (imgDigest b nblk) (beAt t 0 48) (beAt t 48 48))

/-- R486: how a slot fails its verification: 1 a block tag, 2 a signature, and the block. -/
def Half.slotBad (m : Half) (bad : List BadSlot) (n : Nat) : Option (Nat × Nat) :=
  match bad.find? (fun x => decide (x.half = m.self) && decide (x.slot = n)) with
  | some x => some (x.kind, x.block)
  | none => if m.cfgSigned (m.upSlot n).cfg then none else some (2, 0)

/-- R486: a slot that fails becomes INVALID, with event 0x0608. -/
def Half.slotCorrupt (m : Half) (n : Nat) (why : Nat × Nat) : Half :=
  (m.updSlot n (fun s => { s with st := 6 })).ev 0x0608 (halfNum m.self) n why.1 why.2

/-- R486, R495: the slot a half starts from: the one it is to start from, else its other slot where that may serve, else the recovery
area. -/
def Half.pickSlot (m : Half) (bad : List BadSlot) : Half :=
  let n := m.upd.next % 2
  let o := 1 - n
  match m.slotBad bad n with
  | none => m.updU (fun u => { u with run := n })
  | some w =>
    let m1 := m.slotCorrupt n w
    let may := decide ((m.upSlot o).st = 2) || decide ((m.upSlot o).st = 3) || decide ((m.upSlot o).st = 5)
    let rec_ (m : Half) : Half :=
      (m.updU (fun u => { u with recovery := true })).ev 0x060B (halfNum m.self) (m.upSlot 0).st (m.upSlot 1).st 0
    if !may then rec_ m1
    else match m1.slotBad bad o with
      | none => m1.updU (fun u => { u with run := o, next := o })
      | some w => rec_ (m1.slotCorrupt o w)

/-- Table 20.6: a half that has started from the slot of an activation, or back from it, moves its slots' states. -/
def Half.actSlots (m : Half) (a : Activation) : Half :=
  if m.upd.recovery then m
  else if a.phase = 1 ∧ m.upd.run = a.slot then
    m.updU (fun u => { u with slots := u.slots.map (fun e =>
      (e.1, { e.2 with st := if e.1 = a.slot then 4 else if e.2.st = 3 then 5 else e.2.st })) })
  else if a.phase = 4 ∧ m.upd.run = a.was then
    m.updU (fun u => { u with slots := u.slots.map (fun e => (e.1, { e.2 with st := if e.2.st = 4 then 6 else if e.2.st = 5 then 3 else e.2.st })) })
  else m

/-- The configuration load of Table 22.1, the Tiller's loops (whose reapplied replacements, R248, find them enabled), the journal, the energy
area, the forces and the Drill at a start. -/
def Half.configLoad (m : Half) (y : View) (warm : Bool) (swo : Option Dword) : Half :=
  let m1 := (((((m.cfgRegs.cfgDrill).cfgTiller).cfgCan).cfgTemplates).cfgPoints).cfgTables.cfgFoster
  let m2 := if m1.upd.recovery then m1 else m1.grnMap m1.cfgMap
  let m3 := m2.cfgModes.ptpApply
  let m4 := { m3 with uio := { m3.uio with hold := some 32 } }
  (((((m4.cfgLoops y).sheafRestart y warm).nrgRestore y.leap swo).forcesBack (warm && m4.drlFound)).drillBack warm)

/-- SYS.RESTART_CAUSE gains causes and shows WARM (R528, R526). -/
def Half.restartCause (m : Half) (causes : Nat) (warm : Bool) : Half :=
  m.wr rSysRestartCause (putFlag (m.rd rSysRestartCause ||| word (causes % 2 ^ 8)) 16 warm)

/-- R526: what the granary recalled allows a warm start. -/
def Half.warmHere (m : Half) : Bool :=
  decide (m.grn.recSt ≠ 0) && decide (m.grn.recSt ≠ 3) && decide (leAt (m.gPage 28) 0 2 = m.addr)

/-- R493: a half that restarts in a rollback takes its policy data from the saved data area. -/
def State.savedBack (s : State) (h : HalfId) : State :=
  if s.yoke.act.phase = 4 ∧ (s.half h).upd.run = s.yoke.act.was then s.upd h (fun m => m.takeSaved s.xferMib) else s

/-- A half has failed to start from the slot of an activation (R489, R493). -/
def State.trialFailed (s : State) (h : HalfId) : State :=
  let a := s.yoke.act
  if (a.phase = 1 ∨ a.phase = 3) ∧ ((s.half h).upSlot a.slot).st = 6 then
    (if s.autoRb then s.backStart 3 a.stamp else if a.phase = 1 then s.actAbort 2 h else s)
  else s

/-- The RTC's value of SWO_TIME, where it is valid (R275). -/
def State.swo (s : State) : Option Dword := if s.yoke.rtc.swo then some s.yoke.rtc.swoTime else none

/-- The start-up steps of one half that rejoins (Table 16.2, R524): its own recall, recorder, image and configuration. -/
def State.halfStart (s : State) (h : HalfId) (causes : Nat) (x : StartObs) : State :=
  let m0 := ((s.half h).outOfReset true s.rtcTai).grnRecall
  let warm := m0.warmHere
  let m1 := ((m0.restartCause causes warm).evRestore [] 0).pickSlot x.bad
  let m2 := m1.actSlots s.yoke.act
  let s1 := s.updY h (fun y => { y with boot := none })
  (s1.set h (m2.configLoad (s1.view h) warm s.swo)).savedBack h |>.trialFailed h

/-- R494, R493: what an activation or rollback in progress leaves to a module restart: SPLIT and YOKE return both halves to the slot that was
ACTIVE; a rollback is complete with it. Answers whether the saved data area is to be restored. -/
def State.actRestart (s : State) : State × Bool :=
  let a := s.yoke.act
  let slots (m : Half) (f : Nat → Nat) : Half :=
    m.updU (fun u => { u with slots := u.slots.map (fun e => (e.1, { e.2 with st := f e.2.st })), next := a.was })
  if a.phase = 1 ∨ a.phase = 2 then
    let s1 := s.both (fun m => slots m (fun st => if st = 4 then 2 else if st = 5 then 3 else st))
    (s1.updAct (fun a => { a with phase := 0, who := none }), true)
  else if a.phase = 4 then
    (s.both (fun m => slots m (fun st => if st = 4 then 6 else if st = 5 then 3 else st)) |>.updAct (fun a => { a with phase := 0, who := none, back := false }), true)
  else (s, false)

/-- The Yoke out of reset (R530): its registers at their reset values, no lease, both halves BOOTING, the relays closed. -/
def Yoke.outOfReset (k : Yoke) (x : StartObs) : Yoke :=
  let y : YHalf := ⟨.booting, none, true, [], false, false, none, false, 8000, false, false⟩
  { k with
    a := y, b := y, holder := none, epoch := 0, latched := false, granted := false, hold := false, relay := true, xup := x.xlink
    retries := 0, xfer := none, handover := none, outs := [], chall := none, recs := [], recsLost := 0, regs := []
    rtc := { k.rtc with backup := false, late := [] }
    mgt := ⟨0, [], false, none⟩
    pwr := { k.pwr with
      state := 0, entry := none, stat := 0, pfw := false, holdup := false, tag := 0, held := false, due := false, causes := 0, cold := false
      railBad := [], railOk := [], railOut := [] } }

/-- R414, Table 17.2: after a restart that finds VLOW or OSF set, the active coefficients come from the granary's user set, or from the factory set. -/
def State.compBack (s : State) : State :=
  let l := s.a.gPage 29
  if !s.yoke.rtc.vlow && !s.yoke.rtc.osf then s
  else if leAt l 16 1 = 1 then s.updRtc (fun r => { r with comp := some ((List.range 4).map (fun i => word (leAt l (4 * i) 4))), user := true })
  else s.updRtc (fun r => { r with comp := none, user := false })

/-- MODULE_START (R524): both halves run Table 22.1 up to READY. -/
def State.moduleStart (s : State) (x : StartObs) : State :=
  let p := s.yoke.pwr
  if !p.due || p.pfw || p.rstAt.isSome || p.thermal || s.storing then s
  else
    let kept := !(s.yoke.rtc.osf || s.yoke.rtc.vlow)
    let act := s.yoke.act
    let dormant := decide (p.state = 3)
    let old := (s.role .a, s.role .b)
    let t := s.rtcTai
    let recs := s.yoke.recs
    let lost := s.yoke.recsLost
    let late := s.yoke.rtc.late
    let (s1, saved) := s.actRestart
    let causes := p.causes ||| (if act.phase = 1 ∨ act.phase = 2 ∨ act.phase = 4 then 0x40 else 0)
    let s2 := (s1.updYk (fun k => k.outOfReset x)).both (fun m => (m.outOfReset kept t).grnRecall)
    let s3 := if !x.xlink then s2
      else if s2.a.olderThan s2.b then { s2 with a := s2.a.grnAdopt s2.b }
      else if s2.b.olderThan s2.a then { s2 with b := s2.b.grnAdopt s2.a }
      else s2
    let warm (m : Half) : Bool := m.warmHere && !p.cold
    let rise (m : Half) : Half :=
      let m1 := m.restartCause causes (warm m)
      ({ m1 with evr := { m1.evr with arising := late ++ m1.evr.arising } }.evRestore recs lost)
    let s4 := s3.both rise
    let s5 := s4.both (fun m => (m.pickSlot x.bad).actSlots s4.yoke.act)
    let s6 := s5.updYk (fun k => { k with regs := (if s5.a.upd.recovery then s5.b else s5.a).cfgYoke [] })
    let go (s : State) (h : HalfId) : State :=
      s.upd h (fun m =>
        let w := m.rdB rSysRestartCause 16
        ((m.configLoad (s.view h) w s.swo).fosterListen (s.view h)))
    let s7 := go (go s6 .a) .b
    let s8 := if saved then s7.both (fun m => (m.takeSaved s7.xferMib).updU (fun u => { u with saved := none })) else s7
    let s9 := if act.phase = 1 ∨ act.phase = 2 then s8.evAll 0x0605 act.slot 0x16 act.phase 0
      else if act.phase = 4 ∧ act.cause ≤ 4 then s8.evAll 0x060A act.was act.cause ((t - act.trialAt) / oneSec) act.stamp.toNat
      else s8
    let roleEv (s : State) (h : HalfId) (r : Role) : State :=
      if r = .booting then s else (s.evAll 0x0201 (halfNum h) (roleCode r) 0 14).irqAll 0x001 0
    let s10 := roleEv (roleEv s9 .a old.1) .b old.2
    let s11 := if dormant then s10.evAll 0x0303 3 0 (p.wake.toNat % 256) ((s.yoke.now - p.entryAt) / oneMs) else s10
    let s12 := s11.compBack.each (fun m => if m.foster = 0 then m else m.sendQuery (s11.view m.self) m.foster)
    (s12.trialFailed .a).trialFailed .b

/-- HALF_READY (Table 16.2): a half has ended its start-up steps; one that rejoins runs them here. -/
def State.halfReady (s : State) (h : HalfId) (clean : Bool) (x : StartObs) : State :=
  if s.role h ≠ .booting ∨ s.yoke.pwr.due ∨ s.yoke.pwr.held ∨ s.yoke.pwr.state = 3 ∨ (s.yh h).ready.isSome then s
  else
    let s1 := match (s.yh h).boot with
      | some c => s.halfStart h c x
      | none => s
    if clean then ((s1.updY h (fun y => { y with ready := some s.yoke.now, clean := true })).assign).actStep
    else s1.retire h 4 0

/-- MODULE_START (R524). -/
def execModuleStart (x : StartObs) (s : State) : Host.Outcome State Fault Refusal := .next (s.moduleStart x)

/-- HALF_READY (R382). -/
def execHalfReady (h : HalfId) (clean : Bool) (x : StartObs) (s : State) : Host.Outcome State Fault Refusal :=
  .next (s.halfReady h clean x)

end Sys2Proof.Machine
end

