-- ==== Sys2Proof/Machine/Roles.lean ====
section
/-! DEFINITION. The commands of the Yoke: renewal, expiry and handover of the lease, retirement and rejoin, output comparison and
challenge, the cross-link and state transfer, and the loss of the Yoke (R382 to R392). -/
namespace Sys2Proof.Machine

/-- The half's own part of a self-check in the sense of R383: no uncorrectable symbol-code error, PACE not below 6,956 for two windows, and
no PG_STAT.FAULT on an always-enabled page. -/
def Half.selfCheck (m : Half) : Bool :=
  !m.hlth.uncorr && decide (m.hlth.low < 2) && !(m.dir.any (fun e => alwaysOn e.1 && e.2.fault))

/-- YOKE.CMD HANDOVER (R385). -/
def State.handoverCmd (s : State) (r : Req) : State × Nat :=
  match s.yoke.holder with
  | none => (s, 8)
  | some h =>
    if s.frozen ∨ s.role (other h) ≠ .follower ∨ s.yoke.handover.isSome then (s, 8)
    else (s.updYk (fun k => { k with handover := some (reqStamp r) }), 0)

/-- HANDOVER_TIMEOUT (R385): no instant without a COMMITTED sheaf within 5 ms: REFUSED, and event 0x020A with 0 for the half that would have
taken the lease. In an activation the refusal aborts it (R489). -/
def State.handoverTimeout (s : State) : State :=
  match s.yoke.handover, s.yoke.holder with
  | some st, some h =>
    let s1 := (s.updYk (fun k => { k with handover := none })).evAll 0x020A (halfNum h + 1) 0 s.yoke.epoch st.toNat
    if s.yoke.act.phase = 1 then s1.actAbort 1 h
    else if s.yoke.act.phase = 4 then s1.actStep
    else s1.each (fun m => m.pgError 0x001 8 st)
  | _, _ => s

/-- The half has fewer than three retirements in the last 24 h (Table 16.2). -/
def State.mayRejoin (s : State) (h : HalfId) : Bool := decide (s.retireCount h < 3)

/-- REJOIN of one half: a RETIRED half, or one that runs the recovery image while it stays BOOTING (R495). -/
def State.rejoinOne (s : State) (h : HalfId) : State :=
  if s.role h = .retired then s.rejoinHalf h
  else if s.role h = .booting ∧ (s.half h).upd.recovery ∧ (s.yh h).boot.isNone then s.reboot h (2 ^ 7)
  else s

/-- YOKE.CMD REJOIN (Table 16.14). -/
def State.rejoinCmd (s : State) : State × Nat :=
  let may (h : HalfId) : Bool := decide (s.role h = .retired)
    || (decide (s.role h = .booting) && (s.half h).upd.recovery && (s.yh h).boot.isNone)
  if s.frozen ∨ (!may .a && !may .b) then (s, 8) else ((s.rejoinOne .a).rejoinOne .b, 0)

/-- A holder retires itself while the Yoke is lost (R391): the latch names a follower over the cross-link, or no half. -/
def State.retireLatched (s : State) (h : HalfId) : State :=
  let o := other h
  let give := s.yoke.xup && decide (s.role o = .follower)
  let s1 := s.updYk (fun k => { k with holder := if give then some o else none })
  let s2 := s1.updY h (fun y => { y with retired := s.yoke.now :: y.retired, ready := none, boot := some 0, storing := false })
  let s3 := if give then s2.setRole o .inCharge 6 else s2
  s3.setRole h .retired 11

/-- LEASE_RENEWAL (R383): the Yoke takes the half's status, and renews the holder's lease if it is clean. Where the Yoke is lost, a holder
whose self-check fails retires itself (R391). -/
def State.renew (s : State) (h : HalfId) (clean : Bool) : State :=
  let ok := clean && (s.half h).selfCheck
  if s.frozen then (if !ok ∧ s.yoke.holder = some h then s.retireLatched h else s)
  else
    let s1 := s.updY h (fun y => { y with clean := ok })
    if ok && s.lease h then s1.updYk (fun k => { k with renewAt := k.now }) else s1

/-- RETIRE_SELF made during activation or rollback (Table 16.2): the half restarts at once, and is not counted. -/
def State.retireUpdate (s : State) (h : HalfId) : State :=
  let o := other h
  let s1 := if s.yoke.holder ≠ some h then s
    else if s.role o = .follower then ((s.moveLease o).setRole o .inCharge 6).relayOpen
    else s.dropLease
  s1.updRestart h

/-- YOKE.CMD RETIRE_SELF (Table 16.14). -/
def State.retireSelf (s : State) (h : HalfId) : State × Nat :=
  if s.role h = .booting ∨ s.role h = .retired then (s, 8)
  else if s.frozen then (if s.yoke.holder = some h then (s.retireLatched h, 0) else (s, 8))
  else if s.yoke.act.phase = 1 ∨ s.yoke.act.phase = 4 then (s.retireUpdate h, 0)
  else (s.retireOver h 0, 0)

/-- YOKE.CMD (Table 16.14). -/
def State.yokeCmdEff (s : State) (h : HalfId) (r : Req) (v : Word) : State × Nat :=
  if fld v 0 4 = 1 then s.handoverCmd r
  else if fld v 0 4 = 2 then s.rejoinCmd
  else if fld v 0 4 = 3 then s.retireSelf h
  else (s, 5)

/-- REJOIN_TIMER (Table 16.2): RETRY_S after a retirement. -/
def State.rejoinTimer (s : State) (h : HalfId) : State :=
  let due := (s.yh h).retired.head?.all (fun t => decide (t + s.rdF .a rYokeCtrl 24 8 * oneSec ≤ s.yoke.now))
  if s.rdB .a rYokeCtrl 8 ∧ s.mayRejoin h ∧ !s.frozen ∧ due then s.rejoinHalf h else s

/-- The watchdog is suspended (R386): in Fallow, and while the half runs the power-fail, reset or restart sequence. -/
def State.wdogStands (s : State) (h : HalfId) : Bool :=
  decide (s.yoke.pwr.state = 2) || (s.yh h).storing || s.yoke.pwr.held || s.frozen || !s.computes h

/-- WATCHDOG_EXPIRY (R386): TIMEOUT_MS have passed since the watchdog was last restarted. -/
def State.wdogExpiry (s : State) (h : HalfId) : State :=
  if s.wdogStands h ∨ (s.half h).up < (s.half h).wdogAt + (s.half h).rdF rYokeWdog 0 16 * oneMs then s
  else
    let s1 := s.evAll 0x0208 (halfNum h) ((s.half h).rdF rYokeWdog 0 16) (roleCode (s.role h)) 0
    (s1.retireOver h (2 ^ 2)).trialLost h

/-- A difference between the halves' records of an epoch (R387), while the half in charge drives on. While the Yoke is lost
it is counted in MISMATCH_CNT alone (R391). mine, its: the values of the half in charge and of the other half. -/
def State.outDiffers (s : State) (x : OutRec) (mine its : Dword) : State :=
  match s.yoke.holder with
  | none => s
  | some h =>
    let o := other h
    if s.role o = .muted ∧ !s.frozen then s.wr .a rYokeDiverge (word (stickTo 0xFFFFFFFF (s.rdN .a rYokeDiverge) 1))
    else if s.role o ≠ .follower ∧ s.role o ≠ .muted then s
    else
      let s1 := s.wr .a rYokeMismatchCnt (word (stickTo 0xFFFFFFFF (s.rdN .a rYokeMismatchCnt) 1))
      if s.frozen ∨ s.yoke.chall.isSome then s1
      else
        let w := word (x.kind % 16 * 2 ^ 28 + x.port.toNat * 2 ^ 24 + x.target % 2 ^ 16)
        let s2 := (((s1.wr .a rYokeLastMismatch w).evAll 0x0202 w.toNat s.yoke.epoch (loWord mine).toNat (loWord its).toNat).irqAll 0x001 1)
        if s.yoke.act.phase = 1 then s2 else s2.updYk (fun k => { k with chall := some k.now })

/-- OUTPUT_RECORD (R387): one half's record reaches the output stage, and no longer waits in the half; the second one of an epoch's output
is compared with the first. -/
def State.outRecord (s0 : State) (h : HalfId) (x : OutRec) : State :=
  let s := s0.upd h (fun m => { m with outRecs := m.outRecs.erase x })
  if !s.computes h ∨ !s.computes (other h) then s
  else
    let same (e : HalfId × OutRec) : Bool := decide (e.1 = other h) && decide (e.2.epoch = x.epoch) && decide (e.2.kind = x.kind)
      && decide (e.2.port = x.port) && decide (e.2.target = x.target)
    match s.yoke.outs.find? same with
    | none => s.updYk (fun k => { k with outs := k.outs ++ [(h, x)] })
    | some e =>
      let s1 := s.updYk (fun k => { k with outs := k.outs.filter (fun z => decide (z ≠ e)) })
      if e.2.value = x.value then s1
      else if s.lease h then s1.outDiffers x x.value e.2.value
      else s1.outDiffers x e.2.value x.value

/-- RECORD_WAIT_TIMEOUT (R387): a record has waited 100 µs for the other half's, and counts as a difference. -/
def State.outLate (s : State) : State :=
  match s.yoke.outs with
  | [] => s
  | (h, x) :: l =>
    let s1 := s.updYk (fun k => { k with outs := l })
    if s.lease h then s1.outDiffers x x.value 0 else s1.outDiffers x 0 x.value

/-- Table 16.3: OUTCOME, from whether the half in charge and the other half pass. -/
def challOutcome (mine its : Bool) : Nat := if mine && its then 1 else if mine then 2 else if its then 3 else 4

/-- CHALLENGE_DECIDED (R388). -/
def State.challDecided (s : State) (x : ChallengeRes) : State :=
  match s.yoke.chall, s.yoke.holder with
  | some t, some h =>
    let pass (h : HalfId) : Bool := match h with
      | .a => x.passA
      | .b => x.passB
    let out := challOutcome (pass h) (pass (other h))
    let lost := if out = 3 then h else other h
    let us := min ((s.yoke.now - t) / 1000) 0xFFF
    let w := word (2 ^ 31 + out * 2 ^ 28 + (halfNum lost + 1) * 2 ^ 26 + x.passB.toNat * 2 ^ 25 + x.passA.toNat * 2 ^ 24 + us)
    let s1 := (s.updYk (fun k => { k with chall := none })).wr .a rYokeChallenge w
    let s2 := s1.evAll 0x0203 out (halfNum lost) (x.passB.toNat * 2 + x.passA.toNat) us
    (s2.retireOver lost 0).trialLost lost
  | _, _ => s

/-- Registers that a half keeps as its own in a state transfer: those of its own pages of always-on units (SYS, the watchdog, its supply,
its recorder's and monitors' pages, its update and security pages). -/
def ownKey (k : Nat) : Bool :=
  decide (k / 4096 = 0x000) || decide (k / 4096 = 0x001) || decide (k / 4096 = 0x002) || decide (k / 4096 = 0x006) || decide (k / 4096 = 0x007)
    || decide (k / 4096 = 0x008)

/-- R490: with different configuration parts, the joining half keeps its own Drill banks, Tiller descriptors and CAN object configuration,
and its periods and samples start as first ones. -/
def Half.keepCode (m : Half) (o : Half) : Half :=
  let p := m.drl.active
  let fresh (m : Half) : Half := p.tasks.foldl (fun m e => m.updTask e.1 (fun _ => { taskReset with st := 1, first := true })) m
  let m1 := { o with
    self := m.self
    drl := { o.drl with active := p, shadow := m.drl.shadow, actRaw := m.drl.actRaw, shdRaw := m.drl.shdRaw, bank := m.drl.bank, tasks := [], jobs := [] }
    tlr := { m.tlr with loops := m.tlr.loops.map (fun e => (e.1, { e.2 with first := true })), jobs := [] }
    can := o.can.map (fun e => (e.1, { e.2 with objs := (m.canOf e.1).objs, hash := (m.canOf e.1).hash, waits := [] })) }
  fresh m1

/-- R390: the joining half m takes the state of the half in charge o: every allocation of Table 1.3, the granary's array, the journal, the
force table, the sequence counters, and the first mib MiB of LPDDR. -/
def Half.adopt (m o : Half) (mib : Nat) : Half :=
  let top := 0x80000000 + mib * 2 ^ 20
  let x := if (m.upSlot m.upd.run).cfg = (o.upSlot o.upd.run).cfg then o else m.keepCode o
  { x with
    self := m.self
    regs := o.regs.filter (fun e => !ownKey e.1) |>.foldl (fun r e => sput r e.1 e.2) (m.regs.filter (fun e => ownKey e.1))
    dir := m.dir
    accs := (m.accs.filter (fun e => decide (e.1 < 5))) ++ (o.accs.filter (fun e => decide (5 ≤ e.1)))
    stalled := m.stalled
    grn := { o.grn with
      bank0 := m.grn.bank0, bank1 := m.grn.bank1, current := m.grn.current, curSeq := m.grn.curSeq, recSt := m.grn.recSt
      recKind := m.grn.recKind, count := m.grn.count, wear := m.grn.wear, cfgMap := m.grn.cfgMap, recMap := m.grn.recMap
      request := m.grn.request, busy := m.grn.busy, lastStat := m.grn.lastStat, accStat := m.grn.accStat, lastDone := m.grn.lastDone }
    upd := { m.upd with dataFmt := o.upd.dataFmt }
    sec := m.sec
    evr := { o.evr with arising := m.evr.arising }
    hlth := m.hlth
    cores := m.cores
    tcm := m.tcm
    wdogAt := o.up
    lpddr := (o.lpddr.filter (fun e => decide (e.1 < top))) ++ (m.lpddr.filter (fun e => decide (top ≤ e.1)))
    mz := { o.mz with hold := [] }
    sent := m.sent }

/-- R390: the last round of a transfer has run: event 0x0207, and the half enters FOLLOWER. In a rollback it takes its policy data from the
saved data area instead (R493). It reports WARM = 1 (R526). -/
def State.joined (s : State) (h : HalfId) : State :=
  let row := if s.role h = .muted then 8 else 2
  let s1 := s.upd h (fun m => (m.adopt (s.half (other h)) s.xferMib).wrB rSysRestartCause 16 true)
  let s2 := ((s1.savedBack h).xferEnd 1).updY h (fun y => { y with ready := none })
  ((s2.follow h row).migrateStart h).actStep

/-- STATE_TRANSFER_ROUND (R390): a round has ended, and leaves bytes to copy. -/
def State.xferRound (s : State) (h : HalfId) (left : Nat) : State :=
  match s.yoke.xfer with
  | none => s
  | some x =>
    if x.half ≠ h ∨ s.frozen ∨ !s.joins h then s
    else if left < 65536 ∨ (x.round = 8 ∧ left = 65536) then s.joined h
    else if 8 ≤ x.round then s.xferEnd 2
    else s.updYk (fun k => { k with xfer := some { x with round := x.round + 1 } })

/-- STATE_TRANSFER_RETRY (R390): 100 ms after an abandoned transfer. -/
def State.xferRetry (s : State) (h : HalfId) : State := if s.joins h ∧ !s.frozen then s.startXfer h else s

/-- YOKE_LOST (R391), and a hold of more than 2 s (R392): kind 1 lost, 2 hold exceeded. -/
def State.yokeLost (s : State) (h : HalfId) (kind : Nat) : State :=
  if (s.yh h).lost then s
  else
    let s1 := (s.updY h (fun y => { y with lost := true })).updYk (fun k =>
      { k with latched := true, lostAt := if k.a.lost && k.b.lost then k.lostAt else k.now })
    (s1.ev h 0x0205 (halfNum h) (holderCode s.yoke.holder) s.yoke.epoch kind).irq h 0x001 3

/-- YOKE_RESTORED (R391): the Yoke answers again. It reads the latch and both roles, and grants the lease to the latch holder with a new
EPOCH; where the latch names no half, the roles go on as after a retirement. -/
def State.yokeRestored (s : State) : State :=
  if !(s.yoke.a.lost || s.yoke.b.lost) then s
  else
    let s1 := (s.updY .a (fun y => { y with lost := false })).updY .b (fun y => { y with lost := false })
    let s2 := s1.updYk (fun k => { k with latched := k.hold })
    let s3 := match s2.yoke.holder with
      | some h => s2.moveLease h
      | none => if s2.role .a = Role.retired then s2.takeOver .b else if s2.role .b = Role.retired then s2.takeOver .a else s2
    let s4 := s3.evAll 0x0206 (holderCode s3.yoke.holder) s3.yoke.epoch ((s.yoke.now - s.yoke.lostAt) / oneMs) 0
    let s5 := if s4.joins .a && !s4.frozen then s4.startXfer .a else s4
    (if s5.joins .b && !s5.frozen then s5.startXfer .b else s5).assign

/-- YOKE.WDOG (R386). -/
def Half.wdogEff (m : Half) (n : Nat) (v : Word) : Half × Nat :=
  if fld v 0 16 < 10 ∨ 10000 < fld v 0 16 then (m, 5) else (m.plainWrite n rYokeWdog v, 0)

/-- YOKE.WDOG_KICK (R386): bit 0 restarts the watchdog. -/
def Half.wdogKick (m : Half) (v : Word) : Half × Nat := (if flag v 0 then { m with wdogAt := m.up } else m, 0)

/-- The live registers of the YOKE page as half h reads them (Table 16.14). -/
def State.yokeRead (s : State) (h : HalfId) (k : Nat) : Option Word :=
  let y := s.yoke
  if k = rYokeLease then
    some (word (y.holder.isSome.toNat * 2 ^ 31 + y.latched.toNat * 2 ^ 30 + holderCode y.holder * 2 ^ 28 + y.epoch))
  else if k = rYokeRole then some (word ((s.yh h).lost.toNat * 2 ^ 31 + roleCode (s.role (other h)) * 2 ^ 8 + roleCode (s.role h)))
  else if k = rYokeXlink then
    some (word (y.xup.toNat * 2 ^ 31 + y.xfer.isSome.toNat * 2 ^ 30 + (y.xfer.elim 0 (fun x => min x.round 8)) * 2 ^ 24 + y.retries * 2 ^ 16))
  else if k = rYokeRetireCnt then some (word (min (s.retireCount .b) 255 * 2 ^ 8 + min (s.retireCount .a) 255))
  else if k = rYokeStat then some (word y.hold.toNat)
  else none

/-- LEASE_RENEWAL (R383). -/
def execLeaseRenewal (h : HalfId) (clean : Bool) (s : State) : Host.Outcome State Fault Refusal :=
  .next (s.onHalf h (fun s => s.renew h clean))

/-- LEASE_EXPIRY (R384). -/
def execLeaseExpiry (s : State) : Host.Outcome State Fault Refusal := .next s.expire

/-- HANDOVER (R385). -/
def execHandover (h : HalfId) (r : Req) (s : State) : Host.Outcome State Fault Refusal :=
  .next (s.yokeCmd h r rYokeCmd 1 (fun h s => s.yokeCmdEff h r 1))

/-- HANDOVER_TIMEOUT (R385). -/
def execHandoverTimeout (s : State) : Host.Outcome State Fault Refusal := .next s.handoverTimeout

/-- REJOIN (Table 16.14). -/
def execRejoin (h : HalfId) (r : Req) (s : State) : Host.Outcome State Fault Refusal :=
  .next (s.yokeCmd h r rYokeCmd 2 (fun h s => s.yokeCmdEff h r 2))

/-- RETIRE_SELF (Table 16.14). -/
def execRetireSelf (h : HalfId) (r : Req) (s : State) : Host.Outcome State Fault Refusal :=
  .next (s.yokeCmd h r rYokeCmd 3 (fun h s => s.yokeCmdEff h r 3))

/-- REJOIN_TIMER (Table 16.2). -/
def execRejoinTimer (h : HalfId) (s : State) : Host.Outcome State Fault Refusal := .next (s.rejoinTimer h)

/-- WDOG_KICK (R386). -/
def execWdogKick (h : HalfId) (r : Req) (v : Word) (s : State) : Host.Outcome State Fault Refusal :=
  .next (s.regCmd h r rYokeWdogKick v (fun m => m.wdogKick v))

/-- WATCHDOG_EXPIRY (R386). -/
def execWatchdogExpiry (h : HalfId) (s : State) : Host.Outcome State Fault Refusal := .next (s.wdogExpiry h)

/-- OUTPUT_RECORD (R387). -/
def execOutputRecord (h : HalfId) (x : OutRec) (s : State) : Host.Outcome State Fault Refusal := .next (s.onHalf h (fun s => s.outRecord h x))

/-- RECORD_WAIT_TIMEOUT (R387). -/
def execRecordWaitTimeout (s : State) : Host.Outcome State Fault Refusal := .next s.outLate

/-- CHALLENGE_DECIDED (R388). -/
def execChallengeDecided (x : ChallengeRes) (s : State) : Host.Outcome State Fault Refusal := .next (s.challDecided x)

/-- XLINK_LOST (R389). -/
def execXlinkLost (h : HalfId) (cause : Nat) (s : State) : Host.Outcome State Fault Refusal := .next (s.onHalf h (fun s => s.xlinkDown cause))

/-- XLINK_RETRAIN (R389). -/
def execXlinkRetrain (ok : Bool) (s : State) : Host.Outcome State Fault Refusal := .next (s.retrain ok)

/-- STATE_TRANSFER_ROUND (R390). -/
def execStateTransferRound (h : HalfId) (x : XferRound) (s : State) : Host.Outcome State Fault Refusal := .next (s.xferRound h x.left)

/-- STATE_TRANSFER_RETRY (R390). -/
def execStateTransferRetry (h : HalfId) (s : State) : Host.Outcome State Fault Refusal := .next (s.xferRetry h)

/-- YOKE_LOST (R391). -/
def execYokeLost (h : HalfId) (s : State) : Host.Outcome State Fault Refusal := .next (s.onHalf h (fun s => s.yokeLost h 1))

/-- YOKE_RESTORED (R391). -/
def execYokeRestored (s : State) : Host.Outcome State Fault Refusal := .next s.yokeRestored

/-- YOKE_HOLD_EXCEEDED (R392). -/
def execYokeHoldExceeded (h : HalfId) (s : State) : Host.Outcome State Fault Refusal :=
  .next (s.onHalf h (fun s => if s.yoke.hold then s.yokeLost h 2 else s))

end Sys2Proof.Machine
end

