-- ==== Sys2Proof/Machine/Health.lean ====
section
/-! DEFINITION. Pace and the VCORE trim (R29, R31, R458), the health monitors (R515 to R519) and FAULT_N (R520). -/
namespace Sys2Proof.Machine

/-- LOW_PACE (R517): two windows below 6,956 raise the event, 16 windows at or above clear it. mv: VCORE in mV. -/
def Half.lowPace (m : Half) (pace mv : Nat) : Half :=
  if pace < 6956 then
    let m1 := m.updH (fun x => { x with low := min (x.low + 1) 2, high := 0 })
    if m1.hlth.low = 2 ∧ !m1.hlth.lowPace then
      ((m1.updH (fun x => { x with lowPace := true })).irq 0x006 4).ev 0x1301 (halfNum m.self) pace 1 mv
    else m1
  else
    let m1 := m.updH (fun x => { x with low := 0, high := min (x.high + 1) 16 })
    if m1.hlth.high = 16 ∧ m1.hlth.lowPace then
      ((m1.updH (fun x => { x with lowPace := false })).irq 0x006 4).ev 0x1301 (halfNum m.self) pace 0 mv
    else m1

/-- VCORE_TRIM (R458, R30): VCORE of a running half moves by 2.5 mV towards its pace target, between 0.72 V and 0.95 V. -/
def State.vcoreTrim (s : State) (h : HalfId) (pace : Nat) : State :=
  let target := (s.half h).rdF rPwrPaceTgt 0 16
  let y := s.yh h
  let up := decide (pace < target)
  let down := decide (target + 128 < pace)
  let v := if up then min (y.vcore + 25) 9500 else if down then max (y.vcore - 25) 7200 else y.vcore
  let top := up && decide (y.vcore = 9500)
  let bottom := down && decide (y.vcore = 7200)
  let s1 := s.updY h (fun y => { y with vcore := v, atMax := top, atMin := bottom })
  if top && !y.atMax then s1.ev h 0x0307 (halfNum h) pace target 0 else s1

/-- PACE_WINDOW_END (R29): steps of the 64 µs window. -/
def State.paceWindow (s : State) (h : HalfId) (steps : Nat) : State :=
  let pace := min (steps / 4) 0xFFFF
  let s1 := s.upd h (fun m =>
    let m1 := m.wrN rSysPace pace
    if pace < m1.rdF rHlthPaceMin 0 16 then m1.wrN rHlthPaceMin pace else m1)
  (s1.upd h (fun m => m.lowPace pace ((s.yh h).vcore / 10))).vcoreTrim h pace

/-- The hottest of a die's sensors. -/
def hottest (l : List Int) : Int := l.foldl max (l.headD 0)

/-- A signed 16-bit field. -/
def s16 (w : Word) : Int := (BitVec.ofNat 16 w.toNat).toInt

/-- A signed number as an event's parameter. -/
def evInt (i : Int) : Nat := (iword i).toNat

/-- The temperature warning of a die (R515): at TWARN, and 5 °C below it. -/
def State.thermalWarn (s : State) (h : HalfId) (t : Int) : State :=
  let m := s.half h
  let w := s16 (m.rd rHlthTwarn)
  let on := decide (w ≤ t) && !m.hlth.warn
  let off := decide (t ≤ w - 80) && m.hlth.warn
  if on || off then
    let s1 := s.upd h (fun m => (m.updH (fun x => { x with warn := on })).irq 0x006 0)
    s1.evAll 0x1305 (halfNum h) (evInt t) on.toNat (m.rdF rHlthTwarn 0 16)
  else s

/-- One die's sample: HLTH.TEMP, TEMP_MAX, the warning, and each sensor's run of samples at or above 115 °C. -/
def State.dieSample (s : State) (h : HalfId) (l : List Int) : State :=
  let t := hottest l
  let s1 := s.updPwr (fun p => match h with
    | .a => { p with tempA := t }
    | .b => { p with tempB := t })
  let s2 := s1.upd h (fun m =>
    let m1 := if s16 (m.rd rHlthTempMax) < t then m.wr rHlthTempMax (word (evInt t % 2 ^ 16)) else m
    m1.updH (fun x => { x with hot := l.zipIdx.map (fun e => if 1840 ≤ e.1 then min (x.hot.getD e.2 0 + 1) 2 else 0) }))
  s2.thermalWarn h t

/-- The sensor of a die that has tripped, with its temperature. -/
def Half.tripped (m : Half) (l : List Int) : Option (Nat × Int) :=
  (m.hlth.hot.findIdx? (fun n => decide (2 ≤ n))).map (fun i => (i, l.getD i 0))

/-- The thermal shutdown (R515, R35): the Yoke holds event 0x1306, and the module runs its power-fail sequence. -/
def State.thermalTrip (s : State) (die : HalfId) (sensor : Nat) (t : Int) : State :=
  let s1 := s.keepRec ⟨0x1306, halfNum die, sensor, evInt t, 0, BitVec.ofNat 64 s.rtcTai⟩
  (s1.updPwr (fun p => { p with thermal := true })).failStart 0x10 false 2

/-- THERMAL_SAMPLE (R515). -/
def State.thermalSample (s : State) (x : TempSample) : State :=
  if s.yoke.pwr.state = 3 then s
  else
    let s0 := if (x.dieA.take 4 ++ x.dieB.take 4).any (fun t => decide (1520 < t)) then s.updPwr (fun p => { p with hotAt := s.yoke.now }) else s
    let s1 := (s0.dieSample .a (x.dieA.take 4)).dieSample .b (x.dieB.take 4)
    if s.yoke.pwr.thermal then s1
    else match s1.a.tripped x.dieA, s1.b.tripped x.dieB with
      | some (i, t), _ => s1.thermalTrip .a i t
      | none, some (i, t) => s1.thermalTrip .b i t
      | none, none => s1

/-- THERMAL_COOLED (R515): every sensor has stayed at or below 95 °C for 10 s. -/
def State.cooled (s : State) : State :=
  if s.yoke.now < s.yoke.pwr.hotAt + 10 * oneSec then s else s.updPwr (fun p => { p with thermal := false })

/-- Table 21.4: the window of a rail in mV. Rails 0 and 1 here are VCORE of Half A and of Half B. -/
def railIn (i mv : Nat) : Bool :=
  let within (lo hi : Nat) : Bool := decide (lo ≤ mv) && decide (mv ≤ hi)
  if i < 2 then within 700 970
  else if i = 2 then within 1710 1890
  else if i = 3 then within 3135 3465
  else if i = 4 then within 998 1102
  else if i = 5 then within 475 525
  else if i = 6 then within 4750 5250
  else true

/-- A rail as a half numbers it: 0 its own VCORE, 1 the other half's. -/
def railOf (h : HalfId) (i : Nat) : Nat := if i < 2 then (if h = .a then i else 1 - i) else i

/-- R516: a rail's OUT changes: event 0x1302 in each half, with HLTH bit 1. -/
def State.railFlag (s : State) (i mv : Nat) (out : Bool) : State :=
  let s1 := s.updPwr (fun p => { p with railOut := if out then insNat p.railOut i else p.railOut.filter (fun j => decide (j ≠ i)) })
  (s1.each (fun m => m.ev 0x1302 (railOf m.self i) mv out.toNat (halfNum m.self))).irqAll 0x006 1

/-- One sample of a rail (R516): three samples outside the window set OUT, 100 ms inside clear it. -/
def State.railOne (s : State) (i mv : Nat) : State :=
  let p := s.yoke.pwr
  let bad := if railIn i mv then 0 else min (sget 0 p.railBad i + 1) 3
  let ok := if railIn i mv then min (sget 0 p.railOk i + 1) 100 else 0
  let s1 := s.updPwr (fun p => { p with
    railMv := sset 0 p.railMv i mv, railBad := sset 0 p.railBad i bad, railOk := sset 0 p.railOk i ok })
  if bad = 3 ∧ i ∉ p.railOut then s1.railFlag i mv true
  else if ok = 100 ∧ i ∈ p.railOut then s1.railFlag i mv false
  else s1

/-- PG_STAT.FAULT of a half's HLTH page (R516, R518). -/
def State.hlthFault (s : State) (h : HalfId) : State :=
  let out := decide (railOf h 0 ∈ s.yoke.pwr.railOut) || (s.half h).hlth.uncorr
  s.upd h (fun m => m.setPage 0x006 { m.page 0x006 with fault := out })

/-- RAIL_SAMPLE (R516). -/
def State.railSample (s : State) (x : RailSample) : State :=
  if s.yoke.pwr.state = 3 then s
  else
    let l := x.coreA :: x.coreB :: x.rails.take 6
    ((l.zipIdx.foldl (fun s e => s.railOne e.2 e.1) s).hlthFault .a).hlthFault .b

/-- A corrected symbol-code error at a line (R518). -/
def Half.scCorrected (m : Half) (line symbol : Nat) : Half :=
  let m1 := ((m.stick rHlthScCorr 1).wrN rHlthScAddr (line * 16)).wrN rHlthScSym (symbol % 64)
  let m2 := (m1.updH (fun x => { x with passCor := x.passCor + 1 })).irq 0x006 2
  if m2.passed m2.hlth.corrAt oneSec then
    (m2.updH (fun x => { x with corrAt := some m2.up })).ev 0x1303 (halfNum m.self) (line * 16) (symbol % 64) (m2.rdN rHlthScCorr)
  else m2

/-- R519: the scrubber goes on to the next line; a pass ends with event 0x1307. -/
def Half.scrubNext (m : Half) : Half :=
  let line := m.rdF rHlthScrub 0 21
  let passes := m.rdF rHlthScrub 24 8
  if line + 1 < 2097152 then m.wrF rHlthScrub 0 21 (line + 1)
  else
    let n := stickTo 0xFF passes 1
    let m1 := m.wrN rHlthScrub (n * 2 ^ 24)
    (m1.ev 0x1307 (halfNum m.self) n m.hlth.passCor ((m.up - m.hlth.passAt) / oneSec)).updH (fun x => { x with passCor := 0, passAt := m.up })

/-- SCRUB_LINE (R518, R519). -/
def State.scrubLine (s : State) (h : HalfId) (x : ScrubResult) : State :=
  let f (m : Half) : Half :=
    let line := m.rdF rHlthScrub 0 21
    (if x.kind = 1 then (m.scHealed line).scCorrected line x.symbol else if x.kind = 2 then m.scUncorrectable line x.symbol
     else m.scHealed line).scrubNext
  (s.upd h f).hlthFault h

/-- HLTH.CLR (Table 21.8). -/
def Half.hlthClr (m : Half) (v : Word) : Half × Nat :=
  let m1 := if flag v 1 then (m.wrN rHlthTempMax 0).wrN rHlthPaceMin 0xFFFF else m
  (if flag v 0 then (m1.wrN rHlthScCorr 0).wrN rHlthScUncorr 0 else m1, 0)

/-- HLTH.TWARN (Table 21.8): 70 to 110 °C. -/
def twarnOk (v : Word) : Bool := decide (1120 ≤ s16 v) && decide (s16 v ≤ 1760)

/-- HLTH.FAULT_SRC (Table 21.9). -/
def State.faultSrc (s : State) : Nat :=
  let y := s.yoke
  let any (f : HalfId → Bool) : Bool := f .a || f .b
  let run (h : HalfId) : Half := s.half h
  maskOf ((List.range 12).filter (fun i => match i with
    | 0 => y.granted && y.holder.isNone
    | 1 => any (fun h => decide (s.role h = .retired))
    | 2 => any (fun h => decide (s.role h = .muted))
    | 3 => any (fun h => (run h).hlth.warn)
    | 4 => !y.pwr.railOut.isEmpty
    | 5 => any (fun h => (run h).hlth.uncorr)
    | 6 => any (fun h => (run h).hlth.lowPace)
    | 7 => any (fun h => (run h).upd.recovery)
    | 8 => any (fun h => (s.yh h).lost)
    | 9 => any (fun h => (run h).evFull)
    | 10 => any (fun h => s.computes h && (decide ((run h).fost.self = 2) || decide ((run h).fost.self = 3)))
    | _ => y.pwr.lowA || y.pwr.lowB))

/-- FAULT_N is low (R520). The mask is that of the half in charge, or of Half A where there is none. -/
def State.faultN (s : State) : Bool :=
  let mask := (s.half (s.yoke.holder.getD .a)).rdN rHlthFaultMask
  !s.yoke.granted || decide (s.faultSrc &&& mask ≠ 0)

/-- The live registers of the HLTH page (Table 21.8). -/
def State.hlthRead (s : State) (h : HalfId) (k : Nat) : Option Word :=
  let p := s.yoke.pwr
  let temp : Int := match h with
    | .a => p.tempA
    | .b => p.tempB
  if k = rHlthTemp then some (word (evInt temp % 2 ^ 16))
  else if k = rHlthFaultSrc then some (word s.faultSrc)
  else if rHlthRail 0 ≤ k ∧ k ≤ rHlthRail 7 then
    let i := railOf h ((k - rHlthRail 0) / 4)
    some (word ((decide (i ∈ p.railOut)).toNat * 2 ^ 16 + sget 0 p.railMv i % 2 ^ 16))
  else none

/-- PACE_WINDOW_END (R29). -/
def execPaceWindowEnd (h : HalfId) (steps : Nat) (s : State) : Host.Outcome State Fault Refusal :=
  .next (s.onHalf h (fun s => s.paceWindow h steps))

/-- THERMAL_SAMPLE (R515). -/
def execThermalSample (x : TempSample) (s : State) : Host.Outcome State Fault Refusal := .next (s.thermalSample x)

/-- THERMAL_COOLED (R515). -/
def execThermalCooled (s : State) : Host.Outcome State Fault Refusal := .next s.cooled

/-- RAIL_SAMPLE (R516). -/
def execRailSample (x : RailSample) (s : State) : Host.Outcome State Fault Refusal := .next (s.railSample x)

/-- SCRUB_LINE (R519). -/
def execScrubLine (h : HalfId) (x : ScrubResult) (s : State) : Host.Outcome State Fault Refusal :=
  .next (s.onHalf h (fun s => s.scrubLine h x))

/-- HLTH_CLR (Table 21.8). -/
def execHlthClr (h : HalfId) (r : Req) (v : Word) (s : State) : Host.Outcome State Fault Refusal :=
  .next (s.regCmd h r rHlthClr v (fun m => m.hlthClr v))

end Sys2Proof.Machine
end

