-- ==== Sys2Proof/Machine/Pages.lean ====
section
/-! DEFINITION. What the register pages and the other regions of the address map show a reader (R37 to R49, R53, R56, R63 to R67). -/
namespace Sys2Proof.Machine

/-- R44, R63: the page asserts its interrupt. -/
def Half.asserting (m : Half) (p : Nat) : Bool := (pageBlk p).isSome && decide (m.rd (pgIrqRaw p) &&& m.rd (pgIrqEn p) ≠ 0)

/-- SYS.IRQ_SUMk (R63). -/
def Half.irqSum (m : Half) (k : Nat) : Word := word (maskOf ((List.range 32).filter (fun j => m.asserting (32 * k + j))))

/-- The route byte of a page (R64). -/
def Half.irqRoute (m : Half) (p : Nat) : Nat := m.rdF (rSysIrqRoute (p / 4)) (p % 4 * 8) 8

/-- SYS.IRQ_CLAIMc (R65). -/
def Half.irqClaim (m : Half) (c : Nat) : Word :=
  match (List.range 256).find? (fun p => m.asserting p && (m.irqRoute p).testBit 7 && decide (m.irqRoute p % 4 = c)) with
  | some p => word (((m.irqRoute p).testBit 2).toNat * 2 ^ 16 + p)
  | none => 0xFFFF

/-- R64: the external interrupt lines of a core: some page routed to it in a mode (1 machine) is asserting. -/
def Half.irqLine (m : Half) (c : Nat) (machine : Bool) : Bool :=
  (List.range 256).any (fun p => m.asserting p && (m.irqRoute p).testBit 7 && decide (m.irqRoute p % 4 = c)
    && ((m.irqRoute p).testBit 2 == machine))

/-- PG_STAT (Table 2.7), from the always-on directory. -/
def Half.pgStatWord (m : Half) (p : Nat) : Word :=
  let d := m.page p
  word (d.waking.toNat * 2 ^ 5 + d.retained.toNat * 2 ^ 4 + (d.ready && m.inSheaf p).toNat * 2 ^ 3 + d.fault.toNat * 2 ^ 2
    + d.ready.toNat * 2 + d.powered.toNat)

/-- The common header as accessor n reads it (Tables 2.3 to 2.11). -/
def Half.headerRead (m : Half) (n p o : Nat) : Word :=
  if o = 0x000 then pgIdOf p
  else if o = 0x004 then pgCapOf p
  else if o = 0x008 then m.rd (pgCtrl p) &&& 0x11
  else if o = 0x00C then m.pgStatWord p
  else if o = 0x018 then m.rd (pgIrqRaw p) &&& m.rd (pgIrqEn p)
  else if o = 0x034 then word (decide (p ∈ (m.acc n).pageSnaps)).toNat * 256
  else m.rd (p * 4096 + o)

/-- SYS's live registers. -/
def Half.sysRead (m : Half) (k : Nat) : Option Word :=
  if k = rSysHalf then some (word (halfNum m.self))
  else if k = rSysTimeNs then some (loWord m.tai)
  else if k = rSysTimeNs + 4 then some (hiWord m.tai)
  else if rSysIrqSum 0 ≤ k ∧ k ≤ rSysIrqSum 7 then some (m.irqSum ((k - rSysIrqSum 0) / 4))
  else if rSysIrqClaim 0 ≤ k ∧ k ≤ rSysIrqClaim 3 then some (m.irqClaim ((k - rSysIrqClaim 0) / 4))
  else none

/-- PORTS.DESCi with LINK (Table 3.15). -/
def Half.portsRead (m : Half) (k : Nat) : Option Word :=
  if rPortsDesc 0 ≤ k ∧ k ≤ rPortsDesc 63 then
    let i := (k - rPortsDesc 0) / 4
    let page := if i = 1 then some 0xA0 else if i = 2 then some 0xA1 else m.txPage i
    some (putFlag (m.rd k) 30 (match page with | some p => decide (m.macLink p = 3) | none => false))
  else none

/-- SESS's live registers. -/
def Half.sessRead (m : Half) (k : Nat) : Option Word :=
  if k = rSessCount then some (word m.sesOpen.length)
  else if rSessInfo ≤ k ∧ k < rSessInfo + 36 then some (m.sessInfo ((k - rSessInfo) / 4))
  else none

/-- PTAB's registers of the point in PTAB.SEL and the level in PTAB.LVL_SEL (R134, Table 4.8), for accessor n. -/
def Half.ptabRead (m : Half) (n k : Nat) : Option Word :=
  let i := m.selPoint
  let c := m.configured i
  let r := m.pt i
  let p := m.prio i
  if k = rPtabCfg then some (if c then word (r.typeUnit.toNat * 2 ^ 16 + r.tc.toNat) else m.view n k &&& 0xFFFF7FFF)
  else if k = rPtabCov then some (if c then r.cov else 0xFFFF0000)
  else if k = rPtabSrcb then some (if c then word r.srcBind.toNat else 0xFFFF)
  else if k = rPtabOutb then some (if c then word p.outb else 0xFFFF)
  else if k = rPtabOcc then some (word (maskOf p.occ ||| (m.forceOf i).isSome.toNat))
  else if k = rPtabLvlVal then some (loWord (m.levelValue i (m.rdF rPtabLvlSel 0 5)))
  else if k = rPtabLvlVal + 4 then some (hiWord (m.levelValue i (m.rdF rPtabLvlSel 0 5)))
  else if rPtabBind ≤ k ∧ k < rPtabBind + 32 then some ((m.stHeld rPtabBind 8).getD ((k - rPtabBind) / 4) 0)
  else none

/-- RFX's live registers. -/
def Half.rfxRead (m : Half) (k : Nat) : Option Word :=
  if rRfxBind ≤ k ∧ k < rRfxBind + 32 then some ((m.stHeld rRfxBind 8).getD ((k - rRfxBind) / 4) 0) else none

/-- PWR's live registers (Table 19.12). -/
def State.pwrRead (s : State) (h : HalfId) (k : Nat) : Option Word :=
  let p := s.yoke.pwr
  let v := s.yh h
  if k = rPwrState then some (word (p.holdup.toNat * 2 ^ 9 + p.pfw.toNat * 2 ^ 8 + p.state))
  else if k = rPwrStat then some p.stat
  else if k = rPwrWake then some p.wake
  else if k = rPwrWakeT then some (loWord p.wakeT)
  else if k = rPwrWakeT + 4 then some (hiWord p.wakeT)
  else if k = rPwrVin then some (word (Config.measured k s.yoke.now))
  else if k = rPwrHoldup then some (word (Config.measured k s.yoke.now % 2 ^ 16))
  else if k = rPwrVcore then some (word (v.atMin.toNat * 2 ^ 17 + v.atMax.toNat * 2 ^ 16 + v.vcore / 10))
  else none

/-- The word that MGT.STAT shows is stored; TLR.LOAD is measured. -/
def Half.loadRead (m : Half) (k : Nat) : Option Word :=
  if k = rTlrLoad then some (word (Config.measured k m.up)) else none

/-- A register that a block computes, as half h and accessor n read it; none for one that reads as stored. -/
def State.blockRead (s : State) (h : HalfId) (n k : Nat) : Option Word :=
  let m := s.half h
  let y := s.view h
  match pageBlk (k / 4096) with
  | none => none
  | some (b, i, _) =>
    match b with
    | .sys => m.sysRead k
    | .yoke => s.yokeRead h k
    | .pwr => s.pwrRead h k
    | .rtc => s.rtcRead k
    | .grn => m.grnRead n k
    | .evr => m.evrRead k
    | .hlth => s.hlthRead h k
    | .upd => s.updRead h k
    | .sec => m.secRead k
    | .fence => none
    | .ports => m.portsRead k
    | .sess => m.sessRead k
    | .ptab => m.ptabRead n k
    | .shf => m.shfRead k
    | .drl => m.drlRead k
    | .drlc => m.drlRead k
    | .tlr => (m.tlrRead k).or (m.loadRead k)
    | .nrg => m.nrgRead k
    | .nvs => none
    | .nci => none
    | .uiog => m.uioRead y k
    | .rfx => m.rfxRead k
    | .can => m.canRead y i k
    | .ser => m.serRead y i k
    | .dali => m.daliRead y i k
    | .mac => m.macRead y (k / 4096) k
    | .prp => m.macRead y (k / 4096) k
    | .mz => m.mzRead y k
    | .mzp => m.mzpRead y i k
    | .ptp => m.ptpRead k
    | .mgt => none
    | .fost => m.fostRead k

/-- The word at a register key as it stands, for accessor n (R10: reserved offsets read 0; Table 0.4: WO registers read 0). -/
def State.live (s : State) (h : HalfId) (n k : Nat) : Word :=
  if k % 4096 < 0x40 then (s.half h).headerRead n (k / 4096) (k % 4096)
  else
    match regRow k with
    | none => 0
    | some (row, _, _) =>
      if row.acc = .wo then 0
      else
        match s.blockRead h n k with
        | some v => v
        | none => if row.perAcc then (s.half h).view n k else s.rd h k

/-- The RS register a key lies in: its low key and words (R53). -/
def rsShape (k : Nat) : Option (Nat × Nat) :=
  match regRow k with
  | some (row, _, wi) => if row.acc = .rs then some (k - 4 * wi, row.words) else none
  | none => none

/-- Every word of every RS register of a page (R49). -/
def rsKeys (p : Nat) : List Nat :=
  match pageBlk p with
  | none => []
  | some (b, _, _) =>
    (blkRows b).flatMap (fun r =>
      if r.acc = .rs then (List.range r.n).flatMap (fun i => (List.range r.words).map (fun w => p * 4096 + r.off + i * r.stride + 4 * w))
      else [])

/-- R53: the words that a read of a low word latches for an accessor. -/
def Half.latch (m : Half) (n : Nat) (l : List (Nat × Word)) : Half :=
  m.updAcc n (fun a => { a with snaps := l.foldl (fun z e => sput z e.1 e.2) a.snaps })

/-- A 32-bit read of a word by accessor n (R49, R53): a whole-page snapshot's word, a latched word, or the live one; a low word
latches the others. The IPP engine holds no snapshot (R52). -/
def State.readWord (s : State) (h : HalfId) (n k : Nat) : State × Word :=
  let a := (s.half h).acc n
  let v := s.live h n k
  match rsShape k with
  | none => (s, v)
  | some (low, words) =>
    if n = 5 then (s, v)
    else if k / 4096 ∈ a.pageSnaps then (s, (sfind a.snaps k).getD v)
    else if k = low then
      (s.upd h (fun m => m.latch n ((List.range (words - 1)).map (fun i => (low + 4 * (i + 1), s.live h n (low + 4 * (i + 1)))))), v)
    else (s, (sfind a.snaps k).getD v)

/-- The word that a 64-bit load takes from a register (R38, R49, R53): a whole-page snapshot's, the live word where the load covers the
register's low word, and otherwise the latched word if there is one. It latches nothing. -/
def State.wideWord (s : State) (h : HalfId) (n k : Nat) (low : Bool) : Word :=
  let a := (s.half h).acc n
  let v := s.live h n k
  match rsShape k with
  | none => v
  | some _ => if low && !decide (k / 4096 ∈ a.pageSnaps) then v else (sfind a.snaps k).getD v

/-- The key is the low word of an RS register. -/
def rsLow (k : Nat) : Bool :=
  match rsShape k with
  | some (low, _) => decide (low = k)
  | none => false

/-- R356: TAKE is permitted on a MAC page only in three cases; on every other page always (R49). -/
def Half.snapOk (m : Half) (p : Nat) : Bool :=
  if isBld p || isTen p || isFld p || decide (p = 0x0B8) then
    !(m.macOf p).everUp || decide (m.macLink p = 4) || m.upd.recovery
  else true

/-- PG_SNAP.RELEASE (R49). -/
def Half.snapRelease (m : Half) (n p : Nat) : Half :=
  if p ∈ (m.acc n).pageSnaps then m.updAcc n (fun a => a.dropPage p) else m

/-- PG_SNAP.TAKE (R49). -/
def State.snapTake (s : State) (h : HalfId) (n p : Nat) : State × Nat :=
  let m := s.half h
  if !m.snapOk p then (s, 6)
  else
    let l := (rsKeys p).map (fun k => (k, s.live h n k))
    (s.upd h (fun m => (m.updAcc n (fun a => { a.dropPage p with pageSnaps := p :: (a.dropPage p).pageSnaps })).latch n l), 0)

/-- Four bytes of a record. -/
def wordOf (l : List Byte) (off : Nat) : Word := word (leAt l off 4)

/-- The word that a region other than the register pages shows at an address (Table 2.1). LPDDR is read by bytes. -/
def Half.regionWord (m : Half) (addr : Nat) : Word :=
  if 0x50000000 ≤ addr ∧ addr < 0x50200000 then
    (let o := addr - 0x50000000; wordOf (recAll (m.pt (o / 32))) (o % 32))
  else if 0x52000000 ≤ addr ∧ addr < 0x52100000 then (let o := (addr - 0x52000000) / 4; m.dw (o / 512) (o % 512))
  else if 0x54000000 ≤ addr ∧ addr < 0x543E0000 then m.canWord addr
  else if 0x58000000 ≤ addr ∧ addr < 0x58080000 then sget 0 m.drl.actRaw ((addr - 0x58000000) / 4)
  else if 0x58100000 ≤ addr ∧ addr < 0x58180000 then sget 0 m.drl.shdRaw ((addr - 0x58100000) / 4)
  else if 0x5C000000 ≤ addr ∧ addr < 0x5C004000 then
    (let o := addr - 0x5C000000; wordOf (m.gPage (o / 64)) (o % 64))
  else if 0x5E000000 ≤ addr ∧ addr < 0x5E200000 then
    (let o := addr - 0x5E000000
     match sfind m.evr.recs (o / 32) with
     | some x => wordOf (x.bytes false) (o % 32)
     | none => 0)
  else wordOf (m.peekN addr 4) 0

/-- The RS register that an address of a region lies in: its low address and words (R110, R206, R242, R309, R432, R512). -/
def Half.regionShape (m : Half) (addr : Nat) : Option (Nat × Nat) :=
  if 0x50000000 ≤ addr ∧ addr < 0x50200000 then some (addr - addr % 32, 8)
  else if 0x52000000 ≤ addr ∧ addr < 0x52100000 then
    (m.descShape ((addr - 0x52000000) / 4)).map (fun g => (0x52000000 + 4 * g.1, g.2))
  else if 0x54000000 ≤ addr ∧ addr < 0x543E0000 then
    (let o := (canPlace addr).2; if o < 0x3C000 then some (addr - o % 80, 20) else none)
  else if 0x5C000000 ≤ addr ∧ addr < 0x5C004000 then some (addr - addr % 64, 16)
  else if 0x5E000000 ≤ addr ∧ addr < 0x5E200000 then some (addr - addr % 32, 8)
  else none

/-- The regions of Table 2.1 beside the register pages, by their first address and the address after their last. -/
def regions : List (Nat × Nat) :=
  [(0x50000000, 0x50200000), (0x52000000, 0x52100000), (0x54000000, 0x543E0000), (0x58000000, 0x58080000), (0x58100000, 0x58180000),
   (0x5C000000, 0x5C004000), (0x5E000000, 0x5E200000), (0x80000000, 0xC0000000)]

/-- The address lies in a region. -/
def inRegion (addr : Nat) : Bool := regions.any (fun e => decide (e.1 ≤ addr) && decide (addr < e.2))

/-- A 32-bit read of a region by accessor n, with R53's snapshots. -/
def Half.regionRead (m : Half) (n addr : Nat) : Half × Word :=
  let v := m.regionWord addr
  match m.regionShape addr with
  | none => (m, v)
  | some (low, words) =>
    if addr = low then
      (m.latch n ((List.range (words - 1)).map (fun i => (low + 4 * (i + 1), m.regionWord (low + 4 * (i + 1))))), v)
    else (m, (sfind (m.acc n).snaps addr).getD v)

/-- The word that a 64-bit load takes from a region (R53): the live word where it covers the low word of an RS register, and
otherwise the latched word if there is one. -/
def Half.regionWide (m : Half) (n addr : Nat) (low : Bool) : Word :=
  let v := m.regionWord addr
  if low then v else
    match m.regionShape addr with
    | none => v
    | some _ => (sfind (m.acc n).snaps addr).getD v

/-- The address is the low word of an RS register of a region. -/
def Half.regionLow (m : Half) (addr : Nat) : Bool :=
  match m.regionShape addr with
  | some (low, _) => decide (low = addr)
  | none => false

/-- R38: the size and alignment of an access to a register page: naturally aligned 32 bits, or 64 bits from a policy core. -/
def alignOk (r : Req) (addr size : Nat) : Bool :=
  (decide (size = 4) && decide (addr % 4 = 0)) ||
    (decide (size = 8) && decide (addr % 8 = 0) && (match r with | .core _ => true | _ => false))

/-- The address lies in the register-page region. -/
def inPages (addr : Nat) : Bool := decide (0x40000000 ≤ addr) && decide (addr < 0x40100000)

/-- A read of the register-page region (R50, R53): answered in half h. stall: whether R58 may hold it up. -/
def State.loadPage (s0 : State) (h : HalfId) (r : Req) (addr size : Nat) (stall : Bool) : State :=
  let n := reqNum r
  let s := s0.upd h (fun m => m.ageStaged n)
  let m := s.half h
  let k := addr - 0x40000000
  let p := k / 4096
  let no (status code : Nat) : State := s.upd h (fun m => m.refuseAt r addr 0 status code)
  if (pageBlk p).isNone then no 1 0
  else if !alignOk r addr size then no 2 3
  else
    match (let a := m.checkRead (reqClass r) k; if size = 8 ∧ a.1 = 0 then m.checkRead (reqClass r) (k + 4) else a) with
    | (0, _) =>
      if size = 8 then s.upd h (fun m => m.answer r 0 (dword (s.wideWord h n k (rsLow k)) (s.wideWord h n (k + 4) (rsLow k))))
      else
        let (s1, v) := s.readWord h n k
        s1.upd h (fun m => m.answer r 0 (dword v 0))
    | (st, code) =>
      if st = 4 ∧ stall ∧ m.mayStall r p then s.upd h (fun m => m.stallFor ⟨r, addr, size, false, 0⟩) else no st code

/-- A read of another region, which only the policy cores reach. LPDDR takes every size; the other regions naturally aligned 32-bit
and 64-bit loads. A 64-bit load neither leaves nor disturbs a snapshot. A load that meets an uncorrectable error takes a load access fault
(R518). -/
def Half.loadRegion (m : Half) (r : Req) (addr size : Nat) : Half :=
  let n := reqNum r
  if (match r with | .core _ => false | _ => true) || !inRegion addr then m.refuseAt r addr 0 1 0
  else if 0x80000000 ≤ addr then m.answer r 0 (BitVec.ofNat 64 (leNat (m.peekN addr size)))
  else if !alignOk r addr size then m.refuseRegion r addr 2
  else if !m.ready (keyPage addr) ∧ 0x54000000 ≤ addr ∧ addr < 0x543E0000 then m.refuseRegion r addr 4
  else if (m.badLine addr).isSome then
    (match r, m.badLine addr with
     | .core c, some e => m.loadFault c.val addr e
     | _, _ => m)
  else if size = 8 then m.answer r 0 (dword (m.regionWide n addr (m.regionLow addr)) (m.regionWide n (addr + 4) (m.regionLow addr)))
  else
    let (m1, v) := m.regionRead n addr
    m1.answer r 0 (dword v 0)

/-- A read by an accessor of half h. -/
def State.load (s : State) (h : HalfId) (r : Req) (addr size : Nat) (stall : Bool) : State :=
  if inPages addr then s.loadPage h r addr size stall
  else
    let record := decide (0x50000000 ≤ addr) && decide (addr < 0x50200000) && alignOk r addr size
      && (match r with | .core _ => true | _ => false) && ((s.half h).badLine addr).isNone
    let s1 := if record then s.mend h ((addr - 0x50000000) / 32) else s
    s1.upd h (fun m => m.loadRegion r addr size)

/-- RS_SNAPSHOT_READ (R53): a read of a register page or another region, with the snapshots it leaves or uses. -/
def execRsSnapshotRead (h : HalfId) (r : Req) (addr size : Nat) (s : State) : Host.Outcome State Fault Refusal :=
  .next (s.onReq h r (fun h s => s.load h r addr size true))

end Sys2Proof.Machine
end

