-- ==== Sys2Proof/Machine/SheafRows.lean ====
section
/-! DEFINITION. The commands of the sheaf engine (R139 to R160), and a policy core's submission of a point write (R124). -/
namespace Sys2Proof.Machine

/-- PTAB_WRITE_SUBMIT (R124, R141). -/
def execPtabWriteSubmit (h : HalfId) (r : Req) (v : Word) (s : State) : Host.Outcome State Fault Refusal :=
  .next (s.regCmdV h r rPtabWr v (fun y m => m.ptabWrEff y (reqNum r) (reqStamp r) (m.stWords (reqNum r) rPtabWr 3 v)))

/-- SHF_OPEN (R140). -/
def execShfOpen (h : HalfId) (r : Req) (v : Word) (s : State) : Host.Outcome State Fault Refusal :=
  .next (s.regCmd h r rShfOpen v (fun m => m.shfOpenEff (reqNum r) v))

/-- SHEAF_ADD (R141). -/
def execSheafAdd (h : HalfId) (r : Req) (v : Word) (s : State) : Host.Outcome State Fault Refusal :=
  .next (s.regCmdV h r rShfAdd v (fun y m => m.shfAddEff y (reqNum r) (reqStamp r) v))

/-- SHF_COMMIT (R146). -/
def execShfCommit (h : HalfId) (r : Req) (v : Word) (s : State) : Host.Outcome State Fault Refusal :=
  .next (s.regCmdV h r rShfCommit v (fun y m => m.shfCommitEff y (reqNum r) v))

/-- SHF_ABORT (R145). -/
def execShfAbort (h : HalfId) (r : Req) (v : Word) (s : State) : Host.Outcome State Fault Refusal :=
  .next (s.regCmdV h r rShfAbort v (fun y m => m.shfAbortEff y (reqNum r) v))

/-- SHEAF_OPEN_TIMEOUT (R143). -/
def execSheafOpenTimeout (h : HalfId) (slot : Fin 32) (s : State) : Host.Outcome State Fault Refusal :=
  .next (s.local_ h (fun y m => m.openTimeout y slot.val))

/-- JOURNAL_WAIT_TIMEOUT (R146). -/
def execJournalWaitTimeout (h : HalfId) (slot : Fin 32) (s : State) : Host.Outcome State Fault Refusal :=
  .next (s.local_ h (fun y m => m.waitTimeout y slot.val))

/-- MSG_DEFERRED (R149). -/
def execMsgDeferred (h : HalfId) (slot : Fin 32) (act : Nat) (s : State) : Host.Outcome State Fault Refusal :=
  .next (s.local_ h (fun y m => m.msgDeferred y slot.val act))

/-- MZ_PREPARE_RECEIVE (R157). -/
def execMzPrepareReceive (f : MzFrame) (s : State) : Host.Outcome State Fault Refusal := .next (s.input (fun y m => m.prepareRx y f))

/-- MZ_VOTE_RECEIVE (R156). -/
def execMzVoteReceive (f : MzFrame) (s : State) : Host.Outcome State Fault Refusal := .next (s.input (fun y m => m.voteRx y f))

/-- SHEAF_DEADLINE (R156). -/
def execSheafDeadline (h : HalfId) (slot : Fin 32) (s : State) : Host.Outcome State Fault Refusal :=
  .next (s.local_ h (fun y m => m.deadlineEnd y slot.val))

/-- MZ_COMMIT_RECEIVE (R157). -/
def execMzCommitReceive (f : MzFrame) (s : State) : Host.Outcome State Fault Refusal :=
  .next (s.input (fun y m => if m.mzMine f then m.partCommit y f.src (mzWord f 0) else m))

/-- MZ_ABORT_RECEIVE (R157). -/
def execMzAbortReceive (f : MzFrame) (s : State) : Host.Outcome State Fault Refusal :=
  .next (s.input (fun y m => if m.mzMine f then m.partAbort y f.src (mzWord f 0) else m))

/-- MZ_ACK_RECEIVE (R158). -/
def execMzAckReceive (f : MzFrame) (s : State) : Host.Outcome State Fault Refusal := .next (s.input (fun y m => m.ackRx y f))

/-- COMMIT_REPEAT (R158). -/
def execCommitRepeat (h : HalfId) (slot : Fin 32) (s : State) : Host.Outcome State Fault Refusal :=
  .next (s.local_ h (fun y m => m.commitRepeat y slot.val))

/-- COORDINATOR_ORPHAN (R158). -/
def execCoordinatorOrphan (h : HalfId) (slot : Fin 32) (s : State) : Host.Outcome State Fault Refusal :=
  .next (s.local_ h (fun y m => m.coordOrphan y slot.val))

/-- OUTCOME_QUERY (R159). -/
def execOutcomeQuery (h : HalfId) (slot : Fin 32) (s : State) : Host.Outcome State Fault Refusal :=
  .next (s.local_ h (fun y m => m.outcomeQuery y slot.val))

/-- MZ_OUTCOME_RECEIVE (R159). -/
def execMzOutcomeReceive (f : MzFrame) (s : State) : Host.Outcome State Fault Refusal := .next (s.input (fun y m => m.outcomeRx y f))

/-- PARTICIPANT_ORPHANED (R160). -/
def execParticipantOrphaned (h : HalfId) (slot : Fin 32) (s : State) : Host.Outcome State Fault Refusal :=
  .next (s.local_ h (fun y m => m.partOrphan y slot.val))

end Sys2Proof.Machine
end

