-- ==== Sys2Proof/Machine/RegWrite.lean ====
section
/-! DEFINITION. What a word written to each register does (Table 2.12, check 6, and each block's chapter), for the registers that have a
row of their own and for those that have none. -/
namespace Sys2Proof.Machine

/-- R44: sources of a page whose condition is present: a free pool below its mark (R136), few free journal pages (R159), a full recorder
(R511), PFW (R473), a lost Yoke (R391), worn banks (R441), and the health conditions of R515 to R518. DEDUCED (log entry 36). -/
def State.persist (s : State) (h : HalfId) (p : Nat) : Nat :=
  let m := s.half h
  if p = 0x020 then (decide (16384 - m.ptab.subs.length < 512)).toNat * 8
  else if p = 0x021 then (decide (m.jFree < 4)).toNat * 2
  else if p = 0x005 then m.evFull.toNat * 2
  else if p = 0x002 then s.yoke.pwr.pfw.toNat
  else if p = 0x004 then m.grn.wear.toNat * 4
  else if p = 0x001 then (s.yh h).lost.toNat * 8
  else if p = 0x006 then
    m.hlth.warn.toNat + (!s.yoke.pwr.railOut.isEmpty).toNat * 2 + m.hlth.uncorr.toNat * 8 + m.hlth.lowPace.toNat * 16
  else 0

/-- PG_IRQ written (R44): the bits clear in PG_IRQ_RAW, and those whose condition is still present set again. -/
def State.irqClear (s : State) (h : HalfId) (p : Nat) (v : Word) : State :=
  s.upd h (fun m => m.wr (pgIrqRaw p) ((m.rd (pgIrqRaw p) &&& ~~~ v) ||| (v &&& word (s.persist h p))))

/-- Clearing PG_CTRL.EN leaves the block idle: links go to DISABLED (Tables 14.5 and 15.2), and PTP to FREE. -/
def Half.blockOff (m : Half) (y : View) (p : Nat) : Half :=
  if isBld p ∨ isTen p ∨ isFld p ∨ p = 0x0B8 then m.macDisable y p
  else if p = 0x0C0 then (List.range 4).foldl (fun m i => m.mzDisable i) m
  else if 0x0C1 ≤ p ∧ p ≤ 0x0C4 then m.mzDisable (p - 0x0C1)
  else if p = 0x0C8 then m.ptpStop
  else m

/-- PG_CTRL's EN and WAKE_ON_ACCESS (R42, R47): always-enabled pages ignore both. -/
def Half.ctrlEff (m : Half) (y : View) (p : Nat) (v : Word) : Half :=
  if alwaysOn p then m
  else
    let old := m.rd (pgCtrl p)
    let new := v &&& 0x11
    let m1 := m.wr (pgCtrl p) new
    let m2 := if flag old 0 && !flag new 0 then m1.blockOff y p else m1
    if new = old &&& 0x11 then m2 else m2.gen p

/-- PG_CTRL (R42, R43, R48): a refused SOFT_RESET refuses the whole write. -/
def State.ctrlWrite (s : State) (h : HalfId) (p : Nat) (st : Stamp) (v : Word) : State × Nat :=
  let (s1, c) := if flag v 1 then s.softReset h p st else (s, 0)
  if c ≠ 0 then (s, c)
  else
    let s2 := s1.upd h (fun m => m.ctrlEff (s1.view h) p v)
    (if flag v 8 then s2.upd h (fun m => m.wr (pgErr p) 0) else s2, 0)

/-- A header register that takes new as its value, with PG_GEN (R47). -/
def Half.setHead (m : Half) (k : Nat) (new : Word) : Half := if m.rd k = new then m else (m.wr k new).gen (k / 4096)

/-- A word written to the common header at offset o (Table 2.3). That PG_LOCK and PG_ACL take writes from
OWNER alone (R36, R46, R551) has been checked before. DESIGN CHOICE (log entry 78): PG_IRQ_EN keeps only the bits below NIRQ of PG_CAP
(R40), which the manual gives no field table for. -/
def State.headWrite (s : State) (h : HalfId) (r : Req) (p o : Nat) (v : Word) : State × Nat :=
  if o = 0x008 then s.ctrlWrite h p (reqStamp r) v
  else if o = 0x014 then (s.upd h (fun m => m.wr (pgIrqEn p) (v &&& word (2 ^ ((pgCapOf p).toNat % 256) - 1))), 0)
  else if o = 0x018 then (s.irqClear h p v, 0)
  else if o = 0x024 then (s.upd h (fun m => m.setHead (pgLock p) (v &&& 1)), 0)
  else if o = 0x028 then (s.upd h (fun m => m.setHead (pgAcl p) ((v &&& 0x7F7F) ||| 0x0101)), 0)
  else if o = 0x034 then
    (let s1 := if flag v 1 then s.upd h (fun m => m.snapRelease (reqNum r) p) else s
     if flag v 0 then s1.snapTake h (reqNum r) p else (s1, 0))
  else (s, 0)

/-- SYS.CTRL's clears in one half (Table 2.16). -/
def Half.sysClear (m : Half) (v : Word) : Half :=
  let m1 := (List.range 4).foldl (fun m c => if flag v (4 + c) then (m.wr (rSysAccStat c) 0).wr (rSysAccAddr c) 0 else m) m
  if flag v 0 then m1.wr rSysOfflineWrCnt 0 else m1

/-- SYS.CTRL (R69, Table 2.16). A request of the IPP engine clears in both halves. -/
def State.sysCtrl (s : State) (h : HalfId) (r : Req) (v : Word) : State × Nat :=
  let s1 := match r with
    | .ipp _ => s.each (fun m => m.sysClear v)
    | _ => s.upd h (fun m => m.sysClear v)
  if flag v 31 then s1.restartCmd v else (s1, 0)

/-- R70: a sheaf slot of the half holds a cross-module sheaf. -/
def Half.crossHeld (m : Half) : Bool :=
  m.shf.slots.any (fun e => e.2.cross || e.2.acts.any (fun a => decide (a.module_ ≠ 0)) || e.2.isCoord || !e.2.parts.isEmpty)

/-- R70: the half takes a new module address at the instant. -/
def Half.newAddr (m : Half) (y : View) (a : Nat) (st : Stamp) : Half :=
  let old := m.addr
  let m1 := (m.wr rSysModuleAddr (word a)).gen 0x000
  let m2 : Half := { m1 with mz := { m1.mz with seqs := [], early := [] } }
  let m3 := if m2.fost.self = 1 then m2.setSelf 0 2 else m2
  (m3.sysState (roleCode y.role)).ev 0x0106 old a st.toNat 0

/-- SYS.MODULE_ADDR (R70, R538): in both halves at one instant. -/
def State.moduleAddr (s : State) (st : Stamp) (h : HalfId) (v : Word) : State × Nat :=
  let a := fld v 0 16
  let m := s.half h
  let strap (b : Bool) (s : State) : State :=
    s.both (fun m => if m.rdB rSysModuleAddr 16 = b then m else (m.wrB rSysModuleAddr 16 b).gen 0x000)
  if a = 0xFFFF then (s, 5)
  else if a = 0 then (strap true s, 0)
  else if a = m.addr then (strap false s, 0)
  else if m.crossHeld ∨ m.fost.self = 2 ∨ m.fost.self = 3 ∨ (m.fslot 0).st ≠ 0 ∨ (m.fslot 1).st ≠ 0 then (s, 8)
  else
    let f (h : HalfId) (s : State) : State :=
      if s.runs h then s.upd h (fun m => m.newAddr (s.view h) a st) else s.upd h (fun m => m.wr rSysModuleAddr (word a))
    (f .b (f .a s), 0)

/-- A plain register of a page of the Yoke: one value, with PG_GEN in each running half. -/
def State.sharedWrite (s : State) (h : HalfId) (k : Nat) (v : Word) : State × Nat :=
  match regRow k with
  | none => (s, 0)
  | some (row, _, _) =>
    let old := s.rd h k
    let new := plainValue row old v
    let s1 := s.wr h k new
    (if row.gen ∧ new ≠ old then s1.each (fun m => m.gen (k / 4096)) else s1, 0)

/-- RTC.CMD (Table 17.8). -/
def State.rtcCmd (s : State) (st : Stamp) (v : Word) : State × Nat :=
  let op := fld v 0 4
  if op = 1 then s.rtcSet st
  else if op = 2 then s.dstCmd true
  else if op = 3 then s.dstCmd false
  else if op = 4 then (s.updRtc (fun x => { x with osf := false }), 0)
  else if op = 5 then (s.updRtc (fun x => { x with vlow := false }), 0)
  else if op = 6 then (s.updRtc (fun x => { x with swoTime := 0, swo := false, swoCnt := 0 }), 0)
  else if op = 7 then s.compApply st
  else if op = 8 then s.compFactory
  else (s, 5)

/-- The rules of the Yoke's plain registers (Tables 16.14, 17.8, 19.12, 19.15): RANGE or none. -/
def sharedRule (k : Nat) (v : Word) : Nat :=
  if k = rYokeCtrl ∧ (fld v 24 8 = 0 ∨ fld v 16 8 = 0) then 5
  else if k = rYokeXfer ∧ 256 < fld v 0 9 then 5
  else if k = rRtcAlmIvl ∧ (fld v 0 17 = 0 ∨ 86400 < fld v 0 17) then 5
  else if k = rMgtCtrl ∧ (fld v 0 7 < 8 ∨ 0x78 ≤ fld v 0 7) then 5
  else 0

/-- What a word written to a register of a page that lies in the Yoke does. -/
def State.sharedEff (s : State) (h : HalfId) (r : Req) (k : Nat) (v : Word) : State × Nat :=
  if (regShape k).2.2 then
    (let (m, c) := (s.half h).stEff (reqNum r) k (regShape k).2.1 v (reqStamp r)
     (s.set h m, c))
  else if k = rYokeCmd then s.yokeCmdEff h r v
  else if k = rPwrReq then (if 3 < fld v 0 3 then (s, 5) else s.powerReq (fld v 0 3))
  else if k = rRtcCmd then s.rtcCmd (reqStamp r) v
  else if sharedRule k v ≠ 0 then (s, sharedRule k v)
  else if k = rRtcAlmIvl ∧ flag v 31 then (s.updRtc (fun x => { x with almAt := s.yoke.now })).sharedWrite h k v
  else s.sharedWrite h k v

/-- A word written to a register of one half's own pages whose effect lies within the half, by accessor n with stamp st; k is the low
key of its register. -/
def Half.halfEff (m : Half) (y : View) (n k : Nat) (st : Stamp) (v : Word) : Half × Nat :=
  let p := k / 4096
  let (low, words, isSt) := regShape k
  if isSt ∧ low ≠ rPtabWr ∧ low ≠ rShfAdd then m.stEff n low words v st
  else
    match pageBlk p with
    | none => (m, 0)
    | some (b, i, _) =>
      match b with
      | .sys => (m.plainWrite n k v, 0)
      | .yoke => if k = rYokeWdog then m.wdogEff n v else if k = rYokeWdogKick then m.wdogKick v else (m, 0)
      | .pwr => if k = rPwrPaceTgt ∧ (fld v 0 16 < 6956 ∨ 14545 < fld v 0 16) then (m, 5) else (m.plainWrite n k v, 0)
      | .rtc => (m, 0)
      | .grn =>
        if k = rGrnPageSel then m.pageSelEff n v
        else if k = rGrnData then m.grnDataEff n v
        else if k = rGrnCommit then m.grnCommitEff n v
        else if k = rGrnStoreCtrl then m.storeCtrlEff y n st v
        else (m.plainWrite n k v, 0)
      | .evr =>
        if k = rEvrCmd then m.evrCmdEff y n st v
        else if k = rEvrExport then m.exportEff v
        else m.evrWrite n k v
      | .hlth =>
        if k = rHlthClr then m.hlthClr v
        else if k = rHlthTwarn ∧ !twarnOk v then (m, 5)
        else (m.plainWrite n k v, 0)
      | .upd =>
        if k = rUpdCtrl ∧ updCtrlCheck v ≠ 0 then (m, updCtrlCheck v) else (m.plainWrite n k v, 0)
      | .sec =>
        if k = rSecOwnerKey then m.ownerKeyEff n st v
        else if k = rSecJobq ∧ m.queueRule k v false ≠ 0 then (m, m.queueRule k v false)
        else (m.plainWrite n k v, 0)
      | .fence => m.fencePageWrite n k v
      | .ports => m.portsWrite k v
      | .sess => m.sessWrite n k v
      | .ptab =>
        if k = rPtabCtrl then m.ptabCtrlEff y n v
        else if k = rPtabClr then m.ptabClrEff v
        else if k = rPtabWr then m.ptabWrEff y n st (m.stWords n rPtabWr 3 v)
        else if k = rPtabCfg then m.ptabCfgEff n st v
        else if k = rPtabCov then m.ptabCovEff v
        else if k = rPtabCmd then m.ptabCmdEff y n st v
        else if k = rPtabLvlSel ∧ 17 < v.toNat then (m, 5)
        else (m.plainWrite n k v, 0)
      | .shf =>
        if k = rShfCtrl ∧ shfCtrlRule v ≠ 0 then (m, shfCtrlRule v)
        else if k = rShfOpen then m.shfOpenEff n v
        else if k = rShfAdd then m.shfAddEff y n st v
        else if k = rShfCommit then m.shfCommitEff y n v
        else if k = rShfAbort then m.shfAbortEff y n v
        else (m.plainWrite n k v, 0)
      | .drl => if k = rDrlClr i then m.drlClrEff i v else (m.plainWrite n k v, 0)
      | .drlc =>
        if k = rDrlcCtrl then m.drlcCtrlEff n v
        else if k = rDrlcSwap then m.swapEff v
        else if k = rDrlcTaskSel ∧ 63 < v.toNat then (m, 5)
        else if k = rDrlcTaskCmd then m.taskCmdEff y st v
        else if k = rDrlcFrcBase ∧ m.frcBaseRule v ≠ 0 then (m, m.frcBaseRule v)
        else (m.plainWrite n k v, 0)
      | .tlr =>
        if k = rTlrCtrl then m.tlrCtrlEff y n v
        else if k = rTlrClr then m.tlrClrEff v
        else if k = rTlrLoopSel ∧ 511 < v.toNat then (m, 5)
        else if k = rTlrLoopCmd then m.loopCmdEff y n st v
        else (m.plainWrite n k v, 0)
      | .nrg =>
        if k = rNrgCtrl then m.nrgCtrlEff n v
        else if k = rNrgCalApply then m.calApplyEff st v
        else if k = rNrgMCmd then m.mCmdEff v
        else if k = rNrgMCfg then m.mCfgEff v
        else m.nrgRegEff n k v
      | .nvs => m.nrgRegEff n k v
      | .nci => m.nrgRegEff n k v
      | .uiog =>
        if k = rUiogCalApply i then m.uioApplyEff i st v
        else if k = rUiogClr i then m.uioClrEff i v
        else if 0x100 ≤ k % 4096 ∧ k % 64 = 0 then m.modeEff (i * 16 + (k % 4096 - 0x100) / 64) st v
        else m.uioRegEff n k v
      | .rfx => m.uioRegEff n k v
      | .can => m.canWrite n i k st v
      | .ser => m.serWrite y n i k st v
      | .dali => m.daliWrite n i k st v
      | .mac => m.macWrite y n p k st v
      | .prp => m.prpWrite n k v
      | .mz => m.mzWrite y n k v
      | .mzp => m.mzpWrite n i k st v
      | .ptp => (m.ptpWrite n k v).getD (m.plainWrite n k v, 0)
      | .mgt => (m, 0)
      | .fost => m.fostWrite y n k v

/-- What the Yoke, or both halves at once, do with the write, however many halves the request reaches. -/
def yokeKey (k : Nat) (v : Word) : Bool :=
  sharedKey k || decide (k = rSysModuleAddr) || (decide (k = rSysCtrl) && flag v 31)
    || (decide (k = rUpdCmd) && !flag v 16 && decide (fld v 0 4 ≤ 3))

/-- R399, R404: a ring port that is UP lets a module with no configuration image send QUERY to its ring. -/
def Half.ringQuery (m : Half) (y : View) : Half :=
  if m.unconfigured && !m.fost.query && (decide (m.mzLink 0 = 4) || decide (m.mzLink 1 = 4)) then
    (m.updF (fun f => { f with query := true })).sendQuery y 0xFFFF
  else m

/-- MZP.KEY_CTRL written: with the link already UP, the QUERY of an unconfigured module leaves. -/
def Half.keyCtrl (m : Half) (y : View) (n p : Nat) (st : Stamp) (v : Word) : Half × Nat :=
  let (m1, c) := m.mzKeyCtrlEff n p st v
  (if c = 0 then m1.ringQuery y else m1, c)

/-- The effect of a word written to the register at key k in half h, whose checks 1 to 5 have passed. -/
def State.regEff (s : State) (h : HalfId) (r : Req) (k : Nat) (v : Word) : State × Nat :=
  let n := reqNum r
  let st := reqStamp r
  let lift (f : Half → Half × Nat) : State × Nat :=
    let (m, c) := f (s.half h)
    (s.set h m, c)
  if k % 4096 < 0x40 then s.headWrite h r (k / 4096) (k % 4096) v
  else if sharedKey k then s.sharedEff h r k v
  else if k = rSysCtrl then s.sysCtrl h r v
  else if k = rSysModuleAddr then s.moduleAddr st h v
  else if k = rUpdCmd then s.updCmd h r v
  else if k = rUpdStream then s.streamCmd h st v
  else if rUpdWin 0 ≤ k ∧ k ≤ rUpdWin 255 then
    (if k = rUpdWin 0 then s.winCmd h st [v] else (s, 8))
  else if (List.range 4).any (fun p => decide (k = rMzpKeyCtrl p)) then
    lift (fun m => m.keyCtrl (s.view h) n (k / 4096 - 0x0C1) st v)
  else lift (fun m => m.halfEff (s.view h) n k st v)

/-- A word that accessor r writes to the register at key k of half h. -/
def State.regWord (s : State) (h : HalfId) (r : Req) (k : Nat) (v : Word) : State := s.guard h r k v (fun s => s.regEff h r k v)

/-- The answer that accessor n holds. -/
def State.answerOf (s : State) (h : HalfId) (n : Nat) : Answer := ((s.half h).acc n).answer

/-- A 64-bit store to two words of which the first is no low word of a multi-word register: one access, whose first check that fails
discards it whole (R50), with one record at its own address (R48, R51). DESIGN CHOICE (log entry 7): where the word of the higher
address fails, its code stands in that record. -/
def State.twoWords (s : State) (h : HalfId) (r : Req) (k : Nat) (v : Dword) : State :=
  let n := reqNum r
  let s1 := s.regWord h r k (loWord v)
  if (s1.answerOf h n).status ≠ 0 then s1
  else
    let s2 := s1.guardNext h r (k + 4) (hiWord v) (fun s => s.regEff h r (k + 4) (hiWord v))
    let a := s2.answerOf h n
    if a.status = 0 then s2
    else s.upd h (fun m => (m.ageStaged n).refuseAt r (keyAddr k) 2 a.status (fld ((s2.half h).rd (pgErr (k / 4096))) 0 8))

/-- A 64-bit store to the low words of a register that no open sheaf takes: the high word is staged and the low word commits both. -/
def State.lowStore (s : State) (h : HalfId) (r : Req) (k : Nat) (v : Dword) : State :=
  let n := reqNum r
  let old := sfind ((s.half h).acc n).staged (k + 4)
  let s1 := s.upd h (fun m => if regWritable k then m.updAcc n (fun a => { a with staged := sput a.staged (k + 4) ⟨hiWord v, 0⟩ }) else m)
  let s2 := s1.regWord h r k (loWord v)
  if (s2.answerOf h n).status = 0 then s2
  else s2.upd h (fun m => m.updAcc n (fun a => { a with staged :=
    match old with
    | some w => sput a.staged (k + 4) { w with age := w.age + 1 }
    | none => sdel a.staged (k + 4) }))

/-- R55: both words of a 64-bit store enter the accessor's open sheaf, the low word last. -/
def Half.sheafPair (m : Half) (n i k : Nat) (v : Dword) (st : Stamp) : Half :=
  let m1 := m.sheafReg n i (k + 4) (hiWord v) st
  if (m1.acc n).sheaf = some i then m1.sheafReg n i k (loWord v) st else m1

/-- A 64-bit store to the low words of a multi-word register: one operation (R38). A refused one leaves the accessor's staged word as
it was (R50); with a sheaf open both words become its actions (R55). -/
def State.lowWords (s : State) (h : HalfId) (r : Req) (k : Nat) (v : Dword) : State :=
  let n := reqNum r
  let m := s.half h
  match (m.acc n).sheaf with
  | some i =>
    if becomesAction k && regWritable k && decide ((m.checkWrite (reqClass r) k (loWord v)).1 = 0) then
      s.upd h (fun m => ((m.ageStaged n).sheafPair n i k v (reqStamp r)).answer r 0 0)
    else s.lowStore h r k v
  | none => s.lowStore h r k v

/-- A store to the register pages: checks 1 to 4 of the access as a whole, then its words. stall: whether R58 may hold it up. -/
def State.storePage (s : State) (h : HalfId) (r : Req) (addr size : Nat) (v : Dword) (stall : Bool) : State :=
  let m := s.half h
  let k := addr - 0x40000000
  let p := k / 4096
  let words := size / 4
  let no (status code : Nat) : State := s.upd h (fun m => (m.ageStaged (reqNum r)).refuseAt r addr words status code)
  if (pageBlk p).isNone then no 1 0
  else if !alignOk r addr size then no 2 3
  else if !m.rdB (pgAcl p) (8 + reqClass r) then no 3 1
  else if !m.ready p then
    (if stall ∧ m.mayStall r p then s.upd h (fun m => m.stallFor ⟨r, addr, size, true, v⟩) else no 4 0)
  else if size = 4 then s.regWord h r k (loWord v)
  else if (regShape k).1 = k ∧ 1 < (regShape k).2.1 then s.lowWords h r k v
  else s.twoWords h r k v

/-- A word stored to the regions that stores reach through a path of their own (Table 2.1): the point records, the active Drill bank, the
granary view and the recorder take none; a Tiller descriptor in use takes none (R205). -/
def Half.storeWord (m : Half) (r : Req) (addr : Nat) (v : Word) : Half :=
  if 0x52000000 ≤ addr ∧ addr < 0x52100000 then
    (let o := (addr - 0x52000000) / 4
     if m.descUsed (o / 512) then m.refuseRegion r addr 5 else (m.descStore (o / 512) (o % 512) v).answer r 0 0)
  else if 0x54000000 ≤ addr ∧ addr < 0x543E0000 then m.canRegion r addr v
  else if 0x58100000 ≤ addr ∧ addr < 0x58180000 then
    (let raw := sset 0 m.drl.shdRaw ((addr - 0x58100000) / 4) v
     ({ m with drl := { m.drl with shdRaw := raw, shadow := bankOf raw } }).answer r 0 0)
  else m.refuseRegion r addr 5

/-- A store outside the register pages, which only the policy cores reach. LPDDR takes every size, the other regions naturally aligned
32-bit and 64-bit stores. -/
def Half.storeRegion (m : Half) (r : Req) (addr size : Nat) (v : Dword) : Half :=
  if (match r with | .core _ => false | _ => true) || !inRegion addr then m.refuseAt r addr 0 1 0
  else if 0x80000000 ≤ addr then (m.poke addr (leBytes size v.toNat)).answer r 0 0
  else if !alignOk r addr size then m.refuseRegion r addr 2
  else if size = 4 then m.storeWord r addr (loWord v)
  else if 0x54000000 ≤ addr ∧ addr < 0x543E0000 ∧ (canPlace addr).2 % 80 = 0 then
    let n := reqNum r
    let m1 := (m.storeWord r (addr + 4) (hiWord v)).storeWord r addr (loWord v)
    if (m1.acc n).answer.status = 0 then m1 else m1.updAcc n (fun a => { a with staged := (m.acc n).staged })
  else
    let m1 := m.storeWord r addr (loWord v)
    if (m1.acc (reqNum r)).answer.status = 0 then m1.storeWord r (addr + 4) (hiWord v) else m1

/-- A store by an accessor of half h (R37, R38, R50). -/
def State.store (s : State) (h : HalfId) (r : Req) (addr size : Nat) (v : Dword) (stall : Bool) : State :=
  if inPages addr then s.storePage h r addr size v stall else s.upd h (fun m => m.storeRegion r addr size v)

/-- An access as its requester makes it. -/
def State.access (s : State) (h : HalfId) (x : Access) (stall : Bool) : State :=
  if x.write then s.store h x.req x.addr x.size x.value stall else s.load h x.req x.addr x.size stall

/-- A store that the Yoke or both halves take once, from the half in charge, where an IPP request reaches both. -/
def State.regStore (s : State) (h : HalfId) (r : Req) (addr size : Nat) (v : Dword) : State :=
  let k := addr - 0x40000000
  if inPages addr && alignOk r addr size && decide (size = 4) && yokeKey k (loWord v) then
    s.yokeCmd h r k (loWord v) (fun h s => s.regEff h r k (loWord v))
  else s.onReq h r (fun h s => s.store h r addr size v true)

/-- REGISTER_WRITE (R50): a write of a word or, from a policy core, of two (R38), to a register page or another region of Table 2.1. -/
def execRegisterWrite (h : HalfId) (r : Req) (addr size : Nat) (value : Dword) (s : State) : Host.Outcome State Fault Refusal :=
  .next (s.regStore h r addr size value)

/-- WAKE_ON_ACCESS (R58): an access to a page that is not READY. -/
def execWakeOnAccess (h : HalfId) (x : Access) (s : State) : Host.Outcome State Fault Refusal :=
  .next (s.onReq h x.req (fun h s => s.access h x true))

/-- SOFT_RESET (R43): PG_CTRL written with SOFT_RESET. -/
def execSoftReset (h : HalfId) (r : Req) (page : Nat) (v : Word) (s : State) : Host.Outcome State Fault Refusal :=
  .next (s.regCmdS h r (pgCtrl page) (putFlag v 1 true) (fun h s => s.ctrlWrite h page (reqStamp r) (putFlag v 1 true)))

/-- ERR_CLR (R48): PG_CTRL written with ERR_CLR. -/
def execErrClr (h : HalfId) (r : Req) (page : Nat) (v : Word) (s : State) : Host.Outcome State Fault Refusal :=
  .next (s.regCmdS h r (pgCtrl page) (putFlag v 8 true) (fun h s => s.ctrlWrite h page (reqStamp r) (putFlag v 8 true)))

/-- IRQ_CLEAR (R44). -/
def execIrqClear (h : HalfId) (r : Req) (page : Nat) (bits : Word) (s : State) : Host.Outcome State Fault Refusal :=
  .next (s.regCmdS h r (pgIrq page) bits (fun h s => (s.irqClear h page bits, 0)))

/-- SNAP_TAKE (R49, R356). -/
def execSnapTake (h : HalfId) (r : Req) (page : Nat) (s : State) : Host.Outcome State Fault Refusal :=
  .next (s.regCmdS h r (pgSnap page) 1 (fun h s => s.snapTake h (reqNum r) page))

/-- SNAP_RELEASE (R49). -/
def execSnapRelease (h : HalfId) (r : Req) (page : Nat) (s : State) : Host.Outcome State Fault Refusal :=
  .next (s.regCmd h r (pgSnap page) 2 (fun m => (m.snapRelease (reqNum r) page, 0)))

/-- CLR_ACC_STAT (Table 2.16): SYS.CTRL written with a mask of cores. -/
def execClrAccStat (h : HalfId) (r : Req) (mask : BitVec 4) (s : State) : Host.Outcome State Fault Refusal :=
  .next (s.regCmd h r rSysCtrl (word (mask.toNat * 16)) (fun m => (m.sysClear (word (mask.toNat * 16)), 0)))

/-- CLR_OFFLINE (Table 2.16). -/
def execClrOffline (h : HalfId) (r : Req) (s : State) : Host.Outcome State Fault Refusal :=
  .next (s.regCmd h r rSysCtrl 1 (fun m => (m.sysClear 1, 0)))

/-- MODULE_ADDR_WRITE (R70). -/
def execModuleAddrWrite (h : HalfId) (r : Req) (v : Word) (s : State) : Host.Outcome State Fault Refusal :=
  .next (s.yokeCmd h r rSysModuleAddr v (fun h s => s.moduleAddr (reqStamp r) h v))

end Sys2Proof.Machine
end

