-- ==== Sys2Proof/Machine/PageReq.lean ====
section
/-! DEFINITION. Requests for several words of a page: IPP READ_PAGE and WRITE_PAGE, MGT READ and WRITE (R97, R98, R471). -/
namespace Sys2Proof.Machine

/-- The key of word i of a request for page and offset: a word past the page's last names no page (R97). -/
def pageKey (page off i : Nat) : Nat := if off + 4 * i ≤ 0xFFC then page * 4096 + off + 4 * i else 2 ^ 24 + off % 4

/-- The low key and words of what is written at one instant with a key: a multi-word register (R54), or a window write of UPD (R483). -/
def groupOf (k : Nat) : Nat × Nat :=
  if rUpdWin 0 ≤ k ∧ k ≤ rUpdWin 255 then (rUpdWin 0, 256)
  else if regWritable k then ((regShape k).1, (regShape k).2.1)
  else (k, 1)

/-- The words of a request beside the one at k that are written with it. -/
def restOf (l : List (Nat × Word)) (k : Nat) : List (Nat × Word) :=
  let (low, n) := groupOf k
  if k = low ∧ 1 < n then l.filter (fun e => decide (low < e.1) && decide (e.1 < low + 4 * n)) else []

/-- The word at k is written with the low word of its register, which the request holds. -/
def withLow (l : List (Nat × Word)) (k : Nat) : Bool :=
  decide (k ≠ (groupOf k).1) && l.any (fun e => decide (e.1 = (groupOf k).1))

/-- Words staged for an accessor (R54, R98). -/
def Half.stageAll (m : Half) (n : Nat) (l : List (Nat × Word)) : Half :=
  m.updAcc n (fun a => { a with staged := l.foldl (fun z e => sput z e.1 ⟨e.2, 0⟩) a.staged })

/-- What a word of a request does in one half, with the words that are written with it. -/
def State.groupEff (s : State) (h : HalfId) (r : Req) (k : Nat) (v : Word) (rest : List (Nat × Word)) : State × Nat :=
  if k = rUpdWin 0 then s.winCmd h (reqStamp r) (v :: rest.map (·.2)) else s.regEff h r k v

/-- A word of a request written in one half. -/
def State.putHalf (s : State) (h : HalfId) (r : Req) (k : Nat) (v : Word) (rest : List (Nat × Word)) : State :=
  (s.upd h (fun m => if k = rUpdWin 0 then m else m.stageAll (reqNum r) rest)).guard h r k v (fun s => s.groupEff h r k v rest)

/-- A word of a request written in every half that the request reaches. -/
def State.putWord (s : State) (h : HalfId) (r : Req) (k : Nat) (v : Word) (rest : List (Nat × Word)) : State :=
  if yokeKey k v then
    (s.onReq h r (fun h s => s.upd h (fun m => m.stageAll (reqNum r) rest))).yokeCmd h r k v (fun h s => s.groupEff h r k v rest)
  else s.onReq h r (fun h s => s.putHalf h r k v rest)

/-- A word of a request tried in one half: the half as it would be left, and the status. -/
def State.tryWord (s : State) (h : HalfId) (r : Req) (l : List (Nat × Word)) (k : Nat) (v : Word) : State × Nat :=
  let m := s.half h
  if (pageBlk (k / 4096)).isSome ∧ k % 4 ≠ 0 then (s.upd h (fun m => m.refuseAt r (keyAddr k) 1 2 3), 2)
  else if withLow l k then
    (match m.checkWrite (reqClass r) k v with
     | (0, _) => (s, 0)
     | (st, code) => (s.upd h (fun m => m.refuseAt r (keyAddr k) 1 st code), st))
  else
    let s1 := s.putHalf h r k v (restOf l k)
    (s1, (s1.answerOf h (reqNum r)).status)

/-- R97: the first word of a request that would fail, as the half stands before any is written. -/
def State.firstBad (s : State) (h : HalfId) (r : Req) (l : List (Nat × Word)) : List (Nat × Nat × Word) → Option (Nat × Nat × Word × Nat)
  | [] => none
  | (i, k, v) :: es =>
    match (s.tryWord h r l k v).2 with
    | 0 => s.firstBad h r l es
    | st => some (i, k, v, st)

/-- R97: a refused word leaves its record, and nothing else, in each half that refuses it. A page that is not READY discards every word
of the request, and each counts (R57). -/
def State.recordBad (s : State) (h : HalfId) (r : Req) (l : List (Nat × Word)) (k : Nat) (v : Word) : State :=
  let (s1, st) := s.tryWord h r l k v
  if st = 0 then s
  else if st = 4 then s1.upd h (fun m => m.stick rSysOfflineWrCnt (l.length - 1))
  else s1

/-- R98: the words of a request written in order, those of one register at once; the first that fails, with its status. -/
def State.putAll (s : State) (h : HalfId) (r : Req) (l : List (Nat × Word)) (bad : Nat × Option Nat) :
    List (Nat × Nat × Word) → State × Nat × Option Nat
  | [] => (s, bad)
  | (i, k, v) :: es =>
    if withLow l k then s.putAll h r l bad es
    else
      let s1 := s.putWord h r k v (restOf l k)
      let st := (s1.answerOf h (reqNum r)).status
      s1.putAll h r l (if st ≠ 0 ∧ bad.2.isNone then (st, some i) else bad) es

/-- The IPP engine keeps no staging and no snapshot between requests (R52). -/
def State.ippForget (s : State) (r : Req) : State :=
  match r with
  | .ipp _ => s.both (fun m => m.updAcc 5 (fun a => { a with staged := [], snaps := [], pageSnaps := [] }))
  | _ => s

/-- A request to write words of a page (R97, R98), judged in half h: its status, and the place of the first word that fails. -/
def State.pageWrite (s : State) (h : HalfId) (r : Req) (page off : Nat) (ws : List Word) : State × Nat × Option Nat :=
  let es := ws.zipIdx.map (fun e => (e.2, pageKey page off e.2, e.1))
  let l := es.map (fun e => e.2)
  match s.firstBad h r l es with
  | some (i, k, v, st) =>
    ((match r with
      | .ipp _ => s.onInput (fun h s => s.recordBad h r l k v)
      | _ => s.recordBad h r l k v).ippForget r, st, some i)
  | none =>
    let (s1, st, bad) := s.putAll h r l (0, none) es
    (s1.ippForget r, st, bad)

/-- A request to read n words of a page from half h: the first status other than OK, and the words; one that fails reads zero (R97). -/
def State.pageRead (s : State) (h : HalfId) (r : Req) (page off n : Nat) : State × Nat × List Word :=
  (List.range n).foldl (fun (a : State × Nat × List Word) i =>
    let s1 := a.1.loadPage h r (0x40000000 + pageKey page off i) 4 false
    let w := s1.answerOf h (reqNum r)
    (s1, if a.2.1 = 0 then w.status else a.2.1, a.2.2 ++ [loWord w.value])) (s, 0, [])

/-- The half that decides for a request that reaches both: the half in charge, else Half A where it runs. -/
def State.primary (s : State) : HalfId :=
  if s.role .b = .inCharge ∧ s.runs .b then .b else if s.runs .a then .a else .b

end Sys2Proof.Machine
end

