-- ==== Sys2Proof/Machine/Ipp.lean ====
section
/-! DEFINITION. The IPP engine (R94 to R103, R512, R513, R488): the checks of a datagram, its operations, and the parts that other modules
answer. -/
namespace Sys2Proof.Machine

/-- R78, R101: the port is bound and admits IPP. -/
def Half.ippAdmits (m : Half) (i : Nat) : Bool :=
  decide (i < 64) && (decide (portClass i ≠ 2) || m.rdB (rFenceTenBind (i - 8)) 7) && m.rdB (rPortsDesc i) 0

/-- R74, R75: the stamp of a request that a port accepts. -/
def Half.ippStamp (m : Half) (i : Nat) : Stamp :=
  let c := portClass i
  mkStamp c (if c = 2 then m.rdF (rFenceTenBind (i - 8)) 0 6 else 0) i

/-- R101: the token bucket of a port: 64 requests, refilled at RATE × 64 per second; RATE 0 admits none and 0xFF any number. -/
def Half.ippTake (m : Half) (i : Nat) : Half × Bool :=
  let r := m.rdF (rPortsDesc i) 16 8
  if r = 0xFF then (m, true)
  else
    let x := m.rate i
    let used := x.bucket.used - (m.up - x.bucket.since) * r * 64
    let ok := decide (r ≠ 0) && decide (used + oneSec ≤ 64 * oneSec)
    (m.setRate i { x with bucket := ⟨if ok then used + oneSec else used, m.up⟩ }, ok)

/-- R101: a request over the port's rate is dropped and counted, with event 0x0705 once per second. -/
def Half.ippLimited (m : Half) (i : Nat) : Half :=
  let m1 := m.portRefused i
  let (x, due) := m1.dropNow (m1.rate i)
  let m2 := m1.setRate i x
  if due then m2.ev 0x0705 i x.rlDrops.length 0 0 else m2

/-- Table 3.6, Table 3.7: the payload does not fit the operation: MALFORMED. NOTIFY is refused later. -/
def ippBad (op : Nat) (p : List Byte) : Bool :=
  let n := p.length
  let c := leAt p 0 2
  let rep (hd size top : Nat) : Bool := decide (c = 0) || decide (top < c) || decide (n ≠ hd + size * c)
  if op = 1 ∨ op = 4 then rep 4 4 (if op = 1 then 32 else 64)
  else if op = 2 then
    rep 4 16 32 || (List.range c).any (fun k => decide (16 < leAt p (8 + 16 * k) 1) || decide (1 < leAt p (9 + 16 * k) 1))
  else if op = 3 then rep 4 8 64
  else if op = 5 then false
  else if op = 6 then decide (n ≠ 8) || decide (leAt p 6 2 = 0) || decide (248 < leAt p 6 2)
  else if op = 7 then decide (leAt p 6 2 = 0) || decide (248 < leAt p 6 2) || decide (n ≠ 8 + 4 * leAt p 6 2)
  else if op = 8 then
    rep 8 16 62 || (List.range c).any (fun k => decide (leAt p (10 + 16 * k) 1 = 8) || decide (15 < leAt p (10 + 16 * k) 1))
  else if op = 9 then decide (n ≠ 8) || decide (leAt p 4 2 = 0) || decide (31 < leAt p 4 2)
  else if op = 10 then decide (n ≠ 4) || decide (1 < leAt p 0 1)
  else if op = 11 then decide (n ≠ 8)
  else true

/-- R95: the class may use the operation; page operations are left to the page masks. -/
def ippMay (op c : Nat) : Bool :=
  if op = 6 ∨ op = 7 then true
  else if op = 5 then false
  else if 9 ≤ op then decide (c = 1) || decide (c = 3)
  else decide (1 ≤ c) && decide (c ≤ 3)

/-- R101: an operation that is executed again when it repeats. -/
def ippReads (op : Nat) : Bool := decide (op = 1) || decide (op = 6) || decide (op = 9)

/-- Checks 7 and 8 of Table 3.8, in session i: the request to execute. DESIGN CHOICE (log entry 79): a repeated read that is executed
again restarts the session's idle timer (R93), and a request answered DUPLICATE does not. -/
def Half.ippWindow (m : Half) (y : View) (i : Nat) (fresh : Bool) (q : IppReq) (st : Stamp) : Half × Option IppReq :=
  let q1 := { q with session := sessId i (m.ses i) }
  let d := seqDist 32 q.seq.toNat (m.ses i).seq.toNat
  if !fresh ∧ d ≠ 0 ∧ !seqNewer 32 q.seq.toNat (m.ses i).seq.toNat then (m, none)
  else
    let m1 := m.setSes i { m.ses i with seq := q.seq }
    if !fresh ∧ d = 0 ∧ !ippReads q.op then (m1.ippReply q1 0 9 [], none)
    else
      let m2 := m1.sesTouch i
      if !ippMay q.op (stampClass st) then (m2.ippReply q1 0 3 [], none)
      else if y.recov ∧ q.op ∉ [6, 7, 9, 11] then (m2, none)
      else (m2, some q1)

/-- Checks 1 to 8 of Table 3.8. -/
def Half.ippCheck (m : Half) (y : View) (q : IppReq) : Half × Option IppReq :=
  let i := q.port
  let st := m.ippStamp i
  let q0 := { q with flags := 0 }
  if !m.ippAdmits i then (if i < 64 then m.portRefused i else m, none)
  else if q.magic ≠ 0x4947 ∨ q.flags.testBit 0 then (m.portRefused i, none)
  else
    match m.ippTake i with
    | (m1, false) => (m1.ippLimited i, none)
    | (m1, true) =>
      if q.version ≠ 1 then (m1.ippReply q0 0 0xD [], none)
      else if q.length ≠ q.payload.length ∨ 1008 < q.payload.length ∨ ippBad q.op q.payload then (m1.ippReply q0 0 0xB [], none)
      else if q.session = 0 then
        match m1.sesOf q with
        | some i => m1.ippWindow y i false q st
        | none =>
          match m1.sesNew q st with
          | (m2, some i) => m2.ippWindow y i true q st
          | (m2, none) => (m2.ippReply q0 0 8 [], none)
      else
        match m1.sesNamed q with
        | some i => m1.ippWindow y i false q st
        | none => (m1.ippReply q0 0 7 [], none)

/-- R403: while the foster holds a bus, requests for its points go there. -/
def Half.heldAway (m : Half) (i : Nat) : Bool :=
  (decide (m.fost.self = 2) || decide (m.fost.self = 3)) && (m.pointBuses i).any (fun b => m.fost.held.testBit b)

/-- R99, R398, R403: who answers for a point address: this module at an index, or the module at an address. A request that another module
has forwarded is not forwarded again but to the foster. -/
def Half.ippWhere (m : Half) (q : IppReq) (mod i : Nat) : Nat × Bool :=
  if mod = m.addr then (if m.heldAway i then (m.foster, false) else (i, true))
  else if (m.fostFor mod).isSome ∨ q.port = 5 then ((m.pointHere mod i).getD 0xFFFF, true)
  else (mod, false)

/-- A response on the way the request came: over IPP, or as IPP_RSP to the module that forwarded it (Table 15.4), from the address that
was asked (R398). -/
def Half.ippAnswer (m : Half) (y : View) (q : IppReq) (flags status : Nat) (payload : List Byte) : Half :=
  if q.port = 5 then
    let a := q.ip.toNat
    let b := leBytes 4 q.seq.toNat ++ [BitVec.ofNat 8 q.op, 0] ++ leBytes 2 status ++ payload
    match (if a = m.addr then none else m.fostFor a) with
    | some k => m.mzSendFrom y a (256 * (k + 1)) q.session 0x11 0x11 peerStamp 0 b
    | none => m.mzSend y q.session 0x11 0x11 peerStamp 0 b
  else m.ippReply q flags status payload

/-- The whole response of a request whose entries are filled (R95): PARTIAL where an entry is not OK. -/
def Half.ippRespond (m : Half) (y : View) (q : IppReq) (status : Nat) (body : List (List Byte)) : Half :=
  if q.op ≤ 4 then
    m.ippAnswer y q (if body.any (fun e => decide (leAt e 4 1 ≠ 0)) then 4 else 0) status (leBytes 2 body.length ++ [0, 0] ++ body.flatten)
  else m.ippAnswer y q 0 status body.flatten

/-- The response entry of a write, or of a subscription. -/
def ippStatus (addr status : Nat) : List Byte := leBytes 4 addr ++ [BitVec.ofNat 8 status, 0, 0, 0]

/-- The response entry of an operation for an address, with a status other than OK. -/
def ippNone (op addr status : Nat) : List Byte := if op = 1 then emptyEntry addr status else ippStatus addr status

/-- The size of a request's entry. -/
def ippSize (op : Nat) : Nat := if op = 2 then 16 else if op = 3 then 8 else 4

/-- Entry k of a request. -/
def ippEnt (q : IppReq) (k : Nat) : List Byte := (q.payload.drop (4 + ippSize q.op * k)).take (ippSize q.op)

/-- READ_POINT of one local point (R84, R95). -/
def Half.ippRead (m : Half) (st : Stamp) (addr i : Nat) : Half × List Byte :=
  if m.visible (m.tcOf i) st then (m, pointEntry addr 0 (m.pt i)) else (m.fenceRefused st addr 6, emptyEntry addr 6)

/-- WRITE_POINT of one local point (R85, R96). -/
def Half.ippPut (m : Half) (y : View) (st : Stamp) (addr i : Nat) (e : List Byte) : Half × List Byte :=
  let level := leAt e 4 1
  match m.fenceWrite (m.tcOf i) st level with
  | 0 =>
    let (m1, s) := m.applyWrite y ⟨i, level, decide (leAt e 5 1 = 1), false, BitVec.ofNat 64 (leAt e 8 8), none, st, .ipp⟩
    (m1, ippStatus addr s)
  | s => (m.fenceRefused st addr s, ippStatus addr s)

/-- The subscriptions of a request's client to a point: of its session, or publications to the module that asks. -/
def Half.ippSubs (m : Half) (q : IppReq) (i : Nat) : List Nat :=
  let kind := if q.port = 5 then 1 else 0
  (m.chain i).filter (fun e => match m.sub? e with
    | some x => decide (x.kind = kind) && decide (x.dest = q.session)
    | none => false)

/-- SUBSCRIBE to one local point (R128, R129): its entry, and the subscription to notify after the response. One that stands is
replaced; a session holds 256. -/
def Half.ippSub (m : Half) (q : IppReq) (st : Stamp) (addr i : Nat) (e : List Byte) : Half × List Byte × Option Nat :=
  if !m.visible (m.tcOf i) st then (m.fenceRefused st addr 6, ippStatus addr 6, none)
  else
    let m1 := m.freeSubs (m.ippSubs q i)
    let k := q.session % 512
    if q.port ≠ 5 ∧ 256 ≤ (m1.ses k).subs then (m1, ippStatus addr 12, none)
    else
      match m1.addSub (if q.port = 5 then 1 else 0) i q.session (leAt e 4 2 * oneMs) st with
      | (m2, none) => (m2, ippStatus addr 12, none)
      | (m2, some n) =>
        (if q.port = 5 then m2 else m2.setSes k { m2.ses k with subs := (m2.ses k).subs + 1 }, ippStatus addr 0, some n)

/-- UNSUBSCRIBE from one local point (R86, R129). -/
def Half.ippUnsub (m : Half) (q : IppReq) (st : Stamp) (addr i : Nat) : Half × List Byte :=
  match m.ippSubs q i with
  | [] => if m.visible (m.tcOf i) st then (m, ippStatus addr 0) else (m.fenceRefused st addr 6, ippStatus addr 6)
  | l => (m.freeSubs l, ippStatus addr 0)

/-- One local entry of a point request. -/
def Half.ippEntry (m : Half) (y : View) (q : IppReq) (st : Stamp) (i : Nat) (e : List Byte) : Half × List Byte × Option Nat :=
  let addr := leAt e 0 4
  if q.op = 1 then (let (m1, b) := m.ippRead st addr i; (m1, b, none))
  else if q.op = 2 then (let (m1, b) := m.ippPut y st addr i e; (m1, b, none))
  else if q.op = 3 then m.ippSub q st addr i e
  else (let (m1, b) := m.ippUnsub q st addr i; (m1, b, none))

/-- What has become of the entries of a point request so far: the responses, the subscriptions to notify, and the places that other modules
answer. -/
structure IppWork where
  half  : Half
  body  : List (List Byte)
  first : List Nat
  away  : List (Nat × Nat)

/-- Entry k of a point request: executed here, or left to another module with TIMEOUT until it answers (R99). -/
def IppWork.entry (w : IppWork) (y : View) (q : IppReq) (st : Stamp) (k : Nat) : IppWork :=
  let e := ippEnt q k
  match w.half.ippWhere q (leAt e 0 2) (leAt e 2 2) with
  | (i, true) =>
    let (m1, b, f) := w.half.ippEntry y q st i e
    ⟨m1, w.body ++ [b], w.first ++ f.toList, w.away⟩
  | (a, false) => ⟨w.half, w.body ++ [ippNone q.op (leAt e 0 4) 0xA], w.first, w.away ++ [(a, k)]⟩

/-- IPP_REQ to another module (Table 15.4), with the request's entry stamp (R74). -/
def Half.ippAsk (m : Half) (y : View) (q : IppReq) (st : Stamp) (dest : Nat) (places : List Nat) (payload : List Byte) : Half × FwdPart :=
  let id := m.mz.reqId + 1
  let m1 : Half := { m with mz := { m.mz with reqId := id } }
  (m1.mzSend y dest 0x10 0x10 st 0 (leBytes 4 id.toNat ++ [BitVec.ofNat 8 q.op, 0, 0, 0] ++ payload), ⟨id.toNat, dest, places⟩)

/-- A request waits for the modules that it has been forwarded to (R99). -/
def Half.ippHold (m : Half) (q : IppReq) (status : Nat) (body : List (List Byte)) (parts : List FwdPart) : Half :=
  { m with fwds := m.fwds ++ [⟨(parts.head?.map (·.reqId)).getD 0, q, status, body, parts⟩] }

/-- READ_POINT, WRITE_POINT, SUBSCRIBE and UNSUBSCRIBE (R95, R96): entries in payload order, those of other modules forwarded. -/
def Half.ippPoints (m : Half) (y : View) (q : IppReq) (st : Stamp) : Half :=
  let m0 := if q.op = 2 then m.drain y else m
  let w : IppWork := (List.range (leAt q.payload 0 2)).foldl (fun (w : IppWork) k => w.entry y q st k) ⟨m0, [], [], []⟩
  let m1 :=
    if w.away.isEmpty then w.half.ippRespond y q 0 w.body
    else
      let (m2, parts) := (w.away.map (·.1)).eraseDups.foldl (fun (a : Half × List FwdPart) d =>
        let ks := (w.away.filter (fun e => decide (e.1 = d))).map (·.2)
        let (m, p) := a.1.ippAsk y q st d ks (leBytes 2 ks.length ++ [0, 0] ++ ks.flatMap (ippEnt q))
        (m, a.2 ++ [p])) (w.half, [])
      m2.ippHold q 0 w.body parts
  w.first.foldl (fun m e => m.firstSend y e) m1

/-- READ_EVENTS (R512). -/
def Half.ippEvents (m : Half) (y : View) (q : IppReq) : Half :=
  let l := m.evFrom (word (leAt q.payload 0 4)) (leAt q.payload 4 2)
  let first := match l with
    | x :: _ => x.seq.toNat
    | [] => leAt q.payload 0 4
  m.ippAnswer y q 0 0 (leBytes 4 first ++ leBytes 2 l.length ++ leBytes 2 m.evFrozen.toNat ++ l.flatMap (fun x => x.bytes false))

/-- FREEZE (R513). -/
def Half.ippFreeze (m : Half) (y : View) (q : IppReq) (st : Stamp) : Half :=
  if leAt q.payload 0 1 = 1 then m.evFreeze.ippAnswer y q 0 0 (leBytes 4 0)
  else (m.evRelease y 1 st).ippAnswer y q 0 0 (leBytes 4 (if m.evFrozen then m.rdN rEvrFrzCnt else 0))

/-- The halves in which a request executes, with the request as each holds it. -/
structure IppRun where
  a : Option IppReq
  b : Option IppReq

/-- The request as a half holds it. -/
def IppRun.of (x : IppRun) : HalfId → Option IppReq
  | .a => x.a
  | .b => x.b

/-- A change in each half in which the request executes. -/
def State.ippEach (s : State) (x : IppRun) (f : IppReq → View → Half → Half) : State :=
  s.onInput (fun h s => match x.of h with
    | some q => s.upd h (f q (s.view h))
    | none => s)

/-- R495: a page that the recovery image provides. -/
def recovPage (p : Nat) : Bool := decide (p ∈ [0x000, 0x007, 0x008, 0x005])

/-- A page request for another module is forwarded; TIMEOUT stands until it answers (R97, R99). -/
def Half.ippPageAway (m : Half) (y : View) (q : IppReq) (st : Stamp) : Half :=
  let hd := q.payload.take 8
  let body := if q.op = 6 then hd ++ List.replicate (4 * leAt q.payload 6 2) 0 else hd ++ [0, 0, 0, 0]
  let (m1, p) := m.ippAsk y q st (leAt q.payload 0 2) [] q.payload
  m1.ippHold q 0xA [body] [p]

/-- A forwarded page request for the address of a module that is fostered here: its pages do not answer. -/
def Half.ippNoPage (m : Half) (y : View) (q : IppReq) : Half :=
  m.ippRespond y q 1 [q.payload.take 8 ++ List.replicate (if q.op = 6 then 4 * leAt q.payload 6 2 else 4) 0]

/-- READ_PAGE in one half (R97). -/
def State.ippPageRead (s : State) (h : HalfId) (q : IppReq) (st : Stamp) : State :=
  let n := leAt q.payload 6 2
  let (s1, c, ws) := if (s.view h).recov ∧ !recovPage (leAt q.payload 2 2) then (s, 4, List.replicate n 0)
    else s.pageRead h (.ipp st) (leAt q.payload 2 2) (leAt q.payload 4 2) n
  s1.upd h (fun m => m.ippRespond (s1.view h) q c [q.payload.take 8, ws.flatMap (fun w => leBytes 4 w.toNat)])

/-- WRITE_PAGE (R97, R98): judged once, and answered by each half. -/
def State.ippPageWrite (s : State) (x : IppRun) (st : Stamp) (q : IppReq) : State :=
  let h := s.primary
  let ws := (List.range (leAt q.payload 6 2)).map (fun i => word (leAt q.payload (8 + 4 * i) 4))
  let (s1, c, bad) := if (s.view h).recov ∧ !recovPage (leAt q.payload 2 2) then (s, 4, some 0)
    else s.pageWrite h (.ipp st) (leAt q.payload 2 2) (leAt q.payload 4 2) ws
  s1.ippEach x (fun q y m => m.ippRespond y q c [q.payload.take 8, leBytes 2 (bad.getD 0xFFFF) ++ [0, 0]])

/-- ACTIVATE (R488): requested once, and answered by each half. -/
def State.ippActivate (s : State) (x : IppRun) (st : Stamp) (q : IppReq) : State :=
  let (s1, c) := s.activate (leAt q.payload 0 1) (word (leAt q.payload 4 4)) false st
  let ok := decide (c = 0)
  let phase := s1.yoke.act.phase
  s1.ippEach x (fun q y m => m.ippRespond y q (if ok then 0 else 5)
    [[if ok then 1 else 2, BitVec.ofNat 8 c, BitVec.ofNat 8 phase, 0, 0, 0, 0, 0]])

/-- The points of this module, or served by it, that a point request names. -/
def Half.ippReads (m : Half) (q : IppReq) : List Nat :=
  (List.range (leAt q.payload 0 2)).filterMap (fun k => m.pointHere (leAt (ippEnt q k) 0 2) (leAt (ippEnt q k) 2 2))

/-- R118: each half in which a point request executes verifies the records it reads. -/
def State.ippVerify (s : State) (x : IppRun) (q : IppReq) : State :=
  s.onInput (fun h s => match x.of h with
    | some _ => s.mendAll h ((s.half h).ippReads q)
    | none => s)

/-- The operation of a request that has passed checks 1 to 8 (Table 3.6). -/
def State.ippRun (s : State) (x : IppRun) (st : Stamp) (q : IppReq) : State :=
  if q.op ≤ 4 then (s.ippVerify x q).ippEach x (fun q y m => m.ippPoints y q st)
  else if q.op = 6 ∨ q.op = 7 then
    (if leAt q.payload 0 2 ≠ (s.half s.primary).addr then
       s.ippEach x (fun q y m => if q.port = 5 then m.ippNoPage y q else m.ippPageAway y q st)
     else if q.op = 6 then
       s.onInput (fun h s => match x.of h with
         | some q => s.ippPageRead h q st
         | none => s)
     else s.ippPageWrite x st q)
  else if q.op = 8 then s.ippEach x (fun q y m => m.ippSheaf y q st)
  else if q.op = 9 then s.ippEach x (fun q y m => m.ippEvents y q)
  else if q.op = 10 then s.ippEach x (fun q y m => m.ippFreeze y q st)
  else if q.op = 11 then s.ippActivate x st q
  else s

/-- A request taken by the halves that will answer it. -/
def State.ippGo (s : State) (x : IppRun) (st : Stamp) : State :=
  match x.of s.primary, x.a, x.b with
  | some q, _, _ => s.ippRun x st q
  | none, some q, _ => s.ippRun x st q
  | none, none, some q => s.ippRun x st q
  | none, none, none => s

/-- An IPP datagram reaches the engine of the halves that took it (R101). Nothing arrives while PFW turns the transceivers off, nor in
Fallow or Dormant (R453, R469). -/
def State.ipp (s : State) (q : IppReq) (takes : HalfId → Bool) : State :=
  if s.yoke.pwr.pfw ∨ 2 ≤ s.yoke.pwr.state then s
  else
    let go (h : HalfId) : Half × Option IppReq :=
      if s.runs h && takes h then (s.half h).ippCheck (s.view h) q else (s.half h, none)
    let (a, qa) := go .a
    let (b, qb) := go .b
    let st := (s.half s.primary).ippStamp q.port
    ({ s with a := a, b := b }).ippGo ⟨qa, qb⟩ st

/-- The entry that a part of an answer gives for its place j (R99). -/
def partEntry (q : IppReq) (status : Nat) (pay : List Byte) (j k : Nat) : List Byte :=
  let size := if q.op = 1 then 28 else 8
  let e := (pay.drop (4 + size * j)).take size
  if status = 0 ∧ e.length = size then e else ippNone q.op (leAt (ippEnt q k) 0 4) (if status = 0 then 0xB else status)

/-- IPP_RSP (R99): the answer of a module fills its entries; the response leaves with the last. One that finds no waiting request is
discarded. -/
def Half.ippRsp (m : Half) (y : View) (f : MzFrame) : Half :=
  let id := leAt f.payload 0 4
  let op := leAt f.payload 4 1
  let status := leAt f.payload 6 2
  let pay := f.payload.drop 8
  let mine (p : FwdPart) : Bool := decide (p.reqId = id) && decide (p.module_ = f.src)
  match m.fwds.find? (fun x => x.parts.any mine && decide (x.req.op = op)) with
  | none => m
  | some x =>
    let body := (x.parts.filter mine).foldl (fun b p =>
      if x.req.op ≤ 4 then p.places.zipIdx.foldl (fun b e => b.set e.1 (partEntry x.req status pay e.2 e.1)) b else [pay]) x.body
    let x1 : Forward := { x with body := body, status := if x.req.op ≤ 4 then 0 else status, parts := x.parts.filter (fun p => !mine p) }
    if x1.parts.isEmpty then ({ m with fwds := m.fwds.filter (fun z => decide (z ≠ x)) }).ippRespond y x1.req x1.status x1.body
    else { m with fwds := m.fwds.map (fun z => if z = x then x1 else z) }

/-- REMOTE_TIMEOUT (R99): the entries that no module has answered stay TIMEOUT, and the response leaves. -/
def Half.ippTimeout (m : Half) (y : View) (id : Nat) : Half :=
  match m.fwds.find? (fun x => decide (x.id = id)) with
  | none => m
  | some x => ({ m with fwds := m.fwds.filter (fun z => decide (z ≠ x)) }).ippRespond y x.req x.status x.body

/-- R76, R95: a request that another module forwarded is one this module executes: the class may use it, and its payload fits. -/
def Half.ippReqCheck (m : Half) (y : View) (f : MzFrame) : Half × Option IppReq :=
  let pay := f.payload.drop 8
  let q : IppReq := ⟨5, BitVec.ofNat 128 f.dest, 0, 0x4947, 1, leAt f.payload 4 1, 0, f.src, word (leAt f.payload 0 4), pay.length, pay⟩
  if f.payload.length < 8 ∨ q.op ∉ [1, 2, 3, 4, 6, 7] ∨ ippBad q.op pay then (m.ippAnswer y q 0 0xB [], none)
  else if !ippMay q.op (stampClass f.stamp) then (m.ippAnswer y q 0 3 [], none)
  else (m, some q)

/-- IPP_REQ is executed with the stamp of its frame (R74, R76), in the halves that took it. -/
def State.ippReq (s : State) (f : MzFrame) (takes : HalfId → Bool) : State :=
  let go (h : HalfId) : Half × Option IppReq :=
    if s.runs h && takes h && !(s.view h).recov then (s.half h).ippReqCheck (s.view h) f else (s.half h, none)
  let (a, qa) := go .a
  let (b, qb) := go .b
  ({ s with a := a, b := b }).ippGo ⟨qa, qb⟩ f.stamp

/-- READ_POINT (R95). -/
def execReadPoint (q : IppReq) (s : State) : Host.Outcome State Fault Refusal := .next (s.ipp { q with op := 1 } (fun _ => true))

/-- WRITE_POINT (R96). -/
def execWritePoint (q : IppReq) (s : State) : Host.Outcome State Fault Refusal := .next (s.ipp { q with op := 2 } (fun _ => true))

/-- SUBSCRIBE (R95, R128). -/
def execSubscribe (q : IppReq) (s : State) : Host.Outcome State Fault Refusal := .next (s.ipp { q with op := 3 } (fun _ => true))

/-- UNSUBSCRIBE (R95, R129). -/
def execUnsubscribe (q : IppReq) (s : State) : Host.Outcome State Fault Refusal := .next (s.ipp { q with op := 4 } (fun _ => true))

/-- READ_PAGE (R97). -/
def execReadPage (q : IppReq) (s : State) : Host.Outcome State Fault Refusal := .next (s.ipp { q with op := 6 } (fun _ => true))

/-- WRITE_PAGE (R97, R98). -/
def execWritePage (q : IppReq) (s : State) : Host.Outcome State Fault Refusal := .next (s.ipp { q with op := 7 } (fun _ => true))

/-- IPP_SHEAF (R161). -/
def execIppSheaf (q : IppReq) (s : State) : Host.Outcome State Fault Refusal := .next (s.ipp { q with op := 8 } (fun _ => true))

/-- READ_EVENTS (R512). -/
def execReadEvents (q : IppReq) (s : State) : Host.Outcome State Fault Refusal := .next (s.ipp { q with op := 9 } (fun _ => true))

/-- IPP_FREEZE (R513). -/
def execIppFreeze (q : IppReq) (s : State) : Host.Outcome State Fault Refusal := .next (s.ipp { q with op := 10 } (fun _ => true))

/-- IPP_ACTIVATE (R488). -/
def execIppActivate (q : IppReq) (s : State) : Host.Outcome State Fault Refusal := .next (s.ipp { q with op := 11 } (fun _ => true))

/-- REMOTE_TIMEOUT (R99). -/
def execRemoteTimeout (i : Nat) (s : State) : Host.Outcome State Fault Refusal := .next (s.input (fun y m => m.ippTimeout y i))

end Sys2Proof.Machine
end

