-- ==== Sys2Proof/Machine/Mgt.lean ====
section
/-! DEFINITION. The management port (R470, R471), and the end of a WAKE_ON_ACCESS stall (R58). -/
namespace Sys2Proof.Machine

/-- The response that the next read transaction takes, and MGT.STAT (R471, Table 19.15). -/
def State.mgtSet (s : State) (cmd status : Nat) (rsp : List Byte) (wait : Option MgtReq) : State :=
  (s.updYk (fun k => { k with mgt := { k.mgt with status := status, rsp := rsp, wait := wait } })).wr .a rMgtStat (word (cmd * 256 + status))

/-- A command has executed: its response, and MGT bit 0 (R474). -/
def State.mgtDone (s : State) (cmd status : Nat) (rsp : List Byte) : State := (s.mgtSet cmd status rsp none).irqAll 0x0D0 0

/-- R471: a command that is not executed, with event 0x0308. -/
def State.mgtReject (s : State) (cmd status : Nat) : State := (s.mgtSet cmd status [] none).evAll 0x0308 cmd status 0 0

/-- A command transaction: its address is acknowledged, its PEC and its LEN hold, or it is rejected. -/
def State.mgtCmd (s : State) (cmd : Nat) (x : MgtReq) (ok : Bool) (f : State → State) : State :=
  if !s.rdB .a rMgtCtrl 8 then s
  else if !x.pecOk then s.mgtReject cmd 0xFE
  else if x.payload.length ≠ x.len ∨ 28 < x.len ∨ !ok then s.mgtReject cmd 0x0B
  else f s

/-- HALF of a command: the half, or for 2 the half in charge, Half A where none is. -/
def State.mgtHalf (s : State) (n : Nat) : HalfId :=
  if n = 1 then .b else if n = 2 ∧ s.role .b = .inCharge then .b else .a

/-- A register that the Yoke answers for a half that does not run (R469): those it holds, and the headers of RTC, PWR and MGT. -/
def mgtYoke (k : Nat) : Bool :=
  sharedKey k || (decide (k % 4096 < 0x40) && (decide (k / 4096 = 0x002) || decide (k / 4096 = 0x003) || decide (k / 4096 = 0x0D0)))

/-- A half that does not run answers for nothing but its directory and the pages of the Yoke (R469). -/
def State.mgtReach (s : State) (h : HalfId) (k : Nat) : Bool :=
  s.runs h || mgtYoke k || decide (k = pgId (k / 4096)) || decide (k = pgStat (k / 4096))

/-- The keys of a command's words. -/
def mgtKeys (x : MgtReq) : List Nat := (List.range (leAt x.payload 5 1)).map (fun i => pageKey (leAt x.payload 1 2) (leAt x.payload 3 2) i)

/-- R58: the command's page is not READY, and WAKE_ON_ACCESS stalls it. -/
def State.mgtStalls (s : State) (h : HalfId) (x : MgtReq) (write : Bool) : Bool :=
  let m := s.half h
  s.runs h && (mgtKeys x).any (fun k =>
    decide ((if write then m.checkWrite 6 k 0 else m.checkRead 6 k).1 = 4) && m.mayStall .mgt (k / 4096))

/-- The command waits for its page: BUSY until it completes. -/
def State.mgtWait (s : State) (h : HalfId) (x : MgtReq) (write : Bool) : State :=
  (s.upd h (fun m => m.stallFor ⟨.mgt, 0x40000000 + (mgtKeys x).headD 0, 0, write, 0⟩)).mgtSet (if write then 3 else 2) 0xFF [] (some x)

/-- MGT READ executes (Table 19.9). -/
def State.mgtReadRun (s : State) (h : HalfId) (x : MgtReq) : State :=
  let ks := mgtKeys x
  if ks.all (s.mgtReach h) then
    (let (s1, st, ws) := s.pageRead h .mgt (leAt x.payload 1 2) (leAt x.payload 3 2) ks.length
     s1.mgtDone 2 st (ws.flatMap (fun w => leBytes 4 w.toNat)))
  else
    s.mgtDone 2 4 (ks.flatMap (fun k => leBytes 4 (if s.mgtReach h k then s.live h 4 k else 0).toNat))

/-- MGT WRITE executes (Table 19.9, R98). For a half that does not run, the Yoke's registers are written through the other, or in
Dormant by the Yoke. -/
def State.mgtWriteRun (s : State) (h0 : HalfId) (x : MgtReq) : State :=
  let ks := mgtKeys x
  let h := if s.runs h0 then h0 else s.primary
  match ks.findIdx? (fun k => !(s.runs h0 || (mgtYoke k && (s.runs h || decide (s.yoke.pwr.state = 3))))) with
  | some i => s.mgtDone 3 4 [BitVec.ofNat 8 i]
  | none =>
    let ws := (List.range ks.length).map (fun i => word (leAt x.payload (6 + 4 * i) 4))
    let (s1, st, bad) := s.pageWrite h .mgt (leAt x.payload 1 2) (leAt x.payload 3 2) ws
    s1.mgtDone 3 st [BitVec.ofNat 8 (bad.getD 0xFF)]

/-- The half that a command names. -/
def State.mgtOf (s : State) (x : MgtReq) : HalfId := s.mgtHalf (leAt x.payload 0 1)

/-- MGT READ. -/
def State.mgtRead (s : State) (x : MgtReq) : State :=
  let n := leAt x.payload 5 1
  s.mgtCmd 2 x (decide (x.len = 6) && decide (leAt x.payload 0 1 ≤ 2) && decide (1 ≤ n) && decide (n ≤ 6)) (fun s =>
    if s.mgtStalls (s.mgtOf x) x false then s.mgtWait (s.mgtOf x) x false else s.mgtReadRun (s.mgtOf x) x)

/-- MGT WRITE. -/
def State.mgtWrite (s : State) (x : MgtReq) : State :=
  let n := leAt x.payload 5 1
  s.mgtCmd 3 x (decide (x.len = 6 + 4 * n) && decide (leAt x.payload 0 1 ≤ 2) && decide (1 ≤ n) && decide (n ≤ 5)) (fun s =>
    if s.mgtStalls (s.mgtOf x) x true then s.mgtWait (s.mgtOf x) x true else s.mgtWriteRun (s.mgtOf x) x)

/-- MGT GET_STATUS (Table 19.9). -/
def State.mgtStatus (s : State) (x : MgtReq) : State :=
  s.mgtCmd 1 x (decide (x.len = 0)) (fun s =>
    let p := s.yoke.pwr
    let b (n : Nat) : Byte := BitVec.ofNat 8 n
    s.mgtDone 1 0 ([b p.state, b (roleCode (s.role .a)), b (roleCode (s.role .b)), b (fld p.wake 0 3)] ++ leBytes 4 0x720042A1
      ++ [b (((s.rtcRead rRtcStat).getD 0).toNat), b (!s.faultN).toNat, 0, 0]))

/-- MGT SET_STATE (Table 19.9): PWR.REQ written. -/
def State.mgtState (s : State) (x : MgtReq) : State :=
  s.mgtCmd 4 x (decide (x.len = 1)) (fun s =>
    let h := s.primary
    if !s.runs h ∧ s.yoke.pwr.state ≠ 3 then s.mgtDone 4 4 []
    else
      let v := word (leAt x.payload 0 1)
      let s1 := s.yokeCmd h .mgt rPwrReq v (fun h s => s.sharedEff h .mgt rPwrReq v)
      s1.mgtDone 4 (s1.answerOf h 4).status [])

/-- MGT_ADDRESS_MATCH (R470, Table 19.7): acknowledged while MGT.CTRL.EN is 1 and the address is its own. -/
def State.mgtMatch (s : State) (addr : Nat) : State :=
  let ack := s.rdB .a rMgtCtrl 8 && decide (s.rdF .a rMgtCtrl 0 7 = addr)
  let s1 := s.updYk (fun k => { k with mgt := { k.mgt with acked := ack } })
  if ack && s1.rdB .a rMgtCtrl 15 then s1.wakeUp 2 [] else s1

/-- A stalled access completes in half h (R58): MGT commands by their marker of size 0. -/
def State.complete (s : State) (h : HalfId) (x : Access) : State :=
  if x.size = 0 then
    match s.yoke.mgt.wait with
    | some q => if x.write then s.mgtWriteRun h q else s.mgtReadRun h q
    | none => s
  else s.access h x false

/-- R58: an access whose block did not become READY completes as in R57, and SYS.ACC_STAT records WAKE_TIMEOUT. -/
def State.completeLate (s : State) (h : HalfId) (x : Access) : State :=
  if x.size = 0 then s.complete h x
  else
    s.upd h (fun m0 => let m := m0.ageStaged (reqNum x.req)
      ((if x.write then m.stick rSysOfflineWrCnt (x.size / 4) else m).accRecord x.req x.addr 5).answer x.req 4 0)

/-- R58: the accesses stalled for a page, in arrival order, leave the half. -/
def State.unstall (s : State) (h : HalfId) (p : Nat) (f : State → Access → State) : State :=
  let mine (x : Access) : Bool := decide (x.addr / 4096 % 1024 = p)
  let l := (s.half h).stalled.filter mine
  l.foldl f (s.upd h (fun m => { m with stalled := m.stalled.filter (fun x => !mine x) }))

/-- R58: a block that an access woke is READY. -/
def State.wakeReady (s : State) (h : HalfId) (p : Nat) : State :=
  if !((s.half h).page p).waking then s
  else
    (s.upd h (fun m => m.setPage p { m.page p with powered := true, ready := true, waking := false, retained := false })).unstall h p
      (fun s x => s.complete h x)

/-- R58: 60 µs have passed, and the block is not READY. -/
def State.wakeLate (s : State) (h : HalfId) (p : Nat) : State :=
  if !((s.half h).page p).waking then s
  else (s.upd h (fun m => m.setPage p { m.page p with waking := false })).unstall h p (fun s x => s.completeLate h x)

/-- WAKE_ACCESS_READY (R58). -/
def execWakeAccessReady (h : HalfId) (page : Nat) (s : State) : Host.Outcome State Fault Refusal :=
  .next (s.onHalf h (fun s => s.wakeReady h page))

/-- WAKE_TIMEOUT (R58). -/
def execWakeTimeout (h : HalfId) (page : Nat) (s : State) : Host.Outcome State Fault Refusal :=
  .next (s.onHalf h (fun s => s.wakeLate h page))

/-- MGT_ADDRESS_MATCH (R470). -/
def execMgtAddressMatch (addr : Nat) (s : State) : Host.Outcome State Fault Refusal := .next (s.mgtMatch addr)

/-- GET_STATUS (R471). -/
def execGetStatus (x : MgtReq) (s : State) : Host.Outcome State Fault Refusal := .next (s.mgtStatus x)

/-- MGT_READ (R471). -/
def execMgtRead (x : MgtReq) (s : State) : Host.Outcome State Fault Refusal := .next (s.mgtRead x)

/-- MGT_WRITE (R98, R471). -/
def execMgtWrite (x : MgtReq) (s : State) : Host.Outcome State Fault Refusal := .next (s.mgtWrite x)

/-- SET_STATE (R471). -/
def execSetState (x : MgtReq) (s : State) : Host.Outcome State Fault Refusal := .next (s.mgtState x)

/-- MGT_WAKE (R471): whatever PWR.WAKE_EN holds. -/
def execMgtWake (x : MgtReq) (s : State) : Host.Outcome State Fault Refusal :=
  .next (s.mgtCmd 5 x (decide (x.len = 0)) (fun s => (s.wakeNow 2 []).mgtDone 5 0 []))

end Sys2Proof.Machine
end

