-- ==== Sys2Proof/Machine/Receive.lean ====
section
/-! DEFINITION. Frames that arrive: the classification of Ethernet frames (R342, R343) and the delivery of Merzin frames (R363, R367,
R371 to R375). -/
namespace Sys2Proof.Machine

/-- A signed number of n bytes, the highest first. -/
def beInt (b : List Byte) (o n : Nat) : Int := sext (8 * n) (beAt b o n)

/-- An IEEE 1588-2019 message from its header (clause 13), as port p receives it. -/
def ptpParse (p : Nat) (rx : Int) (b : List Byte) : PtpMsg :=
  { port := p, type := beAt b 0 1 % 16, domain := beAt b 4 1, src := beAt b 20 8, srcPort := beAt b 28 2, seq := beAt b 30 2
    twoStep := (beAt b 6 1).testBit 1, rx := rx, stamp := beAt b 34 6 * oneSec + beAt b 40 4, corr := beInt b 8 8 / 65536
    reqId := beAt b 44 8, reqPort := beAt b 52 2, gm := beAt b 53 8, prio1 := beAt b 47 1, clkClass := beAt b 48 1
    accuracy := beAt b 49 1, variance := beAt b 50 2, prio2 := beAt b 52 1, steps := beAt b 61 2, utcOff := beInt b 44 2
    utcValid := (beAt b 7 1).testBit 2, leap61 := (beAt b 7 1).testBit 0, leap59 := (beAt b 7 1).testBit 1 }

/-- The length of a message of a type: Sync, Delay_Req, Follow_Up 44, Pdelay and Delay_Resp 54, Announce 64. -/
def ptpLen (type : Nat) : Nat := if type = 11 then 64 else if type = 9 ∨ type = 2 ∨ type = 3 ∨ type = 10 then 54 else 44

/-- A PTP message goes to the PTP block (R343, R424); a message shorter than its type is discarded. -/
def Half.ptpRx (m : Half) (y : View) (p : Nat) (b : List Byte) : Half :=
  let x := ptpParse p (m.tai.toNat : Int) b
  if b.length < ptpLen x.type then m
  else if x.type = 1 then m.ptpDelayReq y x
  else if x.type = 9 then m.ptpDelayResp x
  else if x.type = 11 then m.ptpAnnounce x
  else if x.type ∈ [0, 2, 3, 8, 10] then m.ptpSync y x
  else m

/-- The PTP message that a frame of a building port carries over the transport of PTP.CTRL.TRANSPORT (R424). -/
def Half.ptpOf (m : Half) (p : Nat) (b : List Byte) : Option (List Byte) :=
  let t := m.rdF rPtpCtrl 8 2
  if !isBld p then none
  else if t = 0 then (if (etherType b).1 = 0x88F7 then some (b.drop (etherType b).2) else none)
  else
    match udpOf b with
    | some u => if (u.dport = 319 ∨ u.dport = 320) ∧ u.v6 = decide (t = 2) then some u.data else none
    | none => none

/-- The IPP datagram that a frame carries to an address of port p (R343, Table 3.6). -/
def Half.ippOf (m : Half) (p : Nat) (b : List Byte) : Option IppReq :=
  match udpOf b with
  | some u =>
    let d := u.data
    if u.dport = 47900 ∧ m.macOwns p u then
      some ⟨macPort p, u.src, u.sport, if d.length < 16 then 0 else leAt d 0 2, leAt d 2 1, leAt d 3 1, leAt d 4 2, leAt d 6 2,
        word (leAt d 8 4), leAt d 12 2, d.drop 16⟩
    else none
  | none => none

/-- R343: the class of an accepted frame in one half: 0 IPP, 1 PTP, 2 PAUSE (R340), 3 a field filter's or the receive queue's. -/
def Half.macClass (m : Half) (p : Nat) (b : List Byte) : Nat :=
  if isPause b then 2 else if (m.ippOf p b).isSome then 0 else if (m.ptpOf p b).isSome then 1 else 3

/-- R343 within one half: everything but IPP. -/
def Half.macClassify (m : Half) (y : View) (p : Nat) (b : List Byte) : Half :=
  match m.macClass p b with
  | 0 => m
  | 1 => m.ptpRx y (macPort p) ((m.ptpOf p b).getD [])
  | 2 => m.macCount p 18 1
  | _ => m.macFilter y p b

/-- ETH_FRAME_RECEIVED (R342, R343): each half that runs judges the frame alone; the halves that take an IPP datagram give it to the
engine. -/
def State.ethFrame (s : State) (p : Nat) (f : EthRx) : State :=
  if s.yoke.pwr.pfw then s
  else
    let go (h : HalfId) : Half × Bool := if s.runs h then (s.half h).macIngress p f else (s.half h, false)
    let (a, ta) := go .a
    let (b, tb) := go .b
    let takes (h : HalfId) : Bool := match h with
      | .a => ta
      | .b => tb
    let s1 : State := { s with a := a, b := b }
    let ipp (h : HalfId) : Option IppReq := if takes h then (s1.half h).ippOf p f.bytes else none
    let s2 := (s1.onInput (fun h s => if takes h then s.upd h (fun m => m.macClassify (s.view h) p f.bytes) else s)).masterUtc
    match ipp .a, ipp .b with
    | none, none => s2
    | some q, b => s2.ipp q (fun h => match h with
      | .a => true
      | .b => b.isSome)
    | none, some q => s2.ipp q (fun h => decide (h = .b))

/-- ETH_FRAME_RECEIVED (R342). -/
def execEthFrameReceived (p : EthPort) (f : EthRx) (s : State) : Host.Outcome State Fault Refusal := .next (s.ethFrame (ethPage p) f)

/-- A record's VALUE as a source item: of a FLOAT type the number, of any other the raw field of its bits (R131). -/
def recNumber (d : List Word) (r : PointRec) : Fv :=
  if recType r = 6 ∨ recType r = 7 then valueFv (recType r) r.value else fint (rawOf d r.value.toNat)

/-- PUBLISH (R129, R132): the enabled Merzin source bindings that name the publishing module and point take its value, with the
publisher's TIME (R114). -/
def Half.publishRx (m : Half) (y : View) (f : MzFrame) : Half :=
  let i := leAt f.payload 0 2
  let r := recOf ((f.payload.drop 4).take 32)
  if f.payload.length < 36 then m
  else
    (m.sources (fun d => decide (bKind d = 6) && decide (bHalf d 8 = f.src) && decide (bHalf d 10 = i))).foldl
      (fun m b => m.presentFv y b (linear (m.srcDesc b) (recNumber (m.srcDesc b) r)) r.time 0) m

/-- POINT_WRITE (R76, R132): a write or a relinquish joins the engine's queue with the stamp of its frame. -/
def Half.pointWriteRx (m : Half) (f : MzFrame) : Half :=
  let p := f.payload
  let act := leAt p 3 1
  if p.length < 12 ∨ 1 < act then m
  else
    match m.pointHere f.dest (leAt p 0 2) with
    | some i => m.enqueue ⟨i, leAt p 2 1, decide (act = 1), false, BitVec.ofNat 64 (leAt p 4 8), none, f.stamp, .merzin⟩
    | none => m

/-- The templates of a stream. -/
def Half.streamTmpl (m : Half) (stream : Nat) : Option Template :=
  (m.tmpl.find? (fun e => decide (e.2.stream = stream) && decide (0x80 ≤ stream))).map (·.2)

/-- APP (Table 15.4): the template bytes go to the policy-core queue that the stream's template names, as MZ_APP (Table 20.15). A frame that
the queue has no room for is lost (R499). A frame that carries a sheaf pair at the place its template names is dropped where source module,
sheaf sequence and action index have been received before (R150). -/
def Half.appRx (m : Half) (f : MzFrame) : Half :=
  match m.streamTmpl f.stream with
  | none => m
  | some t =>
    let pair := t.pairAt.map (fun o => (f.src, (word (leAt f.payload o 4), leAt f.payload (o + 4) 1)))
    if pair.any (fun x => decide (x ∈ m.shf.seen)) then m
    else (({ m with shf := { m.shf with seen := m.shf.seen ++ pair.toList } } : Half).post t.queue 0x0B 0x0C0 m.tai f.stamp (leBytes 2 f.src ++ leBytes 1 f.stream ++ [0] ++ leBytes 4 f.seq.toNat) f.payload).1

/-- FOSTER_CTRL by its OP (Table 16.10). -/
def Half.fosterCtrlRx (m : Half) (y : View) (f : MzFrame) : Half :=
  match leAt f.payload 0 1 with
  | 1 => m.queryRx y f
  | 2 => m.statusRx y f
  | 3 => m.pullRx y f
  | 4 => m.releaseRx y f
  | 5 => m.releasedRx y f
  | 6 => m.claimedRx f
  | 7 => m.dormantRx y f
  | _ => m

/-- Check 8 of Table 15.7: a delivered frame goes to what its TYPE names (Table 15.4). WAKE and IPP_REQ act on the module. -/
def Half.mzDeliver (m : Half) (y : View) (arb : Nat) (f : MzFrame) : Half :=
  match f.kind with
  | 0x03 => m.heartbeatRx f
  | 0x11 => m.ippRsp y f
  | 0x12 => m.publishRx y f
  | 0x13 => m.pointWriteRx f
  | 0x20 => m.prepareRx y f
  | 0x21 => m.voteRx y f
  | 0x22 => m.partCommit y f.src (mzWord f 0)
  | 0x23 => m.partAbort y f.src (mzWord f 0)
  | 0x24 => m.ackRx y f
  | 0x25 => m.outcomeRx y f
  | 0x30 => m.packRx y arb f
  | 0x31 => m.ackPack f
  | 0x32 => m.fosterCtrlRx y f
  | 0x40 => if m.rdB rPtpCtrl 30 then m.ptpRx y 3 f.payload else m
  | 0x60 => m.appRx f
  | _ => m

/-- One half's switch at a frame's tail, and the frame that it delivers. -/
def Half.mzInto (m : Half) (y : View) (p : Nat) (r : MzRx) : Half × Option MzFrame :=
  match m.mzTail y p r with
  | (m1, none) => (m1, none)
  | (m1, some (q, f)) =>
    match m1.mzArrive q f with
    | (m2, true) => (m2, some f)
    | (m2, false) => (m2, none)

/-- MZ_FRAME_TAIL (R371 to R375): each half that runs judges the frame alone, and what it delivers goes to its engines. -/
def State.mzTail (s : State) (p : Nat) (r : MzRx) : State :=
  let go (h : HalfId) : Half × Option MzFrame := if s.runs h then (s.half h).mzInto (s.view h) p r else (s.half h, none)
  let (a, fa) := go .a
  let (b, fb) := go .b
  let got (h : HalfId) : Option MzFrame := match h with
    | .a => fa
    | .b => fb
  let s1 : State := { s with a := a, b := b }
  let s2 := (s1.onInput (fun h s => match got h with
    | some f => s.upd h (fun m => m.mzDeliver (s.view h) s.yoke.arb f)
    | none => s)).pulled
  match (fa.or fb) with
  | none => s2
  | some f =>
    if f.kind = 0x02 then s2.mzWake f
    else if f.kind = 0x10 then s2.ippReq f (fun h => (got h).isSome)
    else if f.kind = 0x40 then s2.masterUtc
    else s2

/-- MZ_FRAME_TAIL (R375). -/
def execMzFrameTail (p : Fin 4) (f : MzRx) (s : State) : Host.Outcome State Fault Refusal := .next (s.mzTail p.val f)

/-- MZ_LINK_RECEIVE (R363, R364): a ring port that enters UP lets an unconfigured module ask for its image (R404). -/
def execMzLinkReceive (p : Fin 4) (f : MzRx) (s : State) : Host.Outcome State Fault Refusal :=
  .next (s.input (fun y m =>
    if y.shut p.val then m
    else
      match m.mzLinkRx p.val f with
      | (m1, true) => if p.val < 2 then m1.ringQuery y else m1
      | (m1, false) => m1))

/-- KEY_CTRL_WRITE (R370). -/
def execKeyCtrlWrite (h : HalfId) (r : Req) (p : Fin 4) (v : Word) (s : State) : Host.Outcome State Fault Refusal :=
  .next (s.regCmdV h r (rMzpKeyCtrl p.val) v (fun y m => m.keyCtrl y (reqNum r) p.val (reqStamp r) v))

/-- MZ_PUBLISH_RECEIVE (R129). -/
def execMzPublishReceive (f : MzFrame) (s : State) : Host.Outcome State Fault Refusal :=
  .next (s.input (fun y m => if m.mzMine f then m.publishRx y f else m))

/-- MZ_POINT_WRITE_RECEIVE (R76). -/
def execMzPointWriteReceive (f : MzFrame) (s : State) : Host.Outcome State Fault Refusal :=
  .next (s.input (fun _ m => if m.mzMine f then m.pointWriteRx f else m))

/-- MZ_IPP_REQ_RECEIVE (R76, R95). -/
def execMzIppReqReceive (f : MzFrame) (s : State) : Host.Outcome State Fault Refusal :=
  .next (s.ippReq f (fun h => (s.half h).mzMine f))

/-- MZ_IPP_RSP_RECEIVE (R99). -/
def execMzIppRspReceive (f : MzFrame) (s : State) : Host.Outcome State Fault Refusal :=
  .next (s.input (fun y m => if m.mzMine f then m.ippRsp y f else m))

/-- MZ_APP_RECEIVE (R367). -/
def execMzAppReceive (f : MzFrame) (s : State) : Host.Outcome State Fault Refusal :=
  .next (s.input (fun _ m => if m.mzMine f then m.appRx f else m))

end Sys2Proof.Machine
end

