-- ==== Sys2Proof/Machine/Dispatch.lean ====
section
/-! DEFINITION. One arm per command: its meaning, or its refusal by name. -/
namespace Sys2Proof.Machine

def exec (i : Instr) (s : State) : Host.Outcome State Fault Refusal :=
  match i with
  | .registerWrite h r addr size value => Sys2Proof.Machine.execRegisterWrite h r addr size value s
  | .stagingWrite h r addr value => Sys2Proof.Machine.execStagingWrite h r addr value s
  | .stagedWordDiscard h r addr => Sys2Proof.Machine.execStagedWordDiscard h r addr s
  | .rsSnapshotRead h r addr size => Sys2Proof.Machine.execRsSnapshotRead h r addr size s
  | .wakeOnAccess h x => Sys2Proof.Machine.execWakeOnAccess h x s
  | .wakeAccessReady h page => Sys2Proof.Machine.execWakeAccessReady h page s
  | .wakeTimeout h page => Sys2Proof.Machine.execWakeTimeout h page s
  | .softReset h r page v => Sys2Proof.Machine.execSoftReset h r page v s
  | .errClr h r page v => Sys2Proof.Machine.execErrClr h r page v s
  | .irqClear h r page bits => Sys2Proof.Machine.execIrqClear h r page bits s
  | .snapTake h r page => Sys2Proof.Machine.execSnapTake h r page s
  | .snapRelease h r page => Sys2Proof.Machine.execSnapRelease h r page s
  | .paceWindowEnd h steps => Sys2Proof.Machine.execPaceWindowEnd h steps s
  | .restart h r cold => Sys2Proof.Machine.execRestart h r cold s
  | .clrAccStat h r mask => Sys2Proof.Machine.execClrAccStat h r mask s
  | .clrOffline h r => Sys2Proof.Machine.execClrOffline h r s
  | .moduleAddrWrite h r v => Sys2Proof.Machine.execModuleAddrWrite h r v s
  | .readPoint q => Sys2Proof.Machine.execReadPoint q s
  | .writePoint q => Sys2Proof.Machine.execWritePoint q s
  | .subscribe q => Sys2Proof.Machine.execSubscribe q s
  | .unsubscribe q => Sys2Proof.Machine.execUnsubscribe q s
  | .readPage q => Sys2Proof.Machine.execReadPage q s
  | .writePage q => Sys2Proof.Machine.execWritePage q s
  | .ippSheaf q => Sys2Proof.Machine.execIppSheaf q s
  | .readEvents q => Sys2Proof.Machine.execReadEvents q s
  | .ippFreeze q => Sys2Proof.Machine.execIppFreeze q s
  | .ippActivate q => Sys2Proof.Machine.execIppActivate q s
  | .sessionIdleTimeout n => Sys2Proof.Machine.execSessionIdleTimeout n s
  | .remoteTimeout n => Sys2Proof.Machine.execRemoteTimeout n s
  | .tenBindWrite h r n v => Sys2Proof.Machine.execTenBindWrite h r n v s
  | .sessClose h r v => Sys2Proof.Machine.execSessClose h r v s
  | .flushTenant h r v => Sys2Proof.Machine.execFlushTenant h r v s
  | .fenceClr h r v => Sys2Proof.Machine.execFenceClr h r v s
  | .portsClr h r v => Sys2Proof.Machine.execPortsClr h r v s
  | .ptabWriteSubmit h r v => Sys2Proof.Machine.execPtabWriteSubmit h r v s
  | .pointWriteApply h => Sys2Proof.Machine.execPointWriteApply h s
  | .repeatIntervalEnd h b => Sys2Proof.Machine.execRepeatIntervalEnd h b s
  | .notifyIntervalEnd h e => Sys2Proof.Machine.execNotifyIntervalEnd h e s
  | .covEnWrite h r v => Sys2Proof.Machine.execCovEnWrite h r v s
  | .sourceStale h b => Sys2Proof.Machine.execSourceStale h b s
  | .configure h r => Sys2Proof.Machine.execConfigure h r s
  | .deconfigure h r => Sys2Proof.Machine.execDeconfigure h r s
  | .relinquishAll h r => Sys2Proof.Machine.execRelinquishAll h r s
  | .ptabCfgWrite h r v => Sys2Proof.Machine.execPtabCfgWrite h r v s
  | .ptabCovWrite h r v => Sys2Proof.Machine.execPtabCovWrite h r v s
  | .bindingCommit h r v => Sys2Proof.Machine.execBindingCommit h r v s
  | .ptabClr h r v => Sys2Proof.Machine.execPtabClr h r v s
  | .shfOpen h r v => Sys2Proof.Machine.execShfOpen h r v s
  | .sheafAdd h r v => Sys2Proof.Machine.execSheafAdd h r v s
  | .shfCommit h r v => Sys2Proof.Machine.execShfCommit h r v s
  | .shfAbort h r v => Sys2Proof.Machine.execShfAbort h r v s
  | .sheafOpenTimeout h slot => Sys2Proof.Machine.execSheafOpenTimeout h slot s
  | .journalWaitTimeout h slot => Sys2Proof.Machine.execJournalWaitTimeout h slot s
  | .msgDeferred h slot act => Sys2Proof.Machine.execMsgDeferred h slot act s
  | .mzPrepareReceive f => Sys2Proof.Machine.execMzPrepareReceive f s
  | .mzVoteReceive f => Sys2Proof.Machine.execMzVoteReceive f s
  | .sheafDeadline h slot => Sys2Proof.Machine.execSheafDeadline h slot s
  | .mzCommitReceive f => Sys2Proof.Machine.execMzCommitReceive f s
  | .mzAbortReceive f => Sys2Proof.Machine.execMzAbortReceive f s
  | .mzAckReceive f => Sys2Proof.Machine.execMzAckReceive f s
  | .commitRepeat h slot => Sys2Proof.Machine.execCommitRepeat h slot s
  | .coordinatorOrphan h slot => Sys2Proof.Machine.execCoordinatorOrphan h slot s
  | .outcomeQuery h slot => Sys2Proof.Machine.execOutcomeQuery h slot s
  | .mzOutcomeReceive f => Sys2Proof.Machine.execMzOutcomeReceive f s
  | .participantOrphaned h slot => Sys2Proof.Machine.execParticipantOrphaned h slot s
  | .taskRelease h t => Sys2Proof.Machine.execTaskRelease h t s
  | .safeStateRetry h t => Sys2Proof.Machine.execSafeStateRetry h t s
  | .resume h r => Sys2Proof.Machine.execResume h r s
  | .stop h r safe => Sys2Proof.Machine.execStop h r safe s
  | .start h r => Sys2Proof.Machine.execStart h r s
  | .clrStats h r => Sys2Proof.Machine.execClrStats h r s
  | .drillRunWrite h r v => Sys2Proof.Machine.execDrillRunWrite h r v s
  | .drlClr h r e v => Sys2Proof.Machine.execDrlClr h r e v s
  | .programSwap h r v => Sys2Proof.Machine.execProgramSwap h r v s
  | .shadowVerified h => Sys2Proof.Machine.execShadowVerified h s
  | .swapDrainEnd h => Sys2Proof.Machine.execSwapDrainEnd h s
  | .swapDrainTimeout h => Sys2Proof.Machine.execSwapDrainTimeout h s
  | .forceSet h r v => Sys2Proof.Machine.execForceSet h r v s
  | .forceRelease h r v => Sys2Proof.Machine.execForceRelease h r v s
  | .forcePersist h r v => Sys2Proof.Machine.execForcePersist h r v s
  | .drlNop h e => Sys2Proof.Machine.execDrlNop h e s
  | .drlLdb h e => Sys2Proof.Machine.execDrlLdb h e s
  | .drlAndb h e => Sys2Proof.Machine.execDrlAndb h e s
  | .drlOrb h e => Sys2Proof.Machine.execDrlOrb h e s
  | .drlXorb h e => Sys2Proof.Machine.execDrlXorb h e s
  | .drlBpush h e => Sys2Proof.Machine.execDrlBpush h e s
  | .drlBpopa h e => Sys2Proof.Machine.execDrlBpopa h e s
  | .drlBpopo h e => Sys2Proof.Machine.execDrlBpopo h e s
  | .drlBpopx h e => Sys2Proof.Machine.execDrlBpopx h e s
  | .drlNotb h e => Sys2Proof.Machine.execDrlNotb h e s
  | .drlSetb h e => Sys2Proof.Machine.execDrlSetb h e s
  | .drlClrb h e => Sys2Proof.Machine.execDrlClrb h e s
  | .drlStb h e => Sys2Proof.Machine.execDrlStb h e s
  | .drlSetif h e => Sys2Proof.Machine.execDrlSetif h e s
  | .drlClrif h e => Sys2Proof.Machine.execDrlClrif h e s
  | .drlRise h e => Sys2Proof.Machine.execDrlRise h e s
  | .drlFall h e => Sys2Proof.Machine.execDrlFall h e s
  | .drlLdw h e => Sys2Proof.Machine.execDrlLdw h e s
  | .drlStw h e => Sys2Proof.Machine.execDrlStw h e s
  | .drlAdd h e => Sys2Proof.Machine.execDrlAdd h e s
  | .drlSub h e => Sys2Proof.Machine.execDrlSub h e s
  | .drlMul h e => Sys2Proof.Machine.execDrlMul h e s
  | .drlDiv h e => Sys2Proof.Machine.execDrlDiv h e s
  | .drlRem h e => Sys2Proof.Machine.execDrlRem h e s
  | .drlFadd h e => Sys2Proof.Machine.execDrlFadd h e s
  | .drlFsub h e => Sys2Proof.Machine.execDrlFsub h e s
  | .drlFmul h e => Sys2Proof.Machine.execDrlFmul h e s
  | .drlFdiv h e => Sys2Proof.Machine.execDrlFdiv h e s
  | .drlWand h e => Sys2Proof.Machine.execDrlWand h e s
  | .drlWor h e => Sys2Proof.Machine.execDrlWor h e s
  | .drlWxor h e => Sys2Proof.Machine.execDrlWxor h e s
  | .drlShl h e => Sys2Proof.Machine.execDrlShl h e s
  | .drlShr h e => Sys2Proof.Machine.execDrlShr h e s
  | .drlAsr h e => Sys2Proof.Machine.execDrlAsr h e s
  | .drlCmp h e => Sys2Proof.Machine.execDrlCmp h e s
  | .drlFcmp h e => Sys2Proof.Machine.execDrlFcmp h e s
  | .drlItf h e => Sys2Proof.Machine.execDrlItf h e s
  | .drlFti h e => Sys2Proof.Machine.execDrlFti h e s
  | .drlNeg h e => Sys2Proof.Machine.execDrlNeg h e s
  | .drlAbs h e => Sys2Proof.Machine.execDrlAbs h e s
  | .drlTon h e => Sys2Proof.Machine.execDrlTon h e s
  | .drlTof h e => Sys2Proof.Machine.execDrlTof h e s
  | .drlTp h e => Sys2Proof.Machine.execDrlTp h e s
  | .drlTonr h e => Sys2Proof.Machine.execDrlTonr h e s
  | .drlTrst h e => Sys2Proof.Machine.execDrlTrst h e s
  | .drlCtu h e => Sys2Proof.Machine.execDrlCtu h e s
  | .drlCtd h e => Sys2Proof.Machine.execDrlCtd h e s
  | .drlCrst h e => Sys2Proof.Machine.execDrlCrst h e s
  | .drlCld h e => Sys2Proof.Machine.execDrlCld h e s
  | .drlCpv h e => Sys2Proof.Machine.execDrlCpv h e s
  | .drlSpw h e => Sys2Proof.Machine.execDrlSpw h e s
  | .drlSdrv h e => Sys2Proof.Machine.execDrlSdrv h e s
  | .drlSpulse h e => Sys2Proof.Machine.execDrlSpulse h e s
  | .drlSprof h e => Sys2Proof.Machine.execDrlSprof h e s
  | .drlSevt h e => Sys2Proof.Machine.execDrlSevt h e s
  | .drlJmp h e => Sys2Proof.Machine.execDrlJmp h e s
  | .drlJt h e => Sys2Proof.Machine.execDrlJt h e s
  | .drlJf h e => Sys2Proof.Machine.execDrlJf h e s
  | .drlCall h e => Sys2Proof.Machine.execDrlCall h e s
  | .drlRet h e => Sys2Proof.Machine.execDrlRet h e s
  | .drlLoop h e => Sys2Proof.Machine.execDrlLoop h e s
  | .drlEnd h e => Sys2Proof.Machine.execDrlEnd h e s
  | .tillerSample h => Sys2Proof.Machine.execTillerSample h s
  | .tlrEnable h r v => Sys2Proof.Machine.execTlrEnable h r v s
  | .tlrDisable h r v => Sys2Proof.Machine.execTlrDisable h r v s
  | .tlrClrFlags h r v => Sys2Proof.Machine.execTlrClrFlags h r v s
  | .tlrManual h r v => Sys2Proof.Machine.execTlrManual h r v s
  | .tlrAuto h r v => Sys2Proof.Machine.execTlrAuto h r v s
  | .tillerRunWrite h r v => Sys2Proof.Machine.execTillerRunWrite h r v s
  | .tlrClr h r v => Sys2Proof.Machine.execTlrClr h r v s
  | .energyCycle vs x => Sys2Proof.Machine.execEnergyCycle vs x s
  | .nrgWindowEnd h vs => Sys2Proof.Machine.execNrgWindowEnd h vs s
  | .demandMinute => Sys2Proof.Machine.execDemandMinute s
  | .demandIntervalEnd => Sys2Proof.Machine.execDemandIntervalEnd s
  | .energyRound h => Sys2Proof.Machine.execEnergyRound h s
  | .energySnapshotRound h => Sys2Proof.Machine.execEnergySnapshotRound h s
  | .nrgCalApply h r v => Sys2Proof.Machine.execNrgCalApply h r v s
  | .clrPeak h r => Sys2Proof.Machine.execClrPeak h r s
  | .nrgClrFlags h r => Sys2Proof.Machine.execNrgClrFlags h r s
  | .clrAcc h r => Sys2Proof.Machine.execClrAcc h r s
  | .reactiveLoad h r v => Sys2Proof.Machine.execReactiveLoad h r v s
  | .mCfgWrite h r v => Sys2Proof.Machine.execMCfgWrite h r v s
  | .nrgRunWrite h r v => Sys2Proof.Machine.execNrgRunWrite h r v s
  | .uioSample t raw loopOpen => Sys2Proof.Machine.execUioSample t raw loopOpen s
  | .uioEdgeAccept t level => Sys2Proof.Machine.execUioEdgeAccept t level s
  | .modeWrite h r t v => Sys2Proof.Machine.execModeWrite h r t v s
  | .modeSettleEnd t level => Sys2Proof.Machine.execModeSettleEnd t level s
  | .uioCalApply h r g v => Sys2Proof.Machine.execUioCalApply h r g v s
  | .uioClr h r g v => Sys2Proof.Machine.execUioClr h r g v s
  | .odOvercurrent x => Sys2Proof.Machine.execOdOvercurrent x s
  | .odRetry t => Sys2Proof.Machine.execOdRetry t s
  | .strikePulseEnd t => Sys2Proof.Machine.execStrikePulseEnd t s
  | .reflexBindCommit h r v => Sys2Proof.Machine.execReflexBindCommit h r v s
  | .samplerWake x => Sys2Proof.Machine.execSamplerWake x s
  | .canFrameStored c f => Sys2Proof.Machine.execCanFrameStored c f s
  | .canTxreq h r c v => Sys2Proof.Machine.execCanTxreq h r c v s
  | .canTxAbort h r c v => Sys2Proof.Machine.execCanTxAbort h r c v s
  | .canFrameSent c o => Sys2Proof.Machine.execCanFrameSent c o s
  | .canTxError c o e => Sys2Proof.Machine.execCanTxError c o e s
  | .busOffRecoveryStart h c => Sys2Proof.Machine.execBusOffRecoveryStart h c s
  | .canRecover h r c => Sys2Proof.Machine.execCanRecover h r c s
  | .busOffRecovered c => Sys2Proof.Machine.execBusOffRecovered c s
  | .canAbortAll h r c => Sys2Proof.Machine.execCanAbortAll h r c s
  | .canAck h r c v => Sys2Proof.Machine.execCanAck h r c v s
  | .canObjectCommit h r addr v => Sys2Proof.Machine.execCanObjectCommit h r addr v s
  | .canModeWrite h r c v => Sys2Proof.Machine.execCanModeWrite h r c v s
  | .canModeEffect c => Sys2Proof.Machine.execCanModeEffect c s
  | .canWakePattern c => Sys2Proof.Machine.execCanWakePattern c s
  | .canClr h r c v => Sys2Proof.Machine.execCanClr h r c v s
  | .serModeWrite h r e v => Sys2Proof.Machine.execSerModeWrite h r e v s
  | .serModeEffect e => Sys2Proof.Machine.execSerModeEffect e s
  | .mstpFrameReceived e f => Sys2Proof.Machine.execMstpFrameReceived e f s
  | .replyPostponed h e => Sys2Proof.Machine.execReplyPostponed h e s
  | .mstpNoToken h e => Sys2Proof.Machine.execMstpNoToken h e s
  | .mstpTimerExpiry h e => Sys2Proof.Machine.execMstpTimerExpiry h e s
  | .osdpPoll h e => Sys2Proof.Machine.execOsdpPoll h e s
  | .osdpReply e f => Sys2Proof.Machine.execOsdpReply e f s
  | .osdpReplyTimeout h e => Sys2Proof.Machine.execOsdpReplyTimeout h e s
  | .asyncFrameEnd e f => Sys2Proof.Machine.execAsyncFrameEnd e f s
  | .serFrameSend h e => Sys2Proof.Machine.execSerFrameSend h e s
  | .serSlotCommit h r e sl v => Sys2Proof.Machine.execSerSlotCommit h r e sl v s
  | .serClr h r e v => Sys2Proof.Machine.execSerClr h r e v s
  | .daliTxSubmit h r l v => Sys2Proof.Machine.execDaliTxSubmit h r l v s
  | .daliSettlingEnd h l => Sys2Proof.Machine.execDaliSettlingEnd h l s
  | .daliForwardEnd l => Sys2Proof.Machine.execDaliForwardEnd l s
  | .daliBackwardFrame l f => Sys2Proof.Machine.execDaliBackwardFrame l f s
  | .daliReplyWindowClose l => Sys2Proof.Machine.execDaliReplyWindowClose l s
  | .daliCollision l => Sys2Proof.Machine.execDaliCollision l s
  | .daliPoll h l b => Sys2Proof.Machine.execDaliPoll h l b s
  | .daliForwardReceived l f => Sys2Proof.Machine.execDaliForwardReceived l f s
  | .daliBusDown l => Sys2Proof.Machine.execDaliBusDown l s
  | .daliBusUp l => Sys2Proof.Machine.execDaliBusUp l s
  | .daliModeWrite h r l v => Sys2Proof.Machine.execDaliModeWrite h r l v s
  | .daliClr h r l v => Sys2Proof.Machine.execDaliClr h r l v s
  | .ethFrameReceived p f => Sys2Proof.Machine.execEthFrameReceived p f s
  | .ethFrameTransmit h p => Sys2Proof.Machine.execEthFrameTransmit h p s
  | .prpSupervision h => Sys2Proof.Machine.execPrpSupervision h s
  | .prpLanTimeout lan => Sys2Proof.Machine.execPrpLanTimeout lan s
  | .prpEntryForget h src seq => Sys2Proof.Machine.execPrpEntryForget h src seq s
  | .linkEnergyDetect p => Sys2Proof.Machine.execLinkEnergyDetect p s
  | .linkUp p m => Sys2Proof.Machine.execLinkUp p m s
  | .trainingTimeout p => Sys2Proof.Machine.execTrainingTimeout p s
  | .linkDown p reason => Sys2Proof.Machine.execLinkDown p reason s
  | .macTest h r p v => Sys2Proof.Machine.execMacTest h r p v s
  | .macNormal h r p v => Sys2Proof.Machine.execMacNormal h r p v s
  | .macRenegotiate h r p v => Sys2Proof.Machine.execMacRenegotiate h r p v s
  | .macModeWrite h r p v => Sys2Proof.Machine.execMacModeWrite h r p v s
  | .macClr h r p v => Sys2Proof.Machine.execMacClr h r p v s
  | .prpClr h r v => Sys2Proof.Machine.execPrpClr h r v s
  | .plcaBeaconLost p => Sys2Proof.Machine.execPlcaBeaconLost p s
  | .mzHeaderReceived p f => Sys2Proof.Machine.execMzHeaderReceived p f s
  | .mzFrameTail p f => Sys2Proof.Machine.execMzFrameTail p f s
  | .linkFrameSend h p => Sys2Proof.Machine.execLinkFrameSend h p s
  | .mzLinkReceive p f => Sys2Proof.Machine.execMzLinkReceive p f s
  | .mzSignalDetect p => Sys2Proof.Machine.execMzSignalDetect p s
  | .mzSyncTimeout p => Sys2Proof.Machine.execMzSyncTimeout p s
  | .mzLinkLost p cause => Sys2Proof.Machine.execMzLinkLost p cause s
  | .noHalfTimeout => Sys2Proof.Machine.execNoHalfTimeout s
  | .dupEntryForget h k => Sys2Proof.Machine.execDupEntryForget h k s
  | .fwdNsUpdate h => Sys2Proof.Machine.execFwdNsUpdate h s
  | .wakeTx h r v => Sys2Proof.Machine.execWakeTx h r v s
  | .mzWakeReceive f => Sys2Proof.Machine.execMzWakeReceive f s
  | .mzpKeyCommit h r p slot v => Sys2Proof.Machine.execMzpKeyCommit h r p slot v s
  | .keyCtrlWrite h r p v => Sys2Proof.Machine.execKeyCtrlWrite h r p v s
  | .mzClr h r v => Sys2Proof.Machine.execMzClr h r v s
  | .mzpClr h r p v => Sys2Proof.Machine.execMzpClr h r p v s
  | .mzPublishReceive f => Sys2Proof.Machine.execMzPublishReceive f s
  | .mzPointWriteReceive f => Sys2Proof.Machine.execMzPointWriteReceive f s
  | .mzIppReqReceive f => Sys2Proof.Machine.execMzIppReqReceive f s
  | .mzIppRspReceive f => Sys2Proof.Machine.execMzIppRspReceive f s
  | .mzAppReceive f => Sys2Proof.Machine.execMzAppReceive f s
  | .mzHeartbeatReceive f => Sys2Proof.Machine.execMzHeartbeatReceive f s
  | .fosterPackReceive f => Sys2Proof.Machine.execFosterPackReceive f s
  | .fosterAckReceive f => Sys2Proof.Machine.execFosterAckReceive f s
  | .halfReady h clean x => Sys2Proof.Machine.execHalfReady h clean x s
  | .leaseRenewal h clean => Sys2Proof.Machine.execLeaseRenewal h clean s
  | .leaseExpiry => Sys2Proof.Machine.execLeaseExpiry s
  | .handover h r => Sys2Proof.Machine.execHandover h r s
  | .handoverTimeout => Sys2Proof.Machine.execHandoverTimeout s
  | .rejoin h r => Sys2Proof.Machine.execRejoin h r s
  | .retireSelf h r => Sys2Proof.Machine.execRetireSelf h r s
  | .rejoinTimer h => Sys2Proof.Machine.execRejoinTimer h s
  | .wdogKick h r v => Sys2Proof.Machine.execWdogKick h r v s
  | .watchdogExpiry h => Sys2Proof.Machine.execWatchdogExpiry h s
  | .outputRecord h x => Sys2Proof.Machine.execOutputRecord h x s
  | .recordWaitTimeout => Sys2Proof.Machine.execRecordWaitTimeout s
  | .challengeDecided x => Sys2Proof.Machine.execChallengeDecided x s
  | .xlinkLost h cause => Sys2Proof.Machine.execXlinkLost h cause s
  | .xlinkRetrain ok => Sys2Proof.Machine.execXlinkRetrain ok s
  | .stateTransferRound h x => Sys2Proof.Machine.execStateTransferRound h x s
  | .stateTransferRetry h => Sys2Proof.Machine.execStateTransferRetry h s
  | .yokeLost h => Sys2Proof.Machine.execYokeLost h s
  | .yokeRestored => Sys2Proof.Machine.execYokeRestored s
  | .yokeHoldExceeded h => Sys2Proof.Machine.execYokeHoldExceeded h s
  | .heartbeatSend h => Sys2Proof.Machine.execHeartbeatSend h s
  | .packSend h cfg => Sys2Proof.Machine.execPackSend h cfg s
  | .packRetry h => Sys2Proof.Machine.execPackRetry h s
  | .protectionTimeout h => Sys2Proof.Machine.execProtectionTimeout h s
  | .absence h k => Sys2Proof.Machine.execAbsence h k s
  | .busCheckEnd h k seen => Sys2Proof.Machine.execBusCheckEnd h k seen s
  | .busRecheck h k seen => Sys2Proof.Machine.execBusRecheck h k seen s
  | .query f => Sys2Proof.Machine.execQuery f s
  | .queryTimeout h seen => Sys2Proof.Machine.execQueryTimeout h seen s
  | .fosterStatus f => Sys2Proof.Machine.execFosterStatus f s
  | .pull f => Sys2Proof.Machine.execPull f s
  | .fosterRelease f => Sys2Proof.Machine.execFosterRelease f s
  | .released f => Sys2Proof.Machine.execReleased f s
  | .claimed f => Sys2Proof.Machine.execClaimed f s
  | .fosterDormant f => Sys2Proof.Machine.execFosterDormant f s
  | .handback h r => Sys2Proof.Machine.execHandback h r s
  | .drop h r => Sys2Proof.Machine.execDrop h r s
  | .sendPack h r => Sys2Proof.Machine.execSendPack h r s
  | .fostFosterWrite h r v => Sys2Proof.Machine.execFostFosterWrite h r v s
  | .rtcSecond => Sys2Proof.Machine.execRtcSecond s
  | .intervalAlarm => Sys2Proof.Machine.execIntervalAlarm s
  | .timeOfDayAlarm => Sys2Proof.Machine.execTimeOfDayAlarm s
  | .rtcSet h r => Sys2Proof.Machine.execRtcSet h r s
  | .dstOn h r => Sys2Proof.Machine.execDstOn h r s
  | .dstOff h r => Sys2Proof.Machine.execDstOff h r s
  | .clrOsf h r => Sys2Proof.Machine.execClrOsf h r s
  | .clrVlow h r => Sys2Proof.Machine.execClrVlow h r s
  | .clrSwo h r => Sys2Proof.Machine.execClrSwo h r s
  | .compApply h r => Sys2Proof.Machine.execCompApply h r s
  | .compFactory h r => Sys2Proof.Machine.execCompFactory h r s
  | .compWindow temp => Sys2Proof.Machine.execCompWindow temp s
  | .vrtcSwitchover => Sys2Proof.Machine.execVrtcSwitchover s
  | .vlowDetect => Sys2Proof.Machine.execVlowDetect s
  | .oscStopped => Sys2Proof.Machine.execOscStopped s
  | .ptpSyncReceive x => Sys2Proof.Machine.execPtpSyncReceive x s
  | .ptpAnnounceReceive x => Sys2Proof.Machine.execPtpAnnounceReceive x s
  | .ptpDelayReqReceive x => Sys2Proof.Machine.execPtpDelayReqReceive x s
  | .ptpDelayRespReceive x => Sys2Proof.Machine.execPtpDelayRespReceive x s
  | .ptpMessageSend h p k => Sys2Proof.Machine.execPtpMessageSend h p k s
  | .announceReceiptTimeout p sync => Sys2Proof.Machine.execAnnounceReceiptTimeout p sync s
  | .holdoverExpiry h => Sys2Proof.Machine.execHoldoverExpiry h s
  | .rtcReloadCheck => Sys2Proof.Machine.execRtcReloadCheck s
  | .pageSelWrite h r v => Sys2Proof.Machine.execPageSelWrite h r v s
  | .grnDataWrite h r v => Sys2Proof.Machine.execGrnDataWrite h r v s
  | .grnCommit h r v => Sys2Proof.Machine.execGrnCommit h r v s
  | .storeGo h r v => Sys2Proof.Machine.execStoreGo h r v s
  | .periodicStore h => Sys2Proof.Machine.execPeriodicStore h s
  | .storeCapture h => Sys2Proof.Machine.execStoreCapture h s
  | .storeProgrammed h ok => Sys2Proof.Machine.execStoreProgrammed h ok s
  | .pfwAssert va vb => Sys2Proof.Machine.execPfwAssert va vb s
  | .pfwRelease => Sys2Proof.Machine.execPfwRelease s
  | .inputChanged b low mv other => Sys2Proof.Machine.execInputChanged b low mv other s
  | .reqWorking h r => Sys2Proof.Machine.execReqWorking h r s
  | .reqQuiet h r => Sys2Proof.Machine.execReqQuiet h r s
  | .reqFallow h r => Sys2Proof.Machine.execReqFallow h r s
  | .reqDormant h r => Sys2Proof.Machine.execReqDormant h r s
  | .pagePowerAnswer h page x => Sys2Proof.Machine.execPagePowerAnswer h page x s
  | .powerDelayExpiry h page => Sys2Proof.Machine.execPowerDelayExpiry h page s
  | .powerAnswerTimeout h page => Sys2Proof.Machine.execPowerAnswerTimeout h page s
  | .wake reason lost => Sys2Proof.Machine.execWake reason lost s
  | .mgtAddressMatch addr => Sys2Proof.Machine.execMgtAddressMatch addr s
  | .getStatus x => Sys2Proof.Machine.execGetStatus x s
  | .mgtRead x => Sys2Proof.Machine.execMgtRead x s
  | .mgtWrite x => Sys2Proof.Machine.execMgtWrite x s
  | .setState x => Sys2Proof.Machine.execSetState x s
  | .mgtWake x => Sys2Proof.Machine.execMgtWake x s
  | .streamOpen h r v => Sys2Proof.Machine.execStreamOpen h r v s
  | .streamAbort h r v => Sys2Proof.Machine.execStreamAbort h r v s
  | .winWrite h r ws => Sys2Proof.Machine.execWinWrite h r ws s
  | .loadTimeout h => Sys2Proof.Machine.execLoadTimeout h s
  | .slotCopyDone h => Sys2Proof.Machine.execSlotCopyDone h s
  | .updActivate h r v => Sys2Proof.Machine.execUpdActivate h r v s
  | .rollback h r => Sys2Proof.Machine.execRollback h r s
  | .accept h r => Sys2Proof.Machine.execAccept h r s
  | .migDone h r => Sys2Proof.Machine.execMigDone h r s
  | .migFail h r => Sys2Proof.Machine.execMigFail h r s
  | .migrationTimeout => Sys2Proof.Machine.execMigrationTimeout s
  | .activationTimeout => Sys2Proof.Machine.execActivationTimeout s
  | .yokeReloadDone ok => Sys2Proof.Machine.execYokeReloadDone ok s
  | .probationEnd => Sys2Proof.Machine.execProbationEnd s
  | .ownerKeyCommit h r v => Sys2Proof.Machine.execOwnerKeyCommit h r v s
  | .kzqpush h c x v => Sys2Proof.Machine.execKzqpush h c x v s
  | .kzqpop h c x => Sys2Proof.Machine.execKzqpop h c x s
  | .aesGcmEncrypt h => Sys2Proof.Machine.execAesGcmEncrypt h s
  | .aesGcmDecrypt h => Sys2Proof.Machine.execAesGcmDecrypt h s
  | .sha384 h => Sys2Proof.Machine.execSha384 h s
  | .ecdsaVerify h => Sys2Proof.Machine.execEcdsaVerify h s
  | .ecdh h => Sys2Proof.Machine.execEcdh h s
  | .signId h => Sys2Proof.Machine.execSignId h s
  | .eventArise h => Sys2Proof.Machine.execEventArise h s
  | .exportWrite h r v => Sys2Proof.Machine.execExportWrite h r v s
  | .evrFreeze h r => Sys2Proof.Machine.execEvrFreeze h r s
  | .evrRelease h r => Sys2Proof.Machine.execEvrRelease h r s
  | .freezeTimeout h => Sys2Proof.Machine.execFreezeTimeout h s
  | .discard h r => Sys2Proof.Machine.execDiscard h r s
  | .clear h r => Sys2Proof.Machine.execClear h r s
  | .thermalSample x => Sys2Proof.Machine.execThermalSample x s
  | .thermalCooled => Sys2Proof.Machine.execThermalCooled s
  | .railSample x => Sys2Proof.Machine.execRailSample x s
  | .scrubLine h x => Sys2Proof.Machine.execScrubLine h x s
  | .hlthClr h r v => Sys2Proof.Machine.execHlthClr h r v s
  | .moduleStart x => Sys2Proof.Machine.execModuleStart x s
  | .rstNAssert => Sys2Proof.Machine.execRstNAssert s
  | .rstNRelease => Sys2Proof.Machine.execRstNRelease s
  | .canReceiveError c e => Sys2Proof.Machine.execCanReceiveError c e s
  | .ethCollision h p late => Sys2Proof.Machine.execEthCollision h p late s
  | .trainingNoCommonMode p => Sys2Proof.Machine.execTrainingNoCommonMode p s
  | .plcaBeaconReturn p => Sys2Proof.Machine.execPlcaBeaconReturn p s
  | .plcaBeaconSend h p => Sys2Proof.Machine.execPlcaBeaconSend h p s
  | .outputRateLimit h t => Sys2Proof.Machine.execOutputRateLimit h t s

end Sys2Proof.Machine
end

