-- ==== Sys2Proof/Machine/Idle.lean ====
section
/-! DEFINITION. What time alone does while no command waits (R17, R199, R419): the counts of nanoseconds advance, a half that has
waited for its pair takes its role (Table 16.2), and foster packs that waited go (R394). -/
namespace Sys2Proof.Machine

/-- One nanosecond of a half: its own counter, the time base steered by its rate in 10^-9 (R419), Drill time (R199), and what each Drill
engine does with it (R171). -/
def Half.tick (m0 : Half) : Half :=
  let m := (List.range 8).foldl (fun m e => m.engTick e) m0
  let total := ((m.tim.frac : Int) + 1000000000 + m.tim.rate).toNat
  let t := m.tai.toNat + total / 1000000000
  { m with
    up := m.up + 1
    tai := BitVec.ofNat 64 t
    tim := { m.tim with frac := total % 1000000000 }
    drl := { m.drl with drillMs := m.drl.drillMs + (t / oneMs - m.tai.toNat / oneMs) } }

/-- R394: packs of a half that waited for an instant without a COMMITTED sheaf. -/
def State.packsDue (s : State) (h : HalfId) : State := if s.runs h then s.upd h (fun m => m.packsDue (s.view h)) else s

/-- One nanosecond of the module: the halves that run and the Yoke count it. -/
def State.tick (s : State) : State := (((s.each (·.tick)).updYk (fun k => { k with now := k.now + 1 })).assign.packsDue .a).packsDue .b

end Sys2Proof.Machine
end

