-- ==== Sys2Proof/Safety.lean ====
section
/-! DEFINITION. What a good state of the module is: one half in charge and the lease with it (R382, R383), and every addressed memory in
its canonical form. -/
namespace Sys2Proof.Machine

/-- At most one half is in charge (R382). -/
def State.oneInCharge (s : State) : Bool := !(decide (s.role .a = .inCharge) && decide (s.role .b = .inCharge))

/-- A half that holds the lease is in charge (R383). -/
def State.leaseInCharge (s : State) : Bool :=
  match s.yoke.holder with
  | some h => decide (s.role h = .inCharge)
  | none => true

/-- The rules of roles and lease together. -/
def State.rolesOk (s : State) : Bool := s.oneInCharge && s.leaseInCharge

/-- The form of an addressed memory: addresses strictly rising, and no entry that holds the zero an unlisted address reads as. -/
def Memory.wf (m : Sparse Byte) : Bool := swf (fun _ => 0) m

/-- A half's addressed memories: LPDDR with the queue buffers, and the granary's volatile array. -/
def Half.memWf (m : Half) : Bool := Memory.wf m.lpddr && Memory.wf m.grn.array

/-- Half h acts undisturbed: it runs, no handover waits (R385), and no word of a sheaf is on its way to the Yoke's pages. -/
def State.quiet (s : State) (h : HalfId) : Bool :=
  s.runs h && s.yoke.handover.isNone && (s.half h).shf.toYoke.isEmpty

/-- The same for a half's building, tenant and field transceivers, which PFW turns off (Table 19.2). -/
def State.quietBus (s : State) (h : HalfId) : Bool := s.quiet h && !s.yoke.pwr.pfw

/-- A requester's accesses reach half h: the policy cores do not run in Fallow (R459), the Yoke answers MGT in Dormant (R469), and a
request of the IPP engine acts in both halves (R19), of which neither has a word on its way to the Yoke's pages. -/
def State.reaches (s : State) (h : HalfId) (r : Req) : Bool :=
  s.quiet h &&
    (match r with
     | .core _ => decide (s.yoke.pwr.state ≠ 2)
     | .mgt => true
     | .ipp _ => (s.half (other h)).shf.toYoke.isEmpty)

/-- A requester other than the IPP engine: a policy core or MGT, whose accesses reach one half (R19). -/
def ownReq (r : Req) : Bool :=
  match r with
  | .ipp _ => false
  | _ => true

/-- The Yoke takes r's command from half h: a request of the IPP engine, which reaches both halves, from the half that decides for it, and
any other from the half it is made to (R19). -/
def State.once (s : State) (h : HalfId) (r : Req) : Bool := ownReq r || decide (s.primary = h)

/-- A write of v to the register at k passes checks 1 to 5 of Table 2.12, and the register's own rule is next. -/
def Half.admits (m : Half) (r : Req) (k : Nat) (v : Word) : Bool := (m.admission r k v).2

/-- The write of v to the register at k of half h reaches the register's own rule. -/
def State.admits (s : State) (h : HalfId) (r : Req) (k : Nat) (v : Word) : Bool := s.reaches h r && (s.half h).admits r k v

/-- The registers of one word that take the value written to them and have no rule of their own: SYS.IRQ_ROUTE0 to 63, HLTH.FAULT_MASK,
UPD.ACT_VER, GRN.ALLOC_SEL and PTAB.SEL. -/
def plainRegs : List Nat := (List.range 64).map rSysIrqRoute ++ [rHlthFaultMask, rUpdActVer, rGrnAllocSel, rPtabSel]

/-- The row of a register's map that the register at a key lies in, if any: whether it counts in PG_GEN, and the bits a write keeps. -/
def regBits (k : Nat) : Bool × Nat :=
  match regRow k with
  | some (row, _, _) => (row.gen, row.mask)
  | none => (false, 0)

/-- The half once the words of its sheaves for the Yoke's pages have gone there. -/
def Half.sealed (m : Half) : Half := { m with shf := { m.shf with toYoke := [] } }

/-- What requester r was last answered: a status of Table 3.7, and the value of a read. -/
def Half.answered (m : Half) (r : Req) : Answer := (m.acc (reqNum r)).answer

/-- Engine e's task t stands at a valid instruction of opcode op that lies inside the program (R189, R194). -/
def Half.fetches (m : Half) (e op t : Nat) : Bool :=
  let pc := (m.task t).pc
  let w := m.code pc
  decide (m.running e = some t) && decide (iOp w = op) && iValid w && decide (pc + 1 + iExt w ≤ m.drl.active.codeLen)

/-- The word of the instruction at which task t stands. -/
def Half.instr (m : Half) (t : Nat) : Word := m.code (m.task t).pc

/-- A task past the instruction at which it stands, with its steps counted (R195). -/
def Half.past (m : Half) (t : Nat) : Task :=
  let x := m.task t
  { x with pc := x.pc + 1 + iExt (m.instr t), steps := x.steps + iCost (m.instr t) }

/-- The half with task t past its instruction: what the instruction's effect starts from. -/
def Half.fetched (m : Half) (t : Nat) : Half := m.updTask t (fun _ => m.past t)

/-- Everything of a half but its Drill tasks. -/
def Half.sansTasks (m : Half) : Half := { m with drl := { m.drl with tasks := [] } }

/-- Between two states nothing has changed but task t of half h, which is now x. -/
def TaskOnly (s u : State) (h : HalfId) (t : Nat) (x : Task) : Prop :=
  u = s.set h (u.half h) ∧ (u.half h).task t = x ∧ (∀ i, i ≠ t → (u.half h).task i = (s.half h).task i) ∧
    (u.half h).sansTasks = (s.half h).sansTasks

/-- The half that decides for IPP requests acts on request q: it hears the port, and q passes checks 1 to 8 of Table 3.8 there. The
request as it is then executed. -/
def State.ippTaken (s : State) (q : IppReq) : Option IppReq :=
  if s.quietBus s.primary && decide (s.yoke.pwr.state < 2) then ((s.half s.primary).ippCheck (s.view s.primary) q).2 else none

/-- What waits in a MAC's transmit queue, the next to leave first. -/
def Half.queued (m : Half) (p : Nat) : List EthPay := (m.macOf p).txq.map (·.pay)

/-- The response to request q (R94, R102): bit 0 of FLAGS, the flags of its own, a status of Table 3.7 and a payload. -/
def ippResponse (q : IppReq) (flags status : Nat) (payload : List Byte) : EthPay :=
  .ipp ⟨q.port, q.ip, q.udp, q.op, 1 + flags, q.session, q.seq, status, payload⟩

/-- Ring port p (0 MZE, 1 MZW) carries the frames that half h originates: the switch and the port operate, the half may send there (Table
1.4), the link is UP, and no frame is held for a first lease (R525). -/
def State.ringOpen (s : State) (h : HalfId) (p : Nat) : Bool :=
  decide (p < 2) && (s.half h).on 0x0C0 && (s.half h).on (mzPage p) && !(s.view h).start && (s.half h).mzMaySend (s.view h) p &&
    decide (((s.half h).mzp p).link = 4)

/-- Between two states half h has sent a frame of its own on ring port p. -/
def originates (s t : State) (h : HalfId) (p dest kind : Nat) (payload : List Byte) : Prop :=
  ∃ w, Sent.mz p w ∈ (t.half h).sent.drop (s.half h).sent.length ∧ w.frame.src = (s.half h).addr ∧ w.frame.dest = dest ∧
    w.frame.kind = kind ∧ w.frame.payload = payload

/-- The sheaf engine has nothing to do: no commit waits and no engine's sheaf (R140, R144). -/
def Half.sheavesIdle (m : Half) : Bool := m.shf.cq.isEmpty && m.tlr.jobs.isEmpty && m.drl.jobs.isEmpty

/-- An event has arisen in half h (R506). -/
def Half.arisen (m : Half) (code p0 p1 p2 p3 : Nat) : Prop := ⟨code, p0, p1, p2, p3, m.tai⟩ ∈ m.evr.arising

/-- A stop of the machine: a step that answers no next state. -/
def State.stops (s : State) : Prop := ∀ t, step s ≠ .next t

/-- The half in which a command of one half's engines or registers acts alone (R17): none for a command that reaches the other half or the
Yoke, or that both halves take. -/
def ownHalf : Instr → Option HalfId
  | .repeatIntervalEnd h _ | .notifyIntervalEnd h _ | .sourceStale h _ | .sheafOpenTimeout h _ | .journalWaitTimeout h _
  | .msgDeferred h _ _ | .sheafDeadline h _ | .commitRepeat h _ | .coordinatorOrphan h _ | .outcomeQuery h _ | .participantOrphaned h _
  | .safeStateRetry h _ | .swapDrainEnd h | .swapDrainTimeout h | .drlNop h _ | .drlLdb h _ | .drlAndb h _ | .drlOrb h _ | .drlXorb h _
  | .drlBpush h _ | .drlBpopa h _ | .drlBpopo h _ | .drlBpopx h _ | .drlNotb h _ | .drlSetb h _ | .drlClrb h _ | .drlStb h _
  | .drlSetif h _ | .drlClrif h _ | .drlRise h _ | .drlFall h _ | .drlLdw h _ | .drlStw h _ | .drlAdd h _ | .drlSub h _ | .drlMul h _
  | .drlDiv h _ | .drlRem h _ | .drlFadd h _ | .drlFsub h _ | .drlFmul h _ | .drlFdiv h _ | .drlWand h _ | .drlWor h _ | .drlWxor h _
  | .drlShl h _ | .drlShr h _ | .drlAsr h _ | .drlCmp h _ | .drlFcmp h _ | .drlItf h _ | .drlFti h _ | .drlNeg h _ | .drlAbs h _
  | .drlTon h _ | .drlTof h _ | .drlTp h _ | .drlTonr h _ | .drlTrst h _ | .drlCtu h _ | .drlCtd h _ | .drlCrst h _ | .drlCld h _
  | .drlCpv h _ | .drlSpw h _ | .drlSdrv h _ | .drlSpulse h _ | .drlSprof h _ | .drlSevt h _ | .drlJmp h _ | .drlJt h _ | .drlJf h _
  | .drlCall h _ | .drlRet h _ | .drlLoop h _ | .drlEnd h _ | .energyRound h | .energySnapshotRound h | .busOffRecoveryStart h _
  | .replyPostponed h _ | .mstpNoToken h _ | .mstpTimerExpiry h _ | .osdpPoll h _ | .osdpReplyTimeout h _
  | .serFrameSend h _ | .daliSettlingEnd h _ | .daliPoll h _ _ | .ethFrameTransmit h _ | .prpSupervision h | .prpEntryForget h _ _
  | .linkFrameSend h _ | .dupEntryForget h _ | .fwdNsUpdate h | .heartbeatSend h | .packSend h _ | .packRetry h | .protectionTimeout h
  | .absence h _ | .busCheckEnd h _ _ | .busRecheck h _ _ | .queryTimeout h _ | .holdoverExpiry h | .periodicStore h | .storeCapture h
  | .loadTimeout h | .slotCopyDone h | .aesGcmEncrypt h | .aesGcmDecrypt h | .sha384 h | .ecdsaVerify h | .ecdh h | .signId h
  | .freezeTimeout h | .ethCollision h _ _ | .plcaBeaconSend h _ | .outputRateLimit h _ | .nrgWindowEnd h _ => some h
  | .stagingWrite h r _ _ | .canObjectCommit h r _ _ | .snapRelease h r _ | .clrAccStat h r _ | .clrOffline h r | .tenBindWrite h r _ _ | .sessClose h r _
  | .flushTenant h r _ | .fenceClr h r _ | .portsClr h r _ | .ptabWriteSubmit h r _ | .covEnWrite h r _ | .configure h r
  | .deconfigure h r | .relinquishAll h r | .ptabCfgWrite h r _ | .ptabCovWrite h r _ | .bindingCommit h r _ | .ptabClr h r _
  | .shfOpen h r _ | .sheafAdd h r _ | .shfCommit h r _ | .shfAbort h r _ | .resume h r | .stop h r _ | .start h r | .clrStats h r
  | .drillRunWrite h r _ | .drlClr h r _ _ | .programSwap h r _ | .forceSet h r _ | .forceRelease h r _ | .forcePersist h r _
  | .tlrEnable h r _ | .tlrDisable h r _ | .tlrClrFlags h r _ | .tlrManual h r _ | .tlrAuto h r _ | .tillerRunWrite h r _
  | .tlrClr h r _ | .nrgCalApply h r _ | .clrPeak h r | .nrgClrFlags h r | .clrAcc h r | .reactiveLoad h r _ | .mCfgWrite h r _
  | .nrgRunWrite h r _ | .modeWrite h r _ _ | .uioCalApply h r _ _ | .uioClr h r _ _ | .reflexBindCommit h r _ | .canTxreq h r _ _
  | .canTxAbort h r _ _ | .canRecover h r _ | .canAbortAll h r _ | .canAck h r _ _ | .canModeWrite h r _ _ | .canClr h r _ _
  | .serModeWrite h r _ _ | .serSlotCommit h r _ _ _ | .serClr h r _ _ | .daliTxSubmit h r _ _ | .daliModeWrite h r _ _
  | .daliClr h r _ _ | .macTest h r _ _ | .macNormal h r _ _ | .macRenegotiate h r _ _ | .macModeWrite h r _ _ | .macClr h r _ _
  | .prpClr h r _ | .wakeTx h r _ | .mzpKeyCommit h r _ _ _ | .keyCtrlWrite h r _ _ | .mzClr h r _ | .mzpClr h r _ _ | .wdogKick h r _
  | .handback h r | .drop h r | .sendPack h r | .fostFosterWrite h r _ | .pageSelWrite h r _ | .grnDataWrite h r _ | .grnCommit h r _
  | .storeGo h r _ | .ownerKeyCommit h r _ | .exportWrite h r _ | .evrFreeze h r | .evrRelease h r | .discard h r | .clear h r
  | .hlthClr h r _ => if ownReq r then some h else none
  | _ => none

/-- The commands that clear counters: their half, requester, register and value. -/
def clears : Instr → Option (HalfId × Req × Nat × Word)
  | .fenceClr h r v => some (h, r, rFenceClr, v)
  | .portsClr h r v => some (h, r, rPortsClr, v)
  | .ptabClr h r v => some (h, r, rPtabClr, v)
  | .drlClr h r e v => some (h, r, rDrlClr e.val, v)
  | .tlrClr h r v => some (h, r, rTlrClr, v)
  | .uioClr h r g v => some (h, r, rUiogClr g.val, v)
  | .canClr h r c v => some (h, r, rCanClr c.val, v)
  | .serClr h r e v => some (h, r, rSerClr e.val, v)
  | .daliClr h r l v => some (h, r, rDaliClr l.val, v)
  | .macClr h r p v => some (h, r, rMacClr (ethPage p), v)
  | .prpClr h r v => some (h, r, rPrpClr, v)
  | .mzClr h r v => some (h, r, rMzClr, v)
  | .mzpClr h r p v => some (h, r, rMzpClr p.val, v)
  | .hlthClr h r v => some (h, r, rHlthClr, v)
  | _ => none

end Sys2Proof.Machine
end

