-- ==== Sys2Proof/Certificates/Slice0/Obligations.lean ====
section
/-! DEFINITION. What is claimed of the module: one proposition per family of commands, of each register group and of the module as a
whole. Each is about every state and every operand its hypotheses allow; `exec … = .next t` in a conclusion says that the command
completes. -/

open Sys2Proof Sys2Proof.Machine

/-- One step (the queue of commands): the command at the front acts on the module with the queue's rest, and on an empty queue only time
passes (log entry 1). -/
def Obligations.StepTakesFront : Prop :=
  (∀ (s : State) (c : Instr) (l : List Instr), s.pending = c :: l → step s = exec c { s with pending := l }) ∧
  (∀ s : State, s.pending = [] → step s = .next s.tick ∧ s.tick.pending = [] ∧ s.tick.yoke.now = s.yoke.now + 1)

/-- No command stops the module, and none changes the queue of commands that wait behind it. What the spec
leaves open here is the model's choice (log entries 3 and 61). -/
def Obligations.CommandsComplete : Prop :=
  ∀ (c : Instr) (s : State), ∃ t, exec c s = .next t ∧ t.pending = s.pending

/-- R382, R416, R443, R524, R530: the module right after reset. Both halves are BOOTING with no lease and a start to come for POWER_ON, no
command waits, no page of the granary's array and no byte of memory is written, every register reads its reset value, and the clock stands
at 2000-01-01 00:00:00 with OSF set and no valid time. What memory reads, and the state behind the registers, are the
model's choice (log entries 2 and 26). -/
def Obligations.ResetState : Prop :=
  let s := State.reset
  s.role .a = .booting ∧ s.role .b = .booting ∧ s.yoke.holder = none ∧ s.yoke.epoch = 0 ∧ s.yoke.relay = true ∧
    s.yoke.pwr.due = true ∧ s.yoke.pwr.causes = 1 ∧ s.yoke.pwr.state = 0 ∧ s.pending = [] ∧ s.rolesOk = true ∧
    (∀ (h : HalfId) (k : Nat), s.rd h k = regReset k ∧ (s.half h).rd k = regReset k) ∧
    (∀ (h : HalfId) (i : Nat), (s.half h).peek i = 0 ∧ sget 0 (s.half h).grn.array i = 0 ∧ (s.half h).memWf = true ∧
      (s.half h).evr.recs = [] ∧ ((s.half h).ses i).isOpen = false ∧ (s.half h).tim.source = 0) ∧
    s.yoke.rtc.osf = true ∧ s.yoke.rtc.valid = false ∧ s.yoke.rtc.localSec = 946684800 ∧ s.yoke.act.phase = 0

/-- R382, R383: whatever command acts, and while time passes, at most one half is in charge, and a half that
holds the lease is in charge. What the spec leaves open here is the model's choice (log entry 33). -/
def Obligations.RolesKept : Prop := ∀ s t : State, s.rolesOk = true → step s = .next t → t.rolesOk = true

/-- R36, R48, R50, R51, R57, R551, Table 2.12: the checks of a word written to a register page by a policy core
or MGT, in their order. The first that fails gives the status and the code in PG_ERR, and the write changes
nothing but what records the refusal; one that passes them all reaches the register's own rule. What the spec
leaves open here is the model's choice (log entries 7 and 78). -/
def Obligations.WriteChecks : Prop :=
  ∀ (s : State) (h : HalfId) (r : Req) (k : Nat) (d : Dword), k < 2 ^ 20 → s.reaches h r = true → ownReq r = true →
    let m := s.half h
    let v := loWord d
    let c := reqClass r
    let p := k / 4096
    let sh := (m.acc (reqNum r)).sheaf
    let refused (status code : Nat) : Prop :=
      ∃ t, exec (.registerWrite h r (keyAddr k) 4 d) s = .next t ∧ (t.half h).answered r = ⟨status, 0⟩ ∧
        (code ≠ 0 → m.ready p = true →
          (t.half h).rd (pgErr p) = word (stickTo 0xFF (m.rdF (pgErr p) 24 8) 1 * 2 ^ 24 + (reqStamp r).toNat * 2 ^ 8 + code)) ∧
        (status = 4 → (t.half h).rdN rSysOfflineWrCnt = stickTo 0xFFFFFFFF (m.rdN rSysOfflineWrCnt) 1) ∧
        (∀ j, j ≠ pgErr p → j ≠ rSysOfflineWrCnt → (∀ i, i < 4 → j ≠ rSysAccStat i ∧ j ≠ rSysAccAddr i) → (t.half h).rd j = m.rd j) ∧
        { t.half h with regs := m.regs, accs := m.accs } = m ∧ t.half (other h) = s.half (other h) ∧ t.yoke = s.yoke
    let blk := (pageBlk p).isSome
    let acl := m.rdB (pgAcl p) (8 + c)
    (blk = false → refused 1 0) ∧
    (blk = true → k % 4 ≠ 0 → refused 2 3) ∧
    (blk = true → k % 4 = 0 →
      (acl = false → refused 3 1) ∧
      (acl = true → m.ready p = false → m.mayStall r p = false → refused 4 0) ∧
      (acl = true → m.ready p = true →
        (m.lockedFor k c = true → refused 3 2) ∧
        (m.lockedFor k c = false → classMay k v c = false → refused 3 1) ∧
        (m.lockedFor k c = false → classMay k v c = true →
          (regWritable k = false → refused 0 0) ∧
          (regWritable k = true → (becomesAction k = false ∨ sh = none) → m.heldByOther sh k = true → refused 5 4) ∧
          (regWritable k = true → (becomesAction k = false ∨ sh = none) → m.heldByOther sh k = false →
            (regShape k).1 = k ∨ (regShape k).2.1 ≤ 1 → s.admits h r k v = true))))

/-- R17: a command of one half's engines or register pages leaves the other half and the Yoke as they are, but
for the Yoke's registers, to which a sheaf of the half may write. It is so whatever the command answers, while
no handover of the lease waits. What the spec leaves open here is the model's choice (log entries 4 and 5). -/
def Obligations.OwnHalfFrame : Prop :=
  ∀ (s : State) (c : Instr) (h : HalfId), ownHalf c = some h → s.yoke.handover = none →
    ∃ t, exec c s = .next t ∧ t.half (other h) = s.half (other h) ∧ t.yoke = { s.yoke with regs := t.yoke.regs } ∧ t.pending = s.pending ∧
      (s.yoke.pwr.state ≠ 3 → ((s.half h).shf.toYoke = [] → (t.half h).shf.toYoke = []) ∧ (s.runs h = false → t = s))

/-- R10, R60: a command that clears counters changes registers of its own page above the common header and nothing else of the half: no
memory, no other page, and none of the blocks' other state. -/
def Obligations.ClearFrame : Prop :=
  ∀ (s : State) (c : Instr) (h : HalfId) (r : Req) (k : Nat) (v : Word), clears c = some (h, r, k, v) → s.admits h r k v = true →
    ∃ t, exec c s = .next t ∧ (t.half h).answered r = ⟨0, 0⟩ ∧
      (∀ j, j / 4096 ≠ k / 4096 ∨ j % 4096 < 0x40 → (t.half h).rd j = (s.half h).rd j) ∧
      { t.half h with regs := (s.half h).regs, accs := (s.half h).accs } = s.half h ∧ (v.toNat % 2 ^ 16 = 0 → (t.half h).regs = (s.half h).regs)

/-- R211: a loop whose sample instant arrives while its previous sample has not reached DONE skips that instant. OVERRUN is set and event
0x0B02 recorded; its outputs, its descriptor's results and its other state stay, the instants at which it falls due stay the same, so the
skipped one is not made up, and no other loop changes. -/
def Obligations.SkippedSamples : Prop :=
  ∀ (s : State) (h : HalfId) (l : Nat),
    let m := s.half h
    let x := m.loop l
    let ms := m.tai.toNat / 1000000
    s.quiet h = true → m.shf.cq = [] → m.drl.jobs = [] → (m.slot 8).state ≠ 0 → m.on 0x040 = true → m.rdB rTlrCtrl 0 = true →
    m.tlrBatch ms = [l] → x.busy = true → x.owed = none → (∀ p ∈ m.tlrReads [l], m.recOk p = true) →
    m.tlr.loops.all (fun e => !e.2.leaving) = true →
    ∃ t, exec (.tillerSample h) s = .next t ∧ (t.half h).loop l = { x with overrun := true, owed := none, seenMs := some ms } ∧
      (∀ n, n ≠ l → (t.half h).loop n = m.loop n) ∧ (∀ i n, n ≠ 24 → (t.half h).dw i n = m.dw i n) ∧
      (t.half h).tlrDue ms l = false ∧ (∀ k, k ≠ ms → x.seenMs ≠ some k → (t.half h).tlrDue k l = m.tlrDue k l) ∧ (t.half h).ptab = m.ptab ∧ (t.half h).tlr.jobs = m.tlr.jobs ∧
      (∃ late, (t.half h).arisen 0x0B02 l (ms % 2 ^ 32) late 0) ∧ (t.half h).rdB (pgIrqRaw 0x040) 1 = true

/-- NOP, NOTB, SETB, CLRB, LDB, ANDB, ORB, XORB, BPUSH, BPOPA, BPOPO and BPOPX (R192, R193, R194, Table 7.3): the logic instructions without a
stored operand. Each ends past its instruction; NOP does no more, NOTB, SETB and CLRB write LB, and LDB, ANDB, ORB and XORB combine LB with
their bit operand, which MOD bit 0 negates. BPUSH pushes LB while fewer than 16 entries stand; BPOPA, BPOPO and BPOPX pop a logic entry and
combine it with LB, which MOD bit 0 negates. Nothing else of the module changes. -/
def Obligations.DrillLogic : Prop :=
  (∀ (s : State) (h : HalfId) (e : Fin 8) (t : Nat), s.quiet h = true →
     let m := s.half h
     let x := m.past t
     let neg := (iMod (m.instr t)).testBit 0
     (m.fetches e.val 0x00 t = true → ∃ u, exec (.drlNop h e) s = .next u ∧ TaskOnly s u h t x) ∧
     (m.fetches e.val 0x18 t = true → ∃ u, exec (.drlNotb h e) s = .next u ∧ TaskOnly s u h t { x with lb := !x.lb }) ∧
     (m.fetches e.val 0x19 t = true → ∃ u, exec (.drlSetb h e) s = .next u ∧ TaskOnly s u h t { x with lb := true }) ∧
     (m.fetches e.val 0x1A t = true → ∃ u, exec (.drlClrb h e) s = .next u ∧ TaskOnly s u h t { x with lb := false }) ∧
     (∀ b, m.iBit t (m.instr t) = some b →
       (m.fetches e.val 0x10 t = true → ∃ u, exec (.drlLdb h e) s = .next u ∧ TaskOnly s u h t { x with lb := b != neg }) ∧
       (m.fetches e.val 0x11 t = true → ∃ u, exec (.drlAndb h e) s = .next u ∧ TaskOnly s u h t { x with lb := x.lb && (b != neg) }) ∧
       (m.fetches e.val 0x12 t = true → ∃ u, exec (.drlOrb h e) s = .next u ∧ TaskOnly s u h t { x with lb := x.lb || (b != neg) }) ∧
       (m.fetches e.val 0x13 t = true → ∃ u, exec (.drlXorb h e) s = .next u ∧ TaskOnly s u h t { x with lb := x.lb != (b != neg) }))) ∧
  (∀ (s : State) (h : HalfId) (e : Fin 8) (t : Nat), s.quiet h = true →
     let m := s.half h
     let x := m.past t
     let neg := (iMod (m.instr t)).testBit 0
     (x.stack.length < 16 → m.fetches e.val 0x14 t = true →
       ∃ u, exec (.drlBpush h e) s = .next u ∧ TaskOnly s u h t { x with stack := .logic x.lb :: x.stack }) ∧
     (∀ b l, x.stack = .logic b :: l →
       (m.fetches e.val 0x15 t = true →
         ∃ u, exec (.drlBpopa h e) s = .next u ∧ TaskOnly s u h t { x with stack := l, lb := b && (x.lb != neg) }) ∧
       (m.fetches e.val 0x16 t = true →
         ∃ u, exec (.drlBpopo h e) s = .next u ∧ TaskOnly s u h t { x with stack := l, lb := b || (x.lb != neg) }) ∧
       (m.fetches e.val 0x17 t = true →
         ∃ u, exec (.drlBpopx h e) s = .next u ∧ TaskOnly s u h t { x with stack := l, lb := b != (x.lb != neg) })))

/-- NEG, ABS, ADD, SUB, MUL, DIV and REM (R197): the integer instructions on ACC and a word operand. The exact result saturates to 64 bits
and sets V where it does; a division by zero leaves ACC 0 and sets V. Z and N show the result (R192). -/
def Obligations.DrillInteger : Prop :=
  ∀ (s : State) (h : HalfId) (e : Fin 8) (t : Nat), s.quiet h = true →
    let m := s.half h
    let x := m.past t
    let acc := x.acc.toInt
    let sat : Int → Dword := fun r => BitVec.ofInt 64 (max (-2 ^ 63) (min (2 ^ 63 - 1) r))
    let out : Int → Bool := fun r => decide (r < -2 ^ 63) || decide (2 ^ 63 - 1 < r)
    let res : Int → Task := fun r =>
      { x with acc := sat r, z := decide (sat r = 0), n := (sat r).getLsbD 63, v := x.v || out r }
    (m.fetches e.val 0x55 t = true → ∃ u, exec (.drlNeg h e) s = .next u ∧ TaskOnly s u h t (res (-acc))) ∧
    (m.fetches e.val 0x56 t = true → ∃ u, exec (.drlAbs h e) s = .next u ∧ TaskOnly s u h t (res acc.natAbs)) ∧
    (∀ w, m.iWord t (m.task t).pc (m.instr t) = some w →
      (m.fetches e.val 0x42 t = true → ∃ u, exec (.drlAdd h e) s = .next u ∧ TaskOnly s u h t (res (acc + w.toInt))) ∧
      (m.fetches e.val 0x43 t = true → ∃ u, exec (.drlSub h e) s = .next u ∧ TaskOnly s u h t (res (acc - w.toInt))) ∧
      (m.fetches e.val 0x44 t = true → ∃ u, exec (.drlMul h e) s = .next u ∧ TaskOnly s u h t (res (acc * w.toInt))) ∧
      (m.fetches e.val 0x45 t = true → ∃ u, exec (.drlDiv h e) s = .next u ∧
        TaskOnly s u h t (if w = 0 then { res 0 with v := true } else res (Int.tdiv acc w.toInt))) ∧
      (m.fetches e.val 0x46 t = true → ∃ u, exec (.drlRem h e) s = .next u ∧
        TaskOnly s u h t (if w = 0 then { res 0 with v := true } else res (Int.tmod acc w.toInt))))

/-- WAND, WOR, WXOR, SHL, SHR, ASR and CMP (R194, Table 7.3): the bitwise instructions, the shifts by their operand, and CMP, whose
condition is MOD bits 0 to 2 and which MOD bit 3 ANDs with LB. -/
def Obligations.DrillBitwise : Prop :=
  ∀ (s : State) (h : HalfId) (e : Fin 8) (t : Nat), s.quiet h = true →
    let m := s.half h
    let x := m.past t
    let d := iOpd (m.instr t)
    let res : Dword → Task := fun r => { x with acc := r, z := decide (r = 0), n := r.getLsbD 63 }
    (m.fetches e.val 0x4E t = true → ∃ u, exec (.drlShl h e) s = .next u ∧ TaskOnly s u h t (res (x.acc <<< d))) ∧
    (m.fetches e.val 0x4F t = true → ∃ u, exec (.drlShr h e) s = .next u ∧ TaskOnly s u h t (res (x.acc >>> d))) ∧
    (m.fetches e.val 0x50 t = true → ∃ u, exec (.drlAsr h e) s = .next u ∧ TaskOnly s u h t (res (x.acc.sshiftRight d))) ∧
    (∀ w, m.iWord t (m.task t).pc (m.instr t) = some w →
      (m.fetches e.val 0x4B t = true → ∃ u, exec (.drlWand h e) s = .next u ∧ TaskOnly s u h t (res (x.acc &&& w))) ∧
      (m.fetches e.val 0x4C t = true → ∃ u, exec (.drlWor h e) s = .next u ∧ TaskOnly s u h t (res (x.acc ||| w))) ∧
      (m.fetches e.val 0x4D t = true → ∃ u, exec (.drlWxor h e) s = .next u ∧ TaskOnly s u h t (res (x.acc ^^^ w))) ∧
      (m.fetches e.val 0x51 t = true → ∃ u, exec (.drlCmp h e) s = .next u ∧
        TaskOnly s u h t
          (let k := iMod (m.instr t)
           let lt := decide (x.acc.toInt < w.toInt)
           let eq := decide (x.acc = w)
           let c := match k % 8 with
             | 0 => eq
             | 1 => !eq
             | 2 => !lt && !eq
             | 3 => !lt
             | 4 => lt
             | _ => lt || eq
           { x with lb := if k.testBit 3 then x.lb && c else c })))

/-- LDW, STW, STB, SETIF, CLRIF, RISE and FALL (R194, R196, Table 7.3): LDW loads the word operand into ACC and
shows it in Z and N: of an input, output or local word MOD 0 takes the low 32 bits sign-extended, 1 all 64 bits,
2 the low 32 bits zero-extended, and 3 the binary32 in them, widened. STW stores ACC to a local word: MOD 1 all
of it, 0 its low 32 bits beside the high bits that stand, 2 and 3 32 bits zero-extended (3: ACC rounded to
binary32, with V for an infinity). STB writes LB to a bit operand, negated by MOD bit 0; SETIF and CLRIF write 1
and 0 where LB is 1 and nothing where it is 0; RISE and FALL keep LB in a marker and answer its edge. A forced
marker takes no write (R179). What the spec leaves open here is the model's choice (log entry 24). -/
def Obligations.DrillMoves : Prop :=
  (∀ (s : State) (h : HalfId) (e : Fin 8) (t : Nat), s.quiet h = true →
     let m := s.half h
     let x := m.past t
     let w := m.instr t
     (∀ v f, m.iLoad t (m.task t).pc w = some (v, f) → m.fetches e.val 0x40 t = true →
       ∃ u, exec (.drlLdw h e) s = .next u ∧
         TaskOnly s u h t { x with acc := v, z := decide (v = 0) || (f && decide (v.toNat = 2 ^ 63)), n := v.getLsbD 63 }) ∧
     (∀ v, iArea w = 0 ∨ iArea w = 1 ∨ iArea w = 5 → m.iWord t (m.task t).pc w = some v →
       m.iLoad t (m.task t).pc w = some
         (match iMod w with
          | 0 => (BitVec.ofInt 64 (sext 32 (v.toNat % 2 ^ 32)), false)
          | 1 => (v, false)
          | 2 => (BitVec.ofNat 64 (v.toNat % 2 ^ 32), false)
          | _ => (widen (v.toNat % 2 ^ 32), true))) ∧
     (∀ i, iArea w = 5 → iLoc (iOpd w) 0x3F = some i → m.fetches e.val 0x41 t = true →
       ∃ u, exec (.drlStw h e) s = .next u ∧
         TaskOnly s u h t
           (let old := (sget 0 x.locals i).toNat
            let put : Dword → Task := fun v => { x with locals := sset 0 x.locals i v }
            match iMod w with
            | 0 => put (BitVec.ofNat 64 (old - old % 2 ^ 32 + x.acc.toNat % 2 ^ 32))
            | 1 => put x.acc
            | 2 => put (BitVec.ofNat 64 (x.acc.toNat % 2 ^ 32))
            | 3 => { put (BitVec.ofNat 64 (narrow x.acc.toNat).1) with v := x.v || (narrow x.acc.toNat).2 }
            | _ => put (BitVec.ofNat 64 (x.acc.toNat % 2 ^ 32))))) ∧
  (∀ (s : State) (h : HalfId) (e : Fin 8) (t : Nat), s.quiet h = true →
     let m := s.half h
     let x := m.past t
     let w := m.instr t
     let d := iOpd w
     let put : Bool → Option Half := fun b =>
       match iArea w with
       | 1 => (m.iOutBit t d).map (fun p => (m.fetched t).setOutImg t p.1 (dbit (sget 0 x.outs p.1) p.2 b))
       | 2 => some ((m.fetched t).setMarker d b)
       | _ => (iLoc d 0).map (fun i => (m.fetched t).setLoc t i (dbit (sget 0 x.locals i) (d % 64) b))
     (∀ m1, put (x.lb != (iMod w).testBit 0) = some m1 → m.fetches e.val 0x1B t = true → exec (.drlStb h e) s = .next (s.set h m1)) ∧
     (∀ m1, put true = some m1 → m.fetches e.val 0x1C t = true →
       exec (.drlSetif h e) s = .next (s.set h (if x.lb then m1 else m.fetched t))) ∧
     (∀ m1, put false = some m1 → m.fetches e.val 0x1D t = true →
       exec (.drlClrif h e) s = .next (s.set h (if x.lb then m1 else m.fetched t))) ∧
     (m.fetches e.val 0x1E t = true →
       exec (.drlRise h e) s = .next (s.set h (((m.fetched t).setMarker d x.lb).setLb t (x.lb && !m.marker d)))) ∧
     (m.fetches e.val 0x1F t = true →
       exec (.drlFall h e) s = .next (s.set h (((m.fetched t).setMarker d x.lb).setLb t (m.marker d && !x.lb)))))

/-- FADD, FSUB, FMUL, FDIV, FCMP, ITF and FTI (R192, R197): the binary64 instructions. An infinite result becomes the largest finite number
of its sign and a NaN +0.0, and both set V; Z is set by a zero of either sign. FCMP makes only NE true of a NaN, and sets V; FTI rounds
ties away from zero and saturates. What FTI leaves in ACC for a NaN is a free value of the model (log entry 24). -/
def Obligations.DrillFloat : Prop :=
  ∀ (s : State) (h : HalfId) (e : Fin 8) (t : Nat), s.quiet h = true →
    let m := s.half h
    let x := m.past t
    let a := fdec f64 x.acc.toNat
    let put : Dword → Bool → Task := fun r v =>
      { x with acc := r, z := decide (r = 0) || decide (r.toNat = 2 ^ 63), n := r.getLsbD 63, v := x.v || v }
    let res : Fv → Task := fun r =>
      if r = .nan then put 0 true
      else
        let n := fenc f64 r
        if f64.infBits ≤ n % 2 ^ 63 then put (BitVec.ofNat 64 (f64.signed (n.testBit 63) f64.maxBits)) true
        else put (BitVec.ofNat 64 n) false
    let int : Dword → Bool → Task := fun r v => { x with acc := r, z := decide (r = 0), n := r.getLsbD 63, v := x.v || v }
    let sat : Int → Task := fun r =>
      int (BitVec.ofInt 64 (max (-2 ^ 63) (min (2 ^ 63 - 1) r))) (decide (r < -2 ^ 63) || decide (2 ^ 63 - 1 < r))
    (m.fetches e.val 0x53 t = true → ∃ u, exec (.drlItf h e) s = .next u ∧
      TaskOnly s u h t (let r : Dword := BitVec.ofNat 64 (fenc f64 (fint x.acc.toInt))
        { x with acc := r, z := decide (r = 0) || decide (r.toNat = 2 ^ 63), n := r.getLsbD 63 })) ∧
    (m.fetches e.val 0x54 t = true → ∃ u, exec (.drlFti h e) s = .next u ∧
      TaskOnly s u h t
        (match a with
         | .nan => int (Config.ftiNan x.acc) true
         | .inf neg => sat (if neg then -2 ^ 64 else 2 ^ 64)
         | .fin neg n k => sat (roundAway neg n k))) ∧
    (∀ w, m.iWord t (m.task t).pc (m.instr t) = some w →
      let b := fdec f64 w.toNat
      (m.fetches e.val 0x47 t = true → ∃ u, exec (.drlFadd h e) s = .next u ∧ TaskOnly s u h t (res (fadd a b))) ∧
      (m.fetches e.val 0x48 t = true → ∃ u, exec (.drlFsub h e) s = .next u ∧ TaskOnly s u h t (res (fsub a b))) ∧
      (m.fetches e.val 0x49 t = true → ∃ u, exec (.drlFmul h e) s = .next u ∧ TaskOnly s u h t (res (fmul a b))) ∧
      (m.fetches e.val 0x4A t = true → ∃ u, exec (.drlFdiv h e) s = .next u ∧ TaskOnly s u h t (res (fdiv a b))) ∧
      (m.fetches e.val 0x52 t = true → ∃ u, exec (.drlFcmp h e) s = .next u ∧
        TaskOnly s u h t
          (let k := iMod (m.instr t)
           let nan := decide (a = .nan) || decide (b = .nan)
           let c := if nan then decide (k % 8 = 1) else
             match k % 8 with
             | 0 => feq a b
             | 1 => !feq a b
             | 2 => !flt a b && !feq a b
             | 3 => !flt a b
             | 4 => flt a b
             | _ => flt a b || feq a b
           { x with lb := if k.testBit 3 then x.lb && c else c, v := x.v || nan })))

/-- TON, TOF, TP, TONR, TRST, CTU, CTD, CRST, CLD and CPV (R198, R199, R200, Table 7.4): the timer instructions. The preset, of the extension
word or of ACC, saturates to 0 to 2^31 − 1 with V; ET never stands above it; the time since the timer's last evaluation is 0 in the first
scan; LB takes DN. TRST clears the timer where LB is 1. CTU and CTD count the rising edges of LB, each with its own edge memory, stop at
their limit with Q set, and leave in LB whether CV has reached PV; CRST, CLD and CPV act where LB is 1, and a value outside 32 bits
saturates and sets Q and V. -/
def Obligations.DrillTimers : Prop :=
  (∀ (s : State) (h : HalfId) (e : Fin 8) (t : Nat), s.quiet h = true →
     let m := s.half h
     let x := m.past t
     let w := m.instr t
     let a := iOpd w
     a < 4096 →
     let p : Int := if (iMod w).testBit 2 then x.acc.toInt else (m.code ((m.task t).pc + 1)).toInt
     let pt : Nat := (max 0 (min (2 ^ 31 - 1) p)).toNat
     let old := { m.timer a with pt := pt, et := min (m.timer a).et pt }
     let delta := if x.first then 0 else x.relDt - (m.timer a).last
     let unit := match iMod w % 4 with | 0 => 1 | 1 => 10 | 2 => 100 | _ => 1000
     let done : Timer → State := fun y =>
       s.set h ((((m.fetched t).setTimer a { y with inLast := x.lb, last := x.relDt }).setV t
         (decide (p < 0) || decide (2 ^ 31 - 1 < p))).setLb t y.dn)
     (m.fetches e.val 0x80 t = true → exec (.drlTon h e) s = .next (done (old.ton x.lb delta unit))) ∧
     (m.fetches e.val 0x81 t = true → exec (.drlTof h e) s = .next (done (old.tof x.lb delta unit))) ∧
     (m.fetches e.val 0x82 t = true → exec (.drlTp h e) s = .next (done (old.tp x.lb delta unit))) ∧
     (m.fetches e.val 0x83 t = true → exec (.drlTonr h e) s = .next (done (old.tonr x.lb delta unit))) ∧
     (m.fetches e.val 0x84 t = true → exec (.drlTrst h e) s = .next (s.set h
       (if x.lb then (m.fetched t).setTimer a { m.timer a with et := 0, dn := false, rem := 0, run := false, armed := false }
        else m.fetched t)))) ∧
  (∀ (s : State) (h : HalfId) (e : Fin 8) (t : Nat), s.quiet h = true →
     let m := s.half h
     let x := m.past t
     let w := m.instr t
     let a := iOpd w
     a < 4096 →
     let c := m.counter a
     let done : Counter → State := fun y => s.set h (((m.fetched t).setCounter a y).setLb t (decide (y.pv.toInt ≤ y.cv.toInt)))
     let sat : Int → Word := fun r => BitVec.ofInt 32 (max (-2 ^ 31) (min (2 ^ 31 - 1) r))
     let out : Int → Bool := fun r => decide (r < -2 ^ 31) || decide (2 ^ 31 - 1 < r)
     let p : Int := if (iMod w).testBit 2 then x.acc.toInt else (m.code ((m.task t).pc + 1)).toInt
     (m.fetches e.val 0x88 t = true → exec (.drlCtu h e) s = .next (done
       (if x.lb && !c.edgeU then
         (if c.cv = 0x7FFFFFFF then { c with q := true, edgeU := x.lb } else { c with cv := c.cv + 1, edgeU := x.lb })
        else { c with edgeU := x.lb }))) ∧
     (m.fetches e.val 0x89 t = true → exec (.drlCtd h e) s = .next (done
       (if x.lb && !c.edgeD then
         (if c.cv = 0x80000000 then { c with q := true, edgeD := x.lb } else { c with cv := c.cv - 1, edgeD := x.lb })
        else { c with edgeD := x.lb }))) ∧
     (m.fetches e.val 0x8A t = true → exec (.drlCrst h e) s = .next (s.set h
       (if x.lb then (m.fetched t).setCounter a { c with cv := 0, q := false } else m.fetched t))) ∧
     (m.fetches e.val 0x8B t = true → exec (.drlCld h e) s = .next (s.set h
       (if x.lb then ((m.fetched t).setCounter a { c with cv := sat x.acc.toInt, q := c.q || out x.acc.toInt }).setV t (out x.acc.toInt)
        else m.fetched t))) ∧
     (m.fetches e.val 0x8C t = true → exec (.drlCpv h e) s = .next (s.set h
       (if x.lb then ((m.fetched t).setCounter a { c with pv := sat p, q := c.q || out p }).setV t (out p) else m.fetched t))))

/-- SPW, SDRV, SPULSE, SPROF and SEVT (R201): a sheaf instruction that stands at LB = 1 puts its action at the
end of the period's sheaf, while that holds fewer than 64 actions; at LB = 0 it does nothing. What the spec
leaves open here is the model's choice (log entries 21 and 22). -/
def Obligations.DrillSheafActions : Prop :=
  ∀ (s : State) (h : HalfId) (e : Fin 8) (t : Nat), s.quiet h = true →
    let m := s.half h
    let x := m.past t
    let w := m.instr t
    let d := iOpd w
    (m.periodActs t).length + x.acts.length < 64 →
    let add : Act → Task := fun a => { x with acts := if x.lb then x.acts ++ [a] else x.acts }
    let ext := (m.code ((m.task t).pc + 1)).toNat
    (m.fetches e.val 0xA1 t = true → ∃ u, exec (.drlSdrv h e) s = .next u ∧
      TaskOnly s u h t (add ⟨2, d, 0, BitVec.ofNat 64 (x.acc.toNat % 2 ^ 32), 0, [], 0, false⟩)) ∧
    (1 ≤ ext ∧ ext ≤ 60000 → m.fetches e.val 0xA2 t = true → ∃ u, exec (.drlSpulse h e) s = .next u ∧
      TaskOnly s u h t (add ⟨4, d, 0, BitVec.ofNat 64 ext, 0, [], 0, false⟩)) ∧
    (m.fetches e.val 0xA4 t = true → ∃ u, exec (.drlSevt h e) s = .next u ∧
      TaskOnly s u h t (add ⟨9, 0x09C0 + d, 0, x.acc, 0, [], 0, false⟩)) ∧
    (∀ i, m.iOut t d 0x3F = some i → ext < 64 → 1 ≤ ext % 32 ∧ ext % 32 ≤ 16 → m.fetches e.val 0xA0 t = true →
      ∃ u, exec (.drlSpw h e) s = .next u ∧
        TaskOnly s u h t (add ⟨1, (m.taskCfg t).outputs.getD i 0, ext, x.acc, 0, [], 0, false⟩)) ∧
    (∀ v, fdec f64 x.acc.toNat = v → v ≠ .nan → m.fetches e.val 0xA3 t = true → ∃ u, exec (.drlSprof h e) s = .next u ∧
      TaskOnly s u h t (let n := fenc f32 v
        { add ⟨3, d, 0, BitVec.ofNat 64 n, 0, [], 0, false⟩ with v := x.v || (x.lb && decide (f32.infBits ≤ n % 2 ^ 31)) }))

/-- JMP, JT, JF, CALL, RET, LOOP and END (R168, R193, R195, R202): the branches. A jump goes forward to an
instruction of the program, always, or where LB is 1 or 0; CALL pushes the address after it and RET pops one;
LOOP counts a local word down and branches back while it stands above 0. END of a scan that changes no output
and no retained page and added no action: the period is over without a sheaf. The task waits for its next
release, with its largest cost kept, its first scan past, and, where no release passed meanwhile, no consecutive
miss; no other half, and nothing of the Yoke, changes. What the spec leaves open here is the model's choice (log
entries 21 and 22). -/
def Obligations.DrillControl : Prop :=
  (∀ (s : State) (h : HalfId) (e : Fin 8) (t : Nat), s.quiet h = true →
     let m := s.half h
     let x := m.past t
     let w := m.instr t
     let pc := (m.task t).pc
     let tgt := fld w 0 17
     (pc < tgt → tgt < m.drl.active.codeLen → tgt ∉ m.drl.active.ext →
       (m.fetches e.val 0xC0 t = true → ∃ u, exec (.drlJmp h e) s = .next u ∧ TaskOnly s u h t { x with pc := tgt }) ∧
       (m.fetches e.val 0xC1 t = true → ∃ u, exec (.drlJt h e) s = .next u ∧
         TaskOnly s u h t { x with pc := if x.lb then tgt else x.pc }) ∧
       (m.fetches e.val 0xC2 t = true → ∃ u, exec (.drlJf h e) s = .next u ∧
         TaskOnly s u h t { x with pc := if x.lb then x.pc else tgt }) ∧
       (x.stack.length < 16 → m.fetches e.val 0xC3 t = true → ∃ u, exec (.drlCall h e) s = .next u ∧
         TaskOnly s u h t { x with stack := .call x.pc :: x.stack, pc := tgt })) ∧
     (∀ a l, x.stack = .call a :: l → m.fetches e.val 0xC4 t = true → ∃ u, exec (.drlRet h e) s = .next u ∧
       TaskOnly s u h t { x with stack := l, pc := a }) ∧
     (∀ i, iLoc (iOpd w) 0x3F = some i → (m.code (pc + 1)).toNat ≤ pc → (m.code (pc + 1)).toNat < m.drl.active.codeLen →
       (m.code (pc + 1)).toNat ∉ m.drl.active.ext → m.fetches e.val 0xC5 t = true →
       ∃ u, exec (.drlLoop h e) s = .next u ∧
         TaskOnly s u h t
           (let v := sget 0 x.locals i - 1
            { x with locals := sset 0 x.locals i v, pc := if 0 < v.toInt then (m.code (pc + 1)).toNat else x.pc }))) ∧
  (∀ (s : State) (h : HalfId) (e : Fin 8) (t : Nat), s.quiet h = true →
     let m := s.half h
     let x := m.past t
     x.stack = [] → m.periodActs t = [] → x.acts = [] → x.late = false → x.safe = 0 → 0 < (m.taskCfg t).limit →
     m.fetches e.val 0xC6 t = true →
     ∃ u, exec (.drlEnd h e) s = .next u ∧ u = s.set h (u.half h) ∧
       ((u.half h).task t).st = 1 ∧ ((u.half h).task t).first = false ∧ ((u.half h).task t).consec = 0 ∧
       ((u.half h).task t).maxs = max x.maxs x.steps ∧ (u.half h).drl.jobs = m.drl.jobs)

/-- REGISTER_WRITE, STAGING_WRITE, STAGED_WORD_DISCARD and RS_SNAPSHOT_READ (R38, R47, R53, R54, Table 2.12):
words of registers and of LPDDR. A write that passes the checks of Table 2.12 gives a register of one word
without a rule of its own the value written, of which reserved bits stay 0, and PG_GEN counts the change of a
configuration register; no other register changes. A core's 64-bit store to LPDDR writes exactly its eight
bytes. A word other than the low word of a multi-word register waits in the writer's staging buffer and leaves
the register as it is; a staged word that 256 further accesses have passed is discarded. A read of the low word
of an RS register answers the word as it stands and latches the register's other words for the reader; a later
read of one of these answers the latched word; and a core's load from LPDDR answers its bytes. What the spec
leaves open here is the model's choice (log entries 6 and 7). -/
def Obligations.WordAccesses : Prop :=
  ∀ (s : State) (h : HalfId) (r : Req) (k : Nat) (v : Word), k < 2 ^ 20 → s.reaches h r = true →
    let m := (s.half h).ageStaged (reqNum r)
    let s1 := s.set h m
    (k ∈ plainRegs → s.admits h r k v = true →
      let new := v &&& word (regBits k).2
      ∃ t, exec (.registerWrite h r (keyAddr k) 4 (dword v 0)) s = .next t ∧ (t.half h).rd k = new ∧
        (t.half h).rdN (pgGen (k / 4096)) =
          (if (regBits k).1 = true ∧ new ≠ (s.half h).rd k then ((s.half h).rdN (pgGen (k / 4096)) + 1) % 2 ^ 32
           else (s.half h).rdN (pgGen (k / 4096))) ∧
        (∀ j, j ≠ k → j ≠ pgGen (k / 4096) → (t.half h).rd j = (s.half h).rd j) ∧ (t.half h).answered r = ⟨0, 0⟩ ∧
        { t.half h with regs := (s.half h).regs, accs := (s.half h).accs } = s.half h) ∧
    (∀ (c : Fin 4) (addr : Nat) (d : Dword), r = .core c → 0x80000000 ≤ addr → addr + 8 ≤ 0xC0000000 →
      ∃ t, exec (.registerWrite h r addr 8 d) s = .next t ∧
        (∀ i, i < 8 → (t.half h).peek (addr + i) = BitVec.ofNat 8 (d.toNat / 256 ^ i)) ∧
        (∀ a, a < addr ∨ addr + 8 ≤ a → (t.half h).peek a = (s.half h).peek a) ∧ (t.half h).answered r = ⟨0, 0⟩ ∧
        (∀ j, (t.half h).rd j = (s.half h).rd j)) ∧
    (ownReq r = true → (m.checkWrite (reqClass r) k v).1 = 0 → regWritable k = true → (m.acc (reqNum r)).sheaf = none →
      m.heldByOther none k = false → (regShape k).1 ≠ k → 1 < (regShape k).2.1 →
      ∃ t, exec (.stagingWrite h r (keyAddr k) v) s = .next t ∧
        sfind ((t.half h).acc (reqNum r)).staged k = some ⟨v, 0⟩ ∧
        (∀ j, j ≠ k → sfind ((t.half h).acc (reqNum r)).staged j = sfind (m.acc (reqNum r)).staged j) ∧
        (∀ j, (t.half h).rd j = (s.half h).rd j) ∧ (t.half h).answered r = ⟨0, 0⟩) ∧
    (∀ w, sfind ((s.half h).acc (reqNum r)).staged k = some w → 256 ≤ w.age →
      ∃ t, exec (.stagedWordDiscard h r (keyAddr k)) s = .next t ∧ sfind ((t.half h).acc (reqNum r)).staged k = none ∧
        (∀ j, j ≠ k → sfind ((t.half h).acc (reqNum r)).staged j = sfind ((s.half h).acc (reqNum r)).staged j) ∧
        (∀ j, (t.half h).rd j = (s.half h).rd j)) ∧
    (∀ low words : Nat, ownReq r = true → rsShape k = some (low, words) → k % 4 = 0 → m.checkRead (reqClass r) k = (0, 0) →
      k / 4096 ∉ (m.acc (reqNum r)).pageSnaps →
      (k = low →
        ∃ t, exec (.rsSnapshotRead h r (keyAddr k) 4) s = .next t ∧
          (t.half h).answered r = ⟨0, dword (s1.live h (reqNum r) k) 0⟩ ∧
          (∀ i, 1 ≤ i → i < words →
            sfind ((t.half h).acc (reqNum r)).snaps (low + 4 * i) = some (s1.live h (reqNum r) (low + 4 * i))) ∧
          (∀ j, (t.half h).rd j = (s.half h).rd j)) ∧
      (∀ w, k ≠ low → sfind (m.acc (reqNum r)).snaps k = some w →
        ∃ t, exec (.rsSnapshotRead h r (keyAddr k) 4) s = .next t ∧ (t.half h).answered r = ⟨0, dword w 0⟩ ∧
          ((t.half h).acc (reqNum r)).snaps = (m.acc (reqNum r)).snaps ∧ (∀ j, (t.half h).rd j = (s.half h).rd j))) ∧
    (∀ (c : Fin 4) (addr : Nat), r = .core c → 0x80000000 ≤ addr → addr + 8 ≤ 0xC0000000 →
      ∃ t, exec (.rsSnapshotRead h r addr 8) s = .next t ∧
        (t.half h).answered r = ⟨0, BitVec.ofNat 64 (leNat ((s.half h).peekN addr 8))⟩ ∧
        (∀ a, (t.half h).peek a = (s.half h).peek a))

/-- WAKE_ON_ACCESS, WAKE_ACCESS_READY and WAKE_TIMEOUT (R57, R58): an access that waits for a page. A policy
core's or MGT's access, a store or a load, to a page that is not READY, with WAKE_ON_ACCESS set, wakes the page
and waits behind those that wait; the page that becomes READY is powered and no longer waking; at the time-out
the page is no longer waking, and no access waits for it. What the spec leaves open here is the model's choice
(log entries 3 and 7). -/
def Obligations.WakeOnAccess : Prop :=
  ∀ (s : State) (h : HalfId) (page : Nat),
    (∀ x : Access, s.reaches h x.req = true → inPages x.addr = true → page = (x.addr - 0x40000000) / 4096 →
      alignOk x.req x.addr x.size = true → (pageBlk page).isSome = true →
      (if x.write then (s.half h).rdB (pgAcl page) (8 + reqClass x.req) = true ∧ (s.half h).ready page = false
       else ((s.half h).checkRead (reqClass x.req) (x.addr - 0x40000000)).1 = 4) →
      (s.half h).mayStall x.req page = true →
      ∃ t, exec (.wakeOnAccess h x) s = .next t ∧ ((t.half h).page page).waking = true ∧ ((t.half h).page page).ready = false ∧
        (t.half h).stalled = (s.half h).stalled ++ [⟨x.req, x.addr, x.size, x.write, if x.write then x.value else 0⟩]) ∧
    (s.quiet h = true → ((s.half h).page page).waking = true → (∀ x ∈ (s.half h).stalled, x.addr / 4096 % 1024 ≠ page) →
      ∃ t, exec (.wakeAccessReady h page) s = .next t ∧
        (t.half h).page page = { (s.half h).page page with powered := true, ready := true, waking := false, retained := false } ∧
        (∀ p, p ≠ page → (t.half h).page p = (s.half h).page p) ∧ (∀ j, (t.half h).rd j = (s.half h).rd j)) ∧
    (s.quiet h = true → ((s.half h).page page).waking = true → (∀ x ∈ (s.half h).stalled, x.size ≠ 0) →
      ∃ t, exec (.wakeTimeout h page) s = .next t ∧
        (t.half h).page page = { (s.half h).page page with waking := false } ∧
        (t.half h).stalled = (s.half h).stalled.filter (fun x => decide (x.addr / 4096 % 1024 ≠ page)))

/-- SOFT_RESET, ERR_CLR, IRQ_CLEAR, SNAP_TAKE, SNAP_RELEASE, CLR_ACC_STAT, CLR_OFFLINE, MODULE_ADDR_WRITE and
RESTART (R43, R44, R48, R49, R69, R70, Table 2.16): the common header's and the system page's commands.
SOFT_RESET brings every register of the page from 0x040 upwards to its reset value; ERR_CLR clears PG_ERR;
PG_IRQ clears its bits, and those whose condition is still present set again; TAKE leaves a snapshot of the page
with the requester, and RELEASE none. CLR_ACC_STAT clears the records of the cores of its mask and no other
register; CLR_OFFLINE clears OFFLINE_WR_CNT alone; a permitted MODULE_ADDR takes effect in both halves; RESTART
withdraws the lease and makes a start with the cause SOFT due. What the spec leaves open here is the model's
choice (log entries 9, 36 and 78). -/
def Obligations.PageHeader : Prop :=
  (∀ (s : State) (h : HalfId) (r : Req) (page : Nat) (v : Word), ownReq r = true →
     (s.admits h r (pgCtrl page) (putFlag v 1 true) = true → alwaysOn page = false →
       (s.half h).inSheaf page = false → ((s.half h).rdB (pgLock page) 0 = false ∨ reqClass r = 1) →
       ∃ t, exec (.softReset h r page v) s = .next t ∧
         (∀ k, k / 4096 = page → 0x40 ≤ k % 4096 → keptKey k = false → cfgKey k = false → page ≠ 0x040 → t.rd h k = regReset k) ∧
         (page = 0x040 → t.rd h rTlrCtrl = regReset rTlrCtrl ∧ t.rd h rTlrMaxLate = 0 ∧ t.rd h rTlrLoopSel = 0) ∧
         (t.half h).answered r = ⟨0, 0⟩) ∧
     (flag v 1 = false → s.admits h r (pgCtrl page) (putFlag v 8 true) = true →
       ∃ t, exec (.errClr h r page v) s = .next t ∧ (t.half h).rd (pgErr page) = 0 ∧ (t.half h).answered r = ⟨0, 0⟩) ∧
     (s.admits h r (pgIrq page) v = true →
       ∃ t, exec (.irqClear h r page v) s = .next t ∧
         (t.half h).rd (pgIrqRaw page) = ((s.half h).rd (pgIrqRaw page) &&& ~~~ v) ||| (v &&& word (s.persist h page)) ∧
         (∀ k, k ≠ pgIrqRaw page → (t.half h).rd k = (s.half h).rd k) ∧ (t.half h).answered r = ⟨0, 0⟩) ∧
     (s.admits h r (pgSnap page) 1 = true → (s.half h).snapOk page = true →
       ∃ t, exec (.snapTake h r page) s = .next t ∧ page ∈ ((t.half h).acc (reqNum r)).pageSnaps ∧
         (∀ k, (t.half h).rd k = (s.half h).rd k) ∧ (t.half h).answered r = ⟨0, 0⟩) ∧
     (s.admits h r (pgSnap page) 2 = true →
       ∃ t, exec (.snapRelease h r page) s = .next t ∧ page ∉ ((t.half h).acc (reqNum r)).pageSnaps ∧
         (∀ k, (t.half h).rd k = (s.half h).rd k) ∧ (t.half h).answered r = ⟨0, 0⟩)) ∧
  (∀ (s : State) (h : HalfId) (r : Req),
     (∀ mask : BitVec 4, s.admits h r rSysCtrl (word (mask.toNat * 16)) = true →
       ∃ t, exec (.clrAccStat h r mask) s = .next t ∧
         (∀ c, c < 4 → mask.getLsbD c = true → (t.half h).rd (rSysAccStat c) = 0 ∧ (t.half h).rd (rSysAccAddr c) = 0) ∧
         (∀ k, (∀ c, c < 4 → mask.getLsbD c = true → k ≠ rSysAccStat c ∧ k ≠ rSysAccAddr c) → (t.half h).rd k = (s.half h).rd k)) ∧
     (s.admits h r rSysCtrl 1 = true →
       ∃ t, exec (.clrOffline h r) s = .next t ∧ (t.half h).rd rSysOfflineWrCnt = 0 ∧
         (∀ k, k ≠ rSysOfflineWrCnt → (t.half h).rd k = (s.half h).rd k)) ∧
     (∀ v, s.once h r = true → s.admits h r rSysModuleAddr v = true → fld v 0 16 ≠ 0 → fld v 0 16 ≠ 0xFFFF →
       fld v 0 16 ≠ (s.half h).addr → (s.half h).crossHeld = false → (s.half h).fost.self ≠ 2 → (s.half h).fost.self ≠ 3 →
       ((s.half h).fslot 0).st = 0 →
       ((s.half h).fslot 1).st = 0 →
       ∃ t, exec (.moduleAddrWrite h r v) s = .next t ∧ t.a.addr = fld v 0 16 ∧ t.b.addr = fld v 0 16 ∧ (t.half h).answered r = ⟨0, 0⟩) ∧
     (∀ cold, s.once h r = true → s.admits h r rSysCtrl (putFlag (putFlag 0 31 true) 30 cold) = true → s.yoke.pwr.pfw = false →
       s.yoke.granted = true →
       ∃ t, exec (.restart h r cold) s = .next t ∧ t.yoke.pwr.due = true ∧ t.yoke.pwr.causes = s.yoke.pwr.causes ||| 8 ∧
         t.yoke.pwr.cold = (s.yoke.pwr.cold || cold) ∧ t.yoke.holder = none ∧ t.yoke.relay = true))

/-- SESSION_IDLE_TIMEOUT, SESS_CLOSE, FLUSH_TENANT, TEN_BIND_WRITE, FENCE_CLR and PORTS_CLR (R93, R80, R105,
R107): sessions end, and the refusal counters clear. A session without an accepted request for its idle time
closes with event 0x0706; SESS.CLOSE closes the session it names and no other; FLUSH_TENANT closes exactly the
sessions of its tenant; a changed tenant binding closes every session of its port and forgets the requests that
wait for other modules; FENCE.CLR and PORTS.CLR clear their counters and no other register. What the spec leaves
open here is the model's choice (log entries 3, 45 and 79). -/
def Obligations.SessionsEnd : Prop :=
  ∀ (s : State) (h : HalfId) (r : Req) (v : Word),
    (∀ i : Fin 512,
      let x := (s.half h).ses i.val
      s.quiet h = true → x.isOpen = true → x.since + x.idle * oneSec ≤ (s.half h).up →
      ∃ t, exec (.sessionIdleTimeout i) s = .next t ∧ ((t.half h).ses i.val).isOpen = false ∧ ((t.half h).ses i.val).gen = x.gen ∧
        (t.half h).arisen 0x0706 (sessId i.val x) x.stamp.toNat x.idle x.subs) ∧
    (s.admits h r rSessClose v = true → ((s.half h).ses (v.toNat % 512)).isOpen = true →
      sessId (v.toNat % 512) ((s.half h).ses (v.toNat % 512)) = v.toNat % 2 ^ 16 →
      ∃ t, exec (.sessClose h r v) s = .next t ∧ ((t.half h).ses (v.toNat % 512)).isOpen = false ∧
        (∀ j, j ≠ v.toNat % 512 → ((t.half h).ses j).isOpen = ((s.half h).ses j).isOpen) ∧ (t.half h).answered r = ⟨0, 0⟩) ∧
    (s.admits h r rSessFlushTenant v = true → v.toNat ≠ 0 → v.toNat ≤ 63 →
      ∃ t, exec (.flushTenant h r v) s = .next t ∧
        (∀ i, stampClass ((s.half h).ses i).stamp = 2 → stampTenant ((s.half h).ses i).stamp = v.toNat →
          ((t.half h).ses i).isOpen = false) ∧
        (∀ i, ¬(stampClass ((s.half h).ses i).stamp = 2 ∧ stampTenant ((s.half h).ses i).stamp = v.toNat) →
          ((t.half h).ses i).isOpen = ((s.half h).ses i).isOpen) ∧
        (t.half h).answered r = ⟨0, 0⟩) ∧
    (∀ n : Fin 8, s.admits h r (rFenceTenBind n.val) v = true → ¬ (flag v 7 = true ∧ fld v 0 6 = 0) →
      v &&& 0xBF ≠ (s.half h).rd (rFenceTenBind n.val) →
      ∃ t, exec (.tenBindWrite h r n v) s = .next t ∧ (t.half h).rd (rFenceTenBind n.val) = v &&& 0xBF ∧
        (∀ i, stampPort ((s.half h).ses i).stamp = 8 + n.val → ((t.half h).ses i).isOpen = false) ∧
        (t.half h).fwds = (s.half h).fwds.filter (fun f => decide (f.req.port ≠ 8 + n.val)) ∧ (t.half h).answered r = ⟨0, 0⟩) ∧
    (s.admits h r rFenceClr v = true → flag v 0 = true →
      ∃ t, exec (.fenceClr h r v) s = .next t ∧ (t.half h).rd rFenceRefuseCnt = 0 ∧
        (∀ k, k ≠ rFenceRefuseCnt → (t.half h).rd k = (s.half h).rd k) ∧ (t.half h).answered r = ⟨0, 0⟩) ∧
    (s.admits h r rPortsClr v = true → flag v 0 = true →
      ∃ t, exec (.portsClr h r v) s = .next t ∧ (∀ i, i < 64 → (t.half h).rd (rPortsRefuse i) = 0) ∧
        (∀ k, (∀ i, i < 64 → k ≠ rPortsRefuse i) → (t.half h).rd k = (s.half h).rd k) ∧ (t.half h).answered r = ⟨0, 0⟩)

/-- READ_POINT, WRITE_POINT, SUBSCRIBE, UNSUBSCRIBE, READ_EVENTS and IPP_FREEZE (R95, R96, R84, R128, R512,
R513): what an IPP request does in the half that decides for it, with the response that it leaves for the port
it came by. READ_POINT answers the record of a visible point, and an empty entry with NOPOINT for one that is
not visible; WRITE_POINT writes the level of a commandable point that no force holds; SUBSCRIBE leaves an entry
in the point's chain; UNSUBSCRIBE takes the client's entry out of it (a request that names no record of damaged
CHECK, and asks for no CLOSE); READ_EVENTS answers the records from a sequence on; FREEZE freezes and releases
the recorder. What the spec leaves open here is the model's choice (log entries 41, 42, 45 and 79). -/
def Obligations.IppPointRequests : Prop :=
  ∀ (s : State) (q q1 : IppReq) (p i : Nat),
    let h := s.primary
    let m := s.half h
    let st := m.ippStamp q.port
    i < 0xFFFF → m.addr < 2 ^ 16 → m.heldAway i = false → m.recOk i = true → m.txPage q.port = some p →
    (s.ippTaken { q with op := 1 } = some q1 → q.payload = leBytes 4 1 ++ leBytes 4 (pointAddr m.addr i) →
      ∃ t, exec (.readPoint q) s = .next t ∧ (t.half h).queued p = m.queued p ++
        [if m.visible (m.tcOf i) st then ippResponse q1 0 0 (leBytes 4 1 ++ pointEntry (pointAddr m.addr i) 0 (m.pt i))
         else ippResponse q1 4 0 (leBytes 4 1 ++ emptyEntry (pointAddr m.addr i) 6)]) ∧
    (∀ (l : Nat) (v : Dword), s.ippTaken { q with op := 2 } = some q1 →
      q.payload = leBytes 4 1 ++ leBytes 4 (pointAddr m.addr i) ++ leBytes 4 l ++ leBytes 8 v.toNat →
      m.configured i = true → m.commandable i = true → m.forceOf i = none → recType (m.pt i) = 3 → m.fenceWrite (m.tcOf i) st l = 0 →
      1 ≤ l → l ≤ 16 → m.ptab.queue = [] → v.toNat < 2 ^ 32 →
      ∃ t, exec (.writePoint q) s = .next t ∧ (t.half h).valueAt i l = v ∧ l ∈ ((t.half h).prio i).occ ∧
        ippResponse q1 0 0 (leBytes 4 1 ++ ippStatus (pointAddr m.addr i) 0) ∈ (t.half h).queued p) ∧
    (∀ ms : Nat, s.ippTaken { q with op := 3 } = some q1 → q.flags.testBit 1 = false → ms < 2 ^ 16 →
      q.payload = leBytes 4 1 ++ leBytes 4 (pointAddr m.addr i) ++ leBytes 4 ms → m.configured i = true → m.visible (m.tcOf i) st = true →
      (m.chain i).all (fun e => match m.sub? e with | some x => decide (x.dest ≠ q1.session) | none => true) = true →
      (m.ses (q1.session % 512)).subs < 256 → (sfree m.ptab.subs 16384).isSome = true →
      ∃ t e x, exec (.subscribe q) s = .next t ∧ e ∈ (t.half h).chain i ∧ (t.half h).sub? e = some x ∧ x.kind = 0 ∧ x.point = i ∧
        x.dest = q1.session ∧ x.minNs = ms * oneMs ∧
        ippResponse q1 0 0 (leBytes 4 1 ++ ippStatus (pointAddr m.addr i) 0) ∈ (t.half h).queued p) ∧
    (∀ (e : Nat) (x : Sub), s.ippTaken { q with op := 4 } = some q1 → q.payload = leBytes 4 1 ++ leBytes 4 (pointAddr m.addr i) →
      m.chain i = [e] → m.sub? e = some x → x.point = i → x.kind = 0 → x.dest = q1.session → x.link = 0xFFFF → m.sub? 0xFFFF = none →
      ∃ t, exec (.unsubscribe q) s = .next t ∧ (t.half h).sub? e = none ∧ (t.half h).chain i = [] ∧
        ippResponse q1 0 0 (leBytes 4 1 ++ ippStatus (pointAddr m.addr i) 0) ∈ (t.half h).queued p) ∧
    (∀ (seq : Word) (n : Nat), s.ippTaken { q with op := 9 } = some q1 → q.payload = leBytes 4 seq.toNat ++ leBytes 4 n → n < 2 ^ 16 →
      ∃ t, exec (.readEvents q) s = .next t ∧ (t.half h).queued p = m.queued p ++ [ippResponse q1 0 0
        (leBytes 4 ((m.evFrom seq n).head?.elim seq.toNat (fun x => x.seq.toNat)) ++ leBytes 2 (m.evFrom seq n).length ++
          leBytes 2 m.evFrozen.toNat ++ (m.evFrom seq n).flatMap (fun x => x.bytes false))]) ∧
    (s.ippTaken { q with op := 10 } = some q1 →
      (q.payload = leBytes 4 1 →
        ∃ t, exec (.ippFreeze q) s = .next t ∧ (t.half h).evFrozen = true ∧ (t.half h).evr.recs = m.evr.recs) ∧
      (q.payload = leBytes 4 0 → ∃ t, exec (.ippFreeze q) s = .next t ∧ (t.half h).evFrozen = false))

/-- READ_PAGE, WRITE_PAGE, IPP_ACTIVATE and REMOTE_TIMEOUT (R97, R98, R488, R99): the requests for pages, the
activation, and the end of a request that other modules answer. READ_PAGE answers a word of a page of stored
registers; WRITE_PAGE writes SESS.SEL as a register write does, and answers OK and no failing word; ACTIVATE
that passes the checks of Table 20.7 begins the activation of its slot and version; REMOTE_TIMEOUT ends a
request that waits, and its response leaves with the entries as they stand. What the spec leaves open here is
the model's choice (log entries 38 and 42). -/
def Obligations.IppPageRequests : Prop :=
  ∀ (s : State) (q q1 : IppReq) (p : Nat),
    let h := s.primary
    let m := s.half h
    let st := m.ippStamp q.port
    m.addr < 2 ^ 16 → m.txPage q.port = some p → (s.view h).recov = false →
    (∀ page off : Nat, s.ippTaken { q with op := 6 } = some q1 → off % 4 = 0 → 0x40 ≤ off → off ≤ 0xFFC → page < 2 ^ 10 →
      q.payload = leBytes 4 (pointAddr m.addr page) ++ leBytes 4 (pointAddr off 1) →
      (pageBlk page).any (fun b => decide (b.1 = .fence) || decide (b.1 = .uiog) || decide (b.1 = .nvs) || decide (b.1 = .nci)) = true →
      (regRow (page * 4096 + off)).any (fun x => decide (x.1.acc = .rw) && !x.1.perAcc) = true →
      m.checkRead (stampClass st) (page * 4096 + off) = (0, 0) →
      ∃ t, exec (.readPage q) s = .next t ∧ (t.half h).queued p = m.queued p ++ [ippResponse q1 0 0
        (leBytes 4 (pointAddr m.addr page) ++ leBytes 4 (pointAddr off 1) ++ leBytes 4 (m.rd (page * 4096 + off)).toNat)]) ∧
    (∀ v : Word, s.ippTaken { q with op := 7 } = some q1 →
      q.payload = leBytes 4 (pointAddr m.addr 0x012) ++ leBytes 4 (pointAddr (rSessSel % 4096) 1) ++ leBytes 4 v.toNat →
      m.admits (.ipp st) rSessSel v = true → v.toNat ≤ 511 →
      ∃ t, exec (.writePage q) s = .next t ∧ (t.half h).rd rSessSel = v ∧ (t.half h).queued p = m.queued p ++ [ippResponse q1 0 0
        (leBytes 4 (pointAddr m.addr 0x012) ++ leBytes 4 (pointAddr (rSessSel % 4096) 1) ++ leBytes 4 0xFFFF)]) ∧
    (∀ (slot : Nat) (ver : Word), s.ippTaken { q with op := 11 } = some q1 → slot < 2 → q.payload = leBytes 4 slot ++ leBytes 4 ver.toNat →
      s.actCheck slot ver false (stampClass st) = 0 →
      ∃ t, exec (.ippActivate q) s = .next t ∧ t.yoke.act.phase ≠ 0 ∧ t.yoke.act.slot = slot ∧ t.yoke.act.ver = ver ∧
        t.yoke.act.stamp = st) ∧
    (∀ (id : Nat) (x : Forward), s.quiet h = true → m.fwds.find? (fun x => decide (x.id = id)) = some x → m.txPage x.req.port = some p →
      x.req.port ≠ 5 →
      ∃ t, exec (.remoteTimeout id) s = .next t ∧ (∀ z ∈ (t.half h).fwds, z ≠ x) ∧ (t.half h).queued p = m.queued p ++
        [if x.req.op ≤ 4 then ippResponse x.req (if x.body.any (fun e => decide (leAt e 4 1 ≠ 0)) then 4 else 0) x.status
           (leBytes 2 x.body.length ++ [0, 0] ++ x.body.flatten)
         else ippResponse x.req 0 x.status x.body.flatten])

/-- PTAB_WRITE_SUBMIT, POINT_WRITE_APPLY, REPEAT_INTERVAL_END, NOTIFY_INTERVAL_END, COV_EN_WRITE and
SOURCE_STALE (R120 to R122, R124, R125, R128, R131): writes of points and what follows them. PTAB.WR0 puts a
write into the engine's queue, PENDING; the engine applies the oldest: at a level of a commandable point, which
then holds the value of its ruling level, or as the value of another point. At the end of its repeat interval a
waiting binding issues, unless the value is the one last issued; at the end of its minimum interval a held
notification is sent; COV_EN at 0 leaves none held, and at 1 every reference takes its point's value; a stale
source sets STALE and clears GOOD. What the spec leaves open here is the model's choice (log entries 16 and 68). -/
def Obligations.PointWrites : Prop :=
  ∀ (s : State) (h : HalfId) (r : Req),
    let m := s.half h
    let n := reqNum r
    (∀ v : Word, s.admits h r rPtabWr v = true → (m.acc n).sheaf = none → fld v 16 5 ≤ 17 →
      ∃ t w, exec (.ptabWriteSubmit h r v) s = .next t ∧ (t.half h).ptab.queue = m.ptab.queue ++ [w] ∧ w.point = fld v 0 16 ∧
        w.level = fld v 16 5 ∧ w.relinq = flag v 24 ∧ w.stamp = reqStamp r ∧
        w.value = (let ws := (m.ageStaged n).stWords n rPtabWr 3 v; dword (ws.getD 1 0) (ws.getD 2 0)) ∧ (t.half h).view n rPtabWrStat = 0xFFFF ∧
        (t.half h).ptab.recs = m.ptab.recs ∧ (t.half h).answered r = ⟨0, 0⟩) ∧
    (∀ (w : PWrite) (ws : List PWrite) (v : Dword), s.quiet h = true → m.ptab.queue = w :: ws → m.queuedFence w = 0 →
      m.configured w.point = true → m.recOk w.point = true → m.forceOf w.point = none →
      normalise (recType (m.pt w.point)) w.value = some v → w.relinq = false → 1 ≤ w.level →
      (m.commandable w.point = true → w.level ≤ 17 →
        ∃ t, exec (.pointWriteApply h) s = .next t ∧ (t.half h).valueAt w.point w.level = v ∧
          (w.level ≤ 16 → w.level ∈ ((t.half h).prio w.point).occ) ∧
          ((t.half h).pt w.point).value = (t.half h).valueAt w.point ((t.half h).activeLevel w.point) ∧
          ((t.half h).pt w.point).level.toNat = (t.half h).activeLevel w.point % 256) ∧
      (m.commandable w.point = false → w.level ≤ 16 → (w.fromSource = true ∨ (m.pt w.point).srcBind = 0xFFFF) →
        ∃ t, exec (.pointWriteApply h) s = .next t ∧ ((t.half h).pt w.point).value = v ∧ ((t.half h).pt w.point).level = 17 ∧
          ((t.half h).pt w.point).time = w.time.getD m.tai)) ∧
    (∀ b : Nat, s.quiet h = true → (m.outOf b).wait = true → (m.outOf b).lastAt + bTiming (m.outDesc b) * oneMs ≤ m.up →
      m.recOk (bPoint (m.outDesc b)) = true → 1 ≤ bKind (m.outDesc b) → bKind (m.outDesc b) ≤ 6 →
      ∃ t, exec (.repeatIntervalEnd h b) s = .next t ∧ ((t.half h).outOf b).wait = false ∧
        ((t.half h).outOf b).lastRaw = some (m.pt (bPoint (m.outDesc b))).value ∧
        ((m.outOf b).lastRaw = some (m.pt (bPoint (m.outDesc b))).value → (t.half h).sent = m.sent ∧ (t.half h).uio = m.uio)) ∧
    (∀ (e : Nat) (x : Sub), s.quiet h = true → m.covEn = true → m.sub? e = some x → x.held = true → m.passed x.lastAt x.minNs = true →
      m.recOk x.point = true →
      ∃ t, exec (.notifyIntervalEnd h e) s = .next t ∧ (t.half h).sub? e = some { x with lastAt := some m.up, held := false }) ∧
    (∀ v : Word, s.admits h r rPtabCtrl v = true →
      (m.covEn = true → flag v 0 = false →
        ∃ t, exec (.covEnWrite h r v) s = .next t ∧ (t.half h).covEn = false ∧ (∀ e x, (t.half h).sub? e = some x → x.held = false) ∧
          (t.half h).answered r = ⟨0, 0⟩) ∧
      (m.covEn = false → flag v 0 = true →
        ∃ t, exec (.covEnWrite h r v) s = .next t ∧ (t.half h).covEn = true ∧
          (∀ i, sfind (t.half h).ptab.covRef i = (sfind m.ptab.covRef i).map (fun _ => (m.pt i).value)) ∧
          (t.half h).answered r = ⟨0, 0⟩)) ∧
    (∀ b : Nat, s.quiet h = true → bEn (m.srcDesc b) = true → bTiming (m.srcDesc b) ≠ 0 → m.configured (bPoint (m.srcDesc b)) = true →
      (m.pt (bPoint (m.srcDesc b))).quality.getLsbD 1 = false →
      ∃ t, exec (.sourceStale h b) s = .next t ∧ ((t.half h).pt (bPoint (m.srcDesc b))).quality.getLsbD 1 = true ∧
        ((t.half h).pt (bPoint (m.srcDesc b))).quality.getLsbD 0 = false ∧
        (t.half h).arisen 0x0807 (bPoint (m.srcDesc b)) b (bTiming (m.srcDesc b)) 0)

/-- CONFIGURE, DECONFIGURE, RELINQUISH_ALL, PTAB_CFG_WRITE, PTAB_COV_WRITE, BINDING_COMMIT, REFLEX_BIND_COMMIT
and PTAB_CLR (R126, R132, R134, R136, R295, R299): the point table's configuration. CONFIGURE, DECONFIGURE and
RELINQUISH_ALL act on the point in PTAB.SEL; CFG and COV write its class bits and its increment; a binding
descriptor that passes its checks is held by its point, in place of the one before; a reflex binding that passes
its checks is stored with its TARGET and DRIVE; CLR clears the check counter. In both bindings a word that is
not staged is the one held before, and reserved bits stay 0. What the spec leaves open here is the model's
choice (log entries 15, 17, 46 and 68). -/
def Obligations.PointConfiguration : Prop :=
  ∀ (s : State) (h : HalfId) (r : Req) (v : Word),
    let m := s.half h
    let n := reqNum r
    let i := m.selPoint
    let c := m.view n rPtabCfg
    (s.admits h r rPtabCmd 1 = true → i < 0xFFFF → fld c 28 4 < 10 → (fld c 11 1 = 1 → i < 0x4000) →
      m.forceOf i = none → (m.prio i).outb = 0xFFFF →
      ∃ t, exec (.configure h r) s = .next t ∧ (t.half h).configured i = true ∧
        ((t.half h).pt i).typeUnit.toNat = fld c 16 16 ∧ ((t.half h).pt i).tc.toNat = fld c 0 16 ||| 0x8000 ∧
        ((t.half h).pt i).value = (if fld c 11 1 = 1 then m.valueAt i 17 else 0) ∧ ((t.half h).pt i).level = 17 ∧
        ((t.half h).pt i).quality = 0x80 ∧ ((t.half h).pt i).srcBind = (if m.configured i then (m.pt i).srcBind else 0xFFFF) ∧ ((t.half h).prio i).occ = [] ∧
        (t.half h).rd rPtabCmdStat = 0 ∧ (t.half h).answered r = ⟨0, 0⟩) ∧
    (s.admits h r rPtabCmd 2 = true → m.configured i = true → (m.pt i).srcBind = 0xFFFF → (m.prio i).outb = 0xFFFF →
      m.forceOf i = none → m.reflexOn i = false →
      ∃ t, exec (.deconfigure h r) s = .next t ∧ (t.half h).pt i = recReset ∧ (t.half h).prio i = prioReset ∧
        (t.half h).rd rPtabCmdStat = 0 ∧ (t.half h).answered r = ⟨0, 0⟩) ∧
    (s.admits h r rPtabCmd 3 = true → m.configured i = true → m.commandable i = true → m.forceOf i = none → (m.prio i).occ ≠ [] →
      ∃ t, exec (.relinquishAll h r) s = .next t ∧ ((t.half h).prio i).occ = [] ∧ ((t.half h).pt i).value = m.valueAt i 17 ∧
        ((t.half h).pt i).level = 17 ∧ (t.half h).rd rPtabCmdStat = 0 ∧ (t.half h).answered r = ⟨0, 0⟩) ∧
    (s.admits h r rPtabCfg v = true → m.configured i = true →
      ∃ t, exec (.ptabCfgWrite h r v) s = .next t ∧ (t.half h).view n rPtabCfg = v &&& 0xFFFF0FFF ∧
        ((t.half h).pt i).tc = ((m.pt i).tc &&& 0xF800) ||| (BitVec.ofNat 16 (fld v 0 11)) ∧ (t.half h).answered r = ⟨0, 0⟩) ∧
    (s.admits h r rPtabCov v = true → m.configured i = true →
      ∃ t, exec (.ptabCovWrite h r v) s = .next t ∧ fld ((t.half h).pt i).cov 0 16 = fld v 0 16 ∧
        fld ((t.half h).pt i).cov 16 16 = fld (m.pt i).cov 16 16 ∧ (t.half h).answered r = ⟨0, 0⟩) ∧
    (let g := m.ageStaged n
     let out := m.rdB rPtabBindSel 15
     let b := m.rdF rPtabBindSel 0 15
     let ws := maskWords (bindBits out) (v :: (List.range 7).map (fun j =>
       (g.stagedWord n (rPtabBind + 4 * (j + 1))).getD ((m.bindDesc out b).getD (j + 1) 0)))
     s.admits h r rPtabBind v = true → (out = true → b < 16384) → (m.bindCheck out b ws).1 = 0 →
      ∃ t, exec (.bindingCommit h r v) s = .next t ∧ (t.half h).bindDesc out b = (if bKind ws = 0 then [] else ws) ∧
        (bKind ws ≠ 0 → if out then ((t.half h).prio (bPoint ws)).outb = b else ((t.half h).pt (bPoint ws)).srcBind.toNat = b) ∧
        (t.half h).answered r = ⟨0, 0⟩) ∧
    (let g := m.ageStaged n
     let k := m.rdF rRfxBindSel 0 10
     let ws := maskWords [0xFF1FFFFF, 0xFFFF] (v :: (List.range 5).map (fun j =>
       (g.stagedWord n (rRfxBind + 4 * (j + 1))).getD ((m.reflex k).words.getD (j + 1) 0)))
     s.admits h r rRfxBind v = true → m.reflexCheck k ws = 0 →
      ∃ t, exec (.reflexBindCommit h r v) s = .next t ∧ ((t.half h).reflex k).words = m.reflexAim ws ∧
        ((t.half h).reflex k).words.take 6 = ws ∧ (t.half h).view n rRfxBindStat = 0 ∧ (t.half h).answered r = ⟨0, 0⟩) ∧
    (s.admits h r rPtabClr v = true → flag v 0 = true →
      ∃ t, exec (.ptabClr h r v) s = .next t ∧ (t.half h).rd rPtabCheckCnt = 0 ∧
        (∀ k, k ≠ rPtabCheckCnt → (t.half h).rd k = m.rd k) ∧ (t.half h).answered r = ⟨0, 0⟩)

/-- SHF_OPEN, SHEAF_ADD, SHF_ABORT, SHF_COMMIT, SHEAF_OPEN_TIMEOUT, JOURNAL_WAIT_TIMEOUT, MSG_DEFERRED and
IPP_SHEAF (R139 to R143, R145 to R149, R161): the sheaves of accessors. OPEN takes a slot; ADD puts an action
that passes its check at the end of the accessor's sheaf, with the accessor's stamp; ABORT, and the open
time-out after OPEN_MS, free the slot; COMMIT of a sheaf of local EVENT actions commits it under the next sheaf
sequence, and its events arise; a commit that has waited 1 ms for journal pages aborts; a message that has not
left counts as applied; an IPP SHEAF of one EVENT action commits, and its response says so. What the spec leaves
open here is the model's choice (log entries 18, 19 and 70). -/
def Obligations.SheafCommands : Prop :=
  ∀ (s : State) (h : HalfId) (r : Req) (v : Word) (slot : Fin 32),
    let m := s.half h
    let n := reqNum r
    let i := slot.val
    let x := m.slot i
    (s.admits h r rShfOpen v = true → flag v 0 = true → (m.acc n).sheaf = none → m.freeSlot = some i →
      ∃ t, exec (.shfOpen h r v) s = .next t ∧ ((t.half h).slot i).state = 1 ∧ ((t.half h).slot i).owner = n ∧
        ((t.half h).slot i).acts = [] ∧ ((t.half h).acc n).sheaf = some i ∧ (t.half h).view n rShfStat = shfStatWord true i 1 0 0 ∧
        (t.half h).answered r = ⟨0, 0⟩) ∧
    (let g := m.ageStaged n
     let w (j : Nat) : Word := (g.stagedWord n (rShfAdd + 4 * j)).getD 0
     let md := fld (w 3) 0 16
     let a : Act := ⟨fld v 20 4, fld v 0 16, fld v 24 8, dword (w 1) (w 2), if md = m.addr then 0 else md,
       if fld v 20 4 = 8 then m.gBuf n else [], reqStamp r, false⟩
     s.admits h r rShfAdd v = true → (m.acc n).sheaf = some i → g.actCheck (s.view h) i a = 0 →
      ∃ t, exec (.sheafAdd h r v) s = .next t ∧ ((t.half h).slot i).acts = x.acts ++ [a] ∧
        (∀ j, 1 ≤ j → j ≤ 3 → sfind ((t.half h).acc n).staged (rShfAdd + 4 * j) = none) ∧ (t.half h).answered r = ⟨0, 0⟩) ∧
    (s.admits h r rShfAbort v = true → flag v 0 = true → (m.acc n).sheaf = some i → x.owner = n → x.state = 1 → x.firstPg = 0 →
      x.rsp = none →
      ∃ t, exec (.shfAbort h r v) s = .next t ∧ (t.half h).slot i = slotReset ∧ ((t.half h).acc n).sheaf = none ∧
        (t.half h).view n rShfStat = shfStatWord false i 5 1 x.acts.length ∧ (t.half h).answered r = ⟨0, 0⟩) ∧
    (∀ f : Nat, s.admits h r rShfCommit v = true → flag v 0 = true → (m.acc n).sheaf = some i → x.owner = n → x.state = 1 →
      x.isCoord = false → x.cross = false → x.rsp = none → x.waitAt = none →
      (∀ a ∈ x.acts, a.kind = 9 ∧ a.module_ = 0) → m.sheavesIdle = true → s.yoke.pwr.pfw = false → m.grn.frozen = false →
      m.jPlace (jNeed x.acts.length) = some f → (∀ z ∈ m.uio.held, z.owner ≠ i) →
      ∃ t, exec (.shfCommit h r v) s = .next t ∧ (t.half h).slot i = slotReset ∧ (t.half h).shfSeq = (m.shfSeq + 1) % 2 ^ 32 ∧
        (t.half h).view n rShfSeq = word (m.shfSeq + 1) ∧ (t.half h).view n rShfStat = shfStatWord false i 4 0 x.acts.length ∧
        (∀ e ∈ x.acts.zipIdx, (t.half h).arisen e.1.target (loWord e.1.value).toNat (hiWord e.1.value).toNat
          ((m.shfSeq + 1) % 2 ^ 32) e.2) ∧
        (t.half h).answered r = ⟨0, 0⟩) ∧
    (s.quiet h = true → x.state = 1 → i ∉ m.shf.cq → x.openedAt + m.rdF rShfCtrl 0 16 * oneMs ≤ m.up → x.owner ≤ 5 → x.firstPg = 0 → x.rsp = none →
      ∃ t, exec (.sheafOpenTimeout h slot) s = .next t ∧ (t.half h).slot i = slotReset ∧ (t.half h).arisen 0x0901 i 3 0xFF 0) ∧
    (∀ since : Nat, s.quiet h = true → x.waitAt = some since → since + oneMs ≤ m.up → x.state = 1 → m.shf.cq = [i] → m.tlr.jobs = [] →
      m.drl.jobs = [] → x.owner ≤ 5 →
      x.firstPg = 0 → x.rsp = none →
      ∃ t, exec (.journalWaitTimeout h slot) s = .next t ∧ (t.half h).slot i = slotReset ∧ (t.half h).shf.cq = [] ∧
        (t.half h).arisen 0x0901 i 5 0xFF 0) ∧
    (∀ (k j : Nat) (a b : Act), s.quiet h = true → x.state = 3 → x.locals[k]? = some a → a.applied = false → isMsg a = true →
      x.locals[j]? = some b → b.applied = false → j ≠ k → m.grn.frozen = false → m.sheavesIdle = true →
      ∃ t, exec (.msgDeferred h slot k) s = .next t ∧ (((t.half h).slot i).locals[k]?.map (·.applied)) = some true ∧
        (((t.half h).slot i).locals[j]?.map (·.applied)) = some false ∧ ((t.half h).slot i).state = 3 ∧
        (t.half h).arisen 0x0905 x.seq.toNat k a.kind a.target) ∧
    (∀ (q q1 : IppReq) (p target f : Nat) (d : Dword), h = s.primary → s.ippTaken { q with op := 8 } = some q1 →
      q.payload = leBytes 4 1 ++ leBytes 4 0 ++ leBytes 2 m.addr ++ [9, 0] ++ leBytes 4 target ++ leBytes 8 d.toNat →
      m.addr < 2 ^ 16 → 0x09C0 ≤ target → target ≤ 0x09FF → stampClass (m.ippStamp q.port) ≠ 2 → m.freeSlot = some i →
      m.sheavesIdle = true → m.grn.frozen = false → m.jPlace 1 = some f → (∀ z ∈ m.uio.held, z.owner ≠ i) →
      m.txPage q.port = some p →
      ∃ t, exec (.ippSheaf q) s = .next t ∧ (t.half h).shfSeq = (m.shfSeq + 1) % 2 ^ 32 ∧
        (t.half h).arisen target (loWord d).toNat (hiWord d).toNat ((m.shfSeq + 1) % 2 ^ 32) 0 ∧
        (t.half h).queued p = m.queued p ++
          [ippResponse q1 0 0 (leBytes 4 ((m.shfSeq + 1) % 2 ^ 32) ++ [3, 0, 0xFF, 0] ++ leBytes 2 0 ++ [0, 0])])

/-- MZ_PREPARE_RECEIVE, MZ_VOTE_RECEIVE, SHEAF_DEADLINE, MZ_COMMIT_RECEIVE, MZ_ABORT_RECEIVE, MZ_ACK_RECEIVE,
COMMIT_REPEAT, COORDINATOR_ORPHAN, OUTCOME_QUERY, PARTICIPANT_ORPHANED and MZ_OUTCOME_RECEIVE (R155 to R160):
sheaves over several modules. A participant that can take part in a PREPARE of one EVENT action votes YES; the
coordinator counts the votes, and decides with the last; past its deadline it aborts, and every participant is
told; COMMIT and ABORT reach the participant, which acknowledges; acknowledgements are marked; COMMIT repeats to
the silent; after ORPHAN_S the coordinator goes on with event 0x0907 for each silent participant; the
participant asks for the outcome, is answered, and after ORPHAN_S gives up with event 0x0906. What the spec
leaves open here is the model's choice (log entries 18, 70 and 71). -/
def Obligations.CrossModuleSheaves : Prop :=
  ∀ (s : State) (h : HalfId) (slot : Fin 32) (f : MzFrame) (p : Nat),
    let m := s.half h
    let i := slot.val
    let x := m.slot i
    let seq := mzWord f 0
    s.quiet h = true → s.ringOpen h p = true → m.sheavesIdle = true →
    (∀ (target place : Nat) (d : Dword), f.dest = m.addr → m.partSlot f.src seq = none → m.freeSlot = some i →
      m.tai.toNat ≤ leAt f.payload 4 8 → leAt f.payload 12 1 = 1 →
      f.payload.drop 16 = [9, 0] ++ leBytes 2 target ++ leBytes 8 d.toNat → 0x09C0 ≤ target → target ≤ 0x09FF →
      stampClass f.stamp ≠ 2 → s.yoke.pwr.pfw = false → m.grn.frozen = false → m.jPlace 1 = some place →
      ∃ t, exec (.mzPrepareReceive f) s = .next t ∧ ((t.half h).slot i).state = 2 ∧ ((t.half h).slot i).owner = 17 ∧
        ((t.half h).slot i).coord = f.src ∧ ((t.half h).slot i).coordSeq = seq ∧ ((t.half h).slot i).acts.length = 1 ∧
        originates s t h p f.src 0x21 (leBytes 4 seq.toNat ++ [1, 0, 0xFF, 0])) ∧
    (m.mzMine f = true → m.coordSlot seq = some i → x.state = 2 → leAt f.payload 4 1 = 1 → m.tai.toNat ≤ x.deadline.toNat →
      x.parts.any (fun q => decide (q.addr = f.src)) = true →
      (x.parts.any (fun q => decide (q.addr ≠ f.src) && !q.voted) = true →
        ∃ t, exec (.mzVoteReceive f) s = .next t ∧ ((t.half h).slot i).state = 2 ∧
          ((t.half h).slot i).parts = x.parts.map (fun q => if q.addr = f.src then { q with voted := true } else q)) ∧
      (x.parts.all (fun q => decide (q.addr = f.src) || q.voted) = true → x.owner ≤ 5 →
        ∃ t, exec (.mzVoteReceive f) s = .next t ∧ ((t.half h).slot i).state ≠ 2)) ∧
    (x.state = 2 → x.isCoord = true → x.deadline.toNat < m.tai.toNat → x.owner ≤ 5 → x.rsp = none →
      ∃ t, exec (.sheafDeadline h slot) s = .next t ∧ (t.half h).slot i = slotReset ∧ (t.half h).arisen 0x0901 i 7 0xFF 0 ∧
        (∀ q ∈ x.parts, q.acked = false → originates s t h p q.addr 0x23 (leBytes 4 x.coordSeq.toNat ++ leBytes 4 0))) ∧
    (m.mzMine f = true → m.partSlot f.src seq = some i → x.owner = 17 →
      (x.state = 2 → x.isCoord = false → m.grn.frozen = false → ∃ t, exec (.mzCommitReceive f) s = .next t ∧ ((t.half h).slot i).state ≠ 2) ∧
      (x.state = 3 → ∃ t, exec (.mzCommitReceive f) s = .next t ∧ (t.half h).shf = m.shf ∧
        originates s t h p f.src 0x24 (leBytes 4 seq.toNat ++ leBytes 4 x.seq.toNat)) ∧
      (x.state = 2 → x.isCoord = false → x.rsp = none → ∃ t, exec (.mzAbortReceive f) s = .next t ∧ (t.half h).slot i = slotReset ∧
        originates s t h p f.src 0x24 (leBytes 4 seq.toNat ++ leBytes 4 0))) ∧
    (m.mzMine f = true → m.coordSlot seq = some i → x.state = 3 → x.isCoord = true → m.shf.aborts = [] →
      x.parts.any (fun q => decide (q.addr ≠ f.src) && !q.acked) = true →
      ∃ t, exec (.mzAckReceive f) s = .next t ∧
        ((t.half h).slot i).parts = x.parts.map (fun q => if q.addr = f.src then { q with acked := true } else q)) ∧
    (x.state = 3 → x.isCoord = true → m.shf.aborts = [] →
      (∃ t, exec (.commitRepeat h slot) s = .next t ∧
        (∀ q ∈ x.parts, q.acked = false → originates s t h p q.addr 0x22 (leBytes 4 x.coordSeq.toNat ++ leBytes 4 0))) ∧
      (x.owner ≤ 5 → x.votedAt + m.rdF rShfCtrl 24 8 * oneSec ≤ m.up → x.locals.all (·.applied) = true →
        ∃ t, exec (.coordinatorOrphan h slot) s = .next t ∧
        (t.half h).slot i = slotReset ∧ (∀ q ∈ x.parts, q.acked = false → (t.half h).arisen 0x0907 q.addr x.seq.toNat 0 0))) ∧
    (x.state = 2 → x.owner = 17 →
      (∃ t, exec (.outcomeQuery h slot) s = .next t ∧ originates s t h p x.coord 0x25 (leBytes 4 x.coordSeq.toNat ++ [0, 0, 0, 0])) ∧
      (x.isCoord = false → x.votedAt + m.rdF rShfCtrl 24 8 * oneSec ≤ m.up → x.rsp = none →
        ∃ t, exec (.participantOrphaned h slot) s = .next t ∧ (t.half h).slot i = slotReset ∧
        (t.half h).arisen 0x0906 x.coord x.coordSeq.toNat x.seq.toNat 0)) ∧
    (m.mzMine f = true → leAt f.payload 4 1 = 0 →
      ∃ t, exec (.mzOutcomeReceive f) s = .next t ∧ (t.half h).shf = m.shf ∧
        originates s t h p f.src 0x25 (leBytes 4 seq.toNat ++ [BitVec.ofNat 8 (m.outcomeOf seq), 0, 0, 0])) ∧
    (m.mzMine f = true → leAt f.payload 4 1 = 2 → m.partSlot f.src seq = some i → x.state = 2 → x.owner = 17 → x.isCoord = false → x.rsp = none →
      ∃ t, exec (.mzOutcomeReceive f) s = .next t ∧ (t.half h).slot i = slotReset)

/-- TASK_RELEASE, SAFE_STATE_RETRY, RESUME, STOP, START, CLR_STATS, DRILL_RUN_WRITE and DRL_CLR (R165 to R174,
R180, R187, R188): Drill tasks. A release that is due takes the input image of a task that waits, or holds it
while an exchange drains, and counts a miss of one that has not finished; the task commands act on the task of
DRLC.TASK_SEL: RESUME makes a FAULTED one wait, STOP stops it, at once or once its safe state has been
committed, START makes a stopped one wait, CLR_STATS clears its counters; RUN at 0 stops every task and at 1
makes the stopped ones wait; a safe-state commit that has aborted joins the engine's sheaves again; CLR clears
MIN_IDLE. What the spec leaves open here is the model's choice (log entries 21 and 22). -/
def Obligations.DrillTasks : Prop :=
  ∀ (s : State) (h : HalfId) (r : Req) (v : Word) (t : Fin 64),
    let m := s.half h
    let x := m.task t.val
    let c := m.taskCfg t.val
    let p := m.rdF rDrlcFrcBase 0 8
    let mayFault := m.gMay 3 p && m.gMay 3 (p + 1)
    (s.quiet h = true → m.sheavesIdle = true → m.on (0x030 + c.engine) = true → m.hasTask t.val = true →
      m.relDue t.val = true → (∀ i ∈ m.taskReads t.val, m.recOk i = true) →
      (x.st = 1 → x.safe = 0 → m.drl.swap ≠ 2 →
        ∃ u, exec (.taskRelease h t) s = .next u ∧ (((u.half h).task t.val).st = 2 ∨ ((u.half h).task t.val).st = 3) ∧
          ((u.half h).task t.val).pc = c.entry ∧ ((u.half h).task t.val).acts = [] ∧ ((u.half h).task t.val).stack = [] ∧
          ((u.half h).task t.val).late = false ∧ ((u.half h).task t.val).owed = false ∧
          ((u.half h).task t.val).relMs = some (m.tai.toNat / oneMs) ∧ (∀ k i, c.inputs[k]? = some i → sfind ((u.half h).task t.val).ins k =
            some ⟨m.forceBits i (m.pt i).value, (m.pt i).quality, (m.pt i).level⟩)) ∧
      (x.st = 1 → x.safe = 0 → m.drl.swap = 2 → ∃ u, exec (.taskRelease h t) s = .next u ∧ ((u.half h).task t.val).st = 5) ∧
      (x.st ≠ 0 → x.st ≠ 6 → ¬ (x.st = 1 ∧ x.safe = 0) → x.consec + 1 < c.limit → x.consec < 15 →
        ∃ u, exec (.taskRelease h t) s = .next u ∧ ((u.half h).task t.val).overruns = stickTo 0xFFFF x.overruns 1 ∧
          ((u.half h).task t.val).consec = x.consec + 1 ∧ ((u.half h).task t.val).late = true ∧
          (u.half h).arisen 0x0A01 t.val (x.consec + 1) c.period (stickTo 0xFFFF x.overruns 1))) ∧
    (s.quiet h = true → m.sheavesIdle = true → x.safe ≠ 0 → (m.slot c.engine).state ≠ 0 →
      ∃ u, exec (.safeStateRetry h t) s = .next u ∧ (u.half h).drl.jobs = [⟨c.engine, t.val + 64, safeActs c⟩]) ∧
    (m.selTask = t.val → m.hasTask t.val = true →
      (s.admits h r rDrlcTaskCmd 1 = true → x.st = 6 → mayFault = true →
        ∃ u, exec (.resume h r) s = .next u ∧
          (u.half h).task t.val = { x with st := 1, consec := 0, cause := 0, first := true } ∧
          (u.half h).arisen 0x0A03 t.val (reqStamp r).toNat 0 0 ∧ (u.half h).answered r = ⟨0, 0⟩) ∧
      (s.admits h r rDrlcTaskCmd 2 = true → mayFault = true → m.sheavesIdle = true →
        ∃ u, exec (.stop h r false) s = .next u ∧ ((u.half h).task t.val).st = 0 ∧ ((u.half h).task t.val).safe = 0 ∧
          (u.half h).answered r = ⟨0, 0⟩) ∧
      (s.admits h r rDrlcTaskCmd 0x102 = true → x.safe = 0 → mayFault = true → m.sheavesIdle = true → (m.slot c.engine).state ≠ 0 →
        ∃ u, exec (.stop h r true) s = .next u ∧ ((u.half h).task t.val).st = x.st ∧ ((u.half h).task t.val).safe = 3 ∧
          (u.half h).drl.jobs = [⟨c.engine, t.val + 64, safeActs c⟩] ∧ (u.half h).answered r = ⟨0, 0⟩) ∧
      (s.admits h r rDrlcTaskCmd 3 = true → x.st = 0 →
        ∃ u, exec (.start h r) s = .next u ∧ (u.half h).task t.val = { x with st := 1, first := true } ∧
          (∀ i, i ≠ t.val → (u.half h).task i = m.task i) ∧ (u.half h).answered r = ⟨0, 0⟩) ∧
      (s.admits h r rDrlcTaskCmd 4 = true →
        ∃ u, exec (.clrStats h r) s = .next u ∧ (u.half h).task t.val = { x with overruns := 0, abandoned := 0, maxs := 0 } ∧
          (∀ i, i ≠ t.val → (u.half h).task i = m.task i) ∧ (u.half h).answered r = ⟨0, 0⟩)) ∧
    (s.admits h r rDrlcCtrl v = true →
      (m.rdB rDrlcCtrl 0 = true → flag v 0 = false → mayFault = true →
        ∃ u, exec (.drillRunWrite h r v) s = .next u ∧ (∀ i ∈ m.taskList, ((u.half h).task i).st = 0 ∧ ((u.half h).task i).safe = 0) ∧
          (u.half h).rdB rDrlcCtrl 0 = false ∧ (u.half h).answered r = ⟨0, 0⟩) ∧
      (m.rdB rDrlcCtrl 0 = false → flag v 0 = true →
        ∃ u, exec (.drillRunWrite h r v) s = .next u ∧ (∀ i ∈ m.taskList, (∀ k, k < 2 → i ∉ m.reserveTasks k) → (m.task i).st = 0 →
          ((u.half h).task i).st = 1 ∧ ((u.half h).task i).first = true) ∧
          (u.half h).rdB rDrlcCtrl 0 = true ∧ (u.half h).answered r = ⟨0, 0⟩)) ∧
    (∀ e : Fin 8, s.admits h r (rDrlClr e.val) v = true → flag v 0 = true →
      ∃ u, exec (.drlClr h r e v) s = .next u ∧ (u.half h).rd (rDrlMinIdle e.val) = 0xFFFFFFFF ∧
        (∀ k, k ≠ rDrlMinIdle e.val → (u.half h).rd k = m.rd k) ∧ (u.half h).answered r = ⟨0, 0⟩)

/-- PROGRAM_SWAP, SHADOW_VERIFIED, SWAP_DRAIN_END, SWAP_DRAIN_TIMEOUT, FORCE_SET, FORCE_RELEASE and
FORCE_PERSIST (R178 to R184, Table 6.11): the exchange of programs and the forces. DRLC.SWAP begins an exchange
where none is in progress, and is refused where one is; a shadow bank that passes its verification lets the
tasks drain, one that holds no program ends the exchange; the banks are exchanged once no task runs, and every
task starts with FIRST set; after the time-out the exchange ends with the banks unchanged. A force of a marker
or of a bit of a BOOL or BITS64 point takes the lowest free entry with its value; it is released; a release that
finds none answers OK; and a point's force changes PERSIST. What the spec leaves open here is the model's choice
(log entries 13, 17, 21 and 72). -/
def Obligations.SwapAndForces : Prop :=
  ∀ (s : State) (h : HalfId) (r : Req) (v : Word),
    let m := s.half h
    let n := reqNum r
    let o := other h
    (s.admits h r rDrlcSwap v = true → m.drl.swap = 0 →
      ∃ t, exec (.programSwap h r v) s = .next t ∧ (t.half h).drl = { m.drl with swap := 1, swapId := v, swapAt := m.up } ∧
        (t.half h).answered r = ⟨0, 0⟩) ∧
    (s.admits h r rDrlcSwap v = true → m.drl.swap ≠ 0 →
      ∃ t, exec (.programSwap h r v) s = .next t ∧ (t.half h).drl = m.drl ∧ (t.half h).rdF rDrlcSwapStat 24 8 = 8 ∧
        (t.half h).answered r = ⟨5, 0⟩) ∧
    (s.quiet h = true → m.drl.swap = 1 →
      (m.drl.shadow.valid = true → m.drl.shadow.crcOk = true → m.drl.shadow.id = m.drl.swapId →
        ((s.role o ≠ .inCharge ∧ s.role o ≠ .follower) ∨ s.yoke.xup = false ∨ (s.half o).drl.shadow.crc = m.drl.shadow.crc) →
        ∃ t, exec (.shadowVerified h) s = .next t ∧ (t.half h).drl = { m.drl with swap := 2 }) ∧
      (m.drl.shadow.valid = false →
        ∃ t, exec (.shadowVerified h) s = .next t ∧ (t.half h).drl.swap = 0 ∧ (t.half h).rdF rDrlcSwapStat 24 8 = 2 ∧
          (t.half h).drl.active = m.drl.active ∧ (t.half h).drl.shadow = m.drl.shadow)) ∧
    (s.quiet h = true → m.drl.swap = 2 →
      (m.drained = true → m.sheavesIdle = true → (∀ e ∈ m.drl.active.tasks, (sfind m.drl.shadow.tasks e.1).isSome = true) →
        ∃ t, exec (.swapDrainEnd h) s = .next t ∧ (t.half h).drl.active = m.drl.shadow ∧ (t.half h).drl.shadow = m.drl.active ∧
          (t.half h).drl.bank = !m.drl.bank ∧ (t.half h).drl.swap = 0 ∧ (t.half h).rdF rDrlcSwapStat 24 8 = 1 ∧ (∀ e ∈ m.drl.shadow.tasks, ((t.half h).task e.1).first = true)) ∧
      (∃ t, exec (.swapDrainTimeout h) s = .next t ∧ (t.half h).drl.swap = 0 ∧ (t.half h).rdF rDrlcSwapStat 24 8 = 6 ∧
        (t.half h).drl.active = m.drl.active ∧ (t.half h).drl.shadow = m.drl.shadow)) ∧
    (∀ (kind addr bit k : Nat) (f : Force), kind = fld v 30 2 → addr = fld v 0 16 → bit = (if kind = 2 then fld v 16 6 else 0) →
      m.mayForce (reqStamp r) = true →
      (s.admits h r rDrlcFrc (putFlag v 28 false) = true → m.forceAt kind addr bit = none → (flag v 29 = false ∨ stampClass (reqStamp r) = 1) →
        kind = 1 ∨ (kind = 2 ∧ m.configured addr = true ∧ (recType (m.pt addr) = 8 ∨ recType (m.pt addr) = 0)) →
        m.freeForce = some k → m.forceMay k = true →
        ∃ t, exec (.forceSet h r v) s = .next t ∧ sfind (t.half h).ptab.forces k =
          some ⟨kind, flag v 29, bit, addr, (let ws := (m.ageStaged n).stWords n rDrlcFrc 3 v; dword (ws.getD 1 0) (ws.getD 2 0)),
            reqStamp r, m.up, 0, 0, 0⟩ ∧
          (t.half h).view n rDrlcFrcStat = word (k * 2 ^ 24) ∧ (t.half h).answered r = ⟨0, 0⟩) ∧
      (s.admits h r rDrlcFrc (putFlag v 28 true) = true → kind = 1 ∨ kind = 2 →
        (m.forceAt kind addr bit = some (k, f) → (f.persist = flag v 29 ∨ stampClass (reqStamp r) = 1) → m.forceMay k = true →
          ∃ t, exec (.forceRelease h r v) s = .next t ∧ sfind (t.half h).ptab.forces k = none ∧
            (t.half h).view n rDrlcFrcStat = word (k * 2 ^ 24) ∧ (t.half h).answered r = ⟨0, 0⟩) ∧
        (m.forceAt kind addr bit = none →
          ∃ t, exec (.forceRelease h r v) s = .next t ∧ (t.half h).ptab.forces = m.ptab.forces ∧
            (t.half h).view n rDrlcFrcStat = 0 ∧ (t.half h).answered r = ⟨0, 0⟩)) ∧
      (s.admits h r rDrlcFrc (putFld v 30 2 3) = true → m.forceAt 3 addr 0 = some (k, f) →
        (stampClass (reqStamp r) = 1 ∨ f.persist = flag v 29) → m.forceMay k = true →
        ∃ t, exec (.forcePersist h r v) s = .next t ∧ sfind (t.half h).ptab.forces k = some { f with persist := flag v 29 } ∧
          (t.half h).view n rDrlcFrcStat = word (k * 2 ^ 24) ∧ (t.half h).answered r = ⟨0, 0⟩))

/-- TILLER_SAMPLE, TLR_ENABLE, TLR_DISABLE, TLR_CLR_FLAGS, TLR_MANUAL, TLR_AUTO, TILLER_RUN_WRITE and TLR_CLR
(R208 to R212, R230, R243): the Tiller. A sample of a loop that is due stamps LAST_T, in every state of a loop
whose sheaf waits, and ends its first sample; in MANUAL it writes no output. ENABLE of a descriptor that passes
its checks starts the loop in its MODE, or STOPPED; DISABLE relinquishes its outputs; CLR_FLAGS, MANUAL and AUTO
act on the loop of TLR.LOOP_SEL; RUN at 0 stops every loop, and at 1 lets them go on with a first sample; CLR
clears MAX_LATE. What the spec leaves open here is the model's choice (log entries 20 and 67). -/
def Obligations.TillerLoops : Prop :=
  ∀ (s : State) (h : HalfId) (r : Req) (v : Word),
    let m := s.half h
    let n := reqNum r
    let l := m.selLoop
    let x := m.loop l
    let ms := m.tai.toNat / oneMs
    (∀ k : Nat, s.quiet h = true → m.sheavesIdle = true → m.on 0x040 = true → m.rdB rTlrCtrl 0 = true → m.tlrBatch ms = [k] →
      (∀ p ∈ m.tlrReads [k], m.recOk p = true) → m.tlr.loops.all (fun e => !e.2.leaving) = true → (m.loop k).busy = false →
      (m.loop k).pend = none →
      let y := m.loop k
      let now := m.tlrInstant k (ms * oneMs)
      ((m.slot 8).state ≠ 0 →
        ∃ t, exec (.tillerSample h) s = .next t ∧ (t.half h).dw y.desc 18 = word now ∧ (t.half h).dw y.desc 19 = word (now / 2 ^ 32) ∧
          ((t.half h).loop k).first = false ∧ ((t.half h).loop k).lastMs = now / oneMs ∧ ((t.half h).loop k).owed = none ∧
          ((t.half h).loop k).seenMs = some ms) ∧
      (y.st = 2 → y.cmd = 0 → y.relq = [] →
        ∃ t, exec (.tillerSample h) s = .next t ∧ (t.half h).dw y.desc 18 = word now ∧ (t.half h).dw y.desc 19 = word (now / 2 ^ 32) ∧
          ((t.half h).loop k).first = false ∧ ((t.half h).loop k).st = 2 ∧ ((t.half h).loop k).busy = false ∧
          ((t.half h).loop k).lastMs = now / oneMs ∧ (t.half h).tlr.jobs = [])) ∧
    (∀ w : Nat, s.admits h r rTlrLoopCmd (putFld v 0 4 1) = true → x.st = 0 → m.descCheck (fld v 16 9) = (0, w) →
      ∃ t, exec (.tlrEnable h r v) s = .next t ∧ ((t.half h).loop l).desc = fld v 16 9 ∧ ((t.half h).loop l).first = true ∧
        ((t.half h).loop l).st = (if m.rdB rTlrCtrl 0 ∧ s.yoke.pwr.pfw = false then (if fld (m.dw (fld v 16 9) 0) 0 2 = 1 then 2 else 1) else 6) ∧
        (t.half h).arisen 0x0B01 l (fld v 16 9) (reqStamp r).toNat 0 ∧ (t.half h).view n rTlrCmdStat = 0 ∧
        (t.half h).answered r = ⟨0, 0⟩) ∧
    (m.loopOn l = true →
      (s.admits h r rTlrLoopCmd (putFld v 0 4 2) = true → m.sheavesIdle = true → (m.slot 8).state ≠ 0 →
        ∃ t, exec (.tlrDisable h r v) s = .next t ∧ ((t.half h).loop l).leaving = true ∧ (t.half h).tlr.jobs = [m.tlrRelease l] ∧
          (t.half h).arisen 0x0B07 l x.desc (reqStamp r).toNat 0 ∧ (t.half h).view n rTlrCmdStat = 0 ∧ (t.half h).answered r = ⟨0, 0⟩) ∧
      (s.admits h r rTlrLoopCmd (putFld v 0 4 3) = true →
        ∃ t, exec (.tlrClrFlags h r v) s = .next t ∧ (t.half h).loop l = { x with sat := false, overrun := false } ∧
          (t.half h).dw x.desc 25 = 0 ∧ (t.half h).view n rTlrCmdStat = 0 ∧ (t.half h).answered r = ⟨0, 0⟩) ∧
      (s.admits h r rTlrLoopCmd (putFld v 0 4 4) = true →
        ∃ t, exec (.tlrManual h r v) s = .next t ∧ (t.half h).loop l = { x with cmd := 4, who := reqStamp r } ∧
          (t.half h).view n rTlrCmdStat = 0 ∧ (t.half h).answered r = ⟨0, 0⟩) ∧
      (s.admits h r rTlrLoopCmd (putFld v 0 4 5) = true →
        ∃ t, exec (.tlrAuto h r v) s = .next t ∧ (t.half h).loop l = { x with cmd := 5, who := reqStamp r } ∧
          (t.half h).view n rTlrCmdStat = 0 ∧ (t.half h).answered r = ⟨0, 0⟩)) ∧
    (s.admits h r rTlrCtrl v = true →
      (m.rdB rTlrCtrl 0 = true → flag v 0 = false →
        ∃ t, exec (.tillerRunWrite h r v) s = .next t ∧ (∀ k, ((t.half h).loop k).st = 0 ∨ ((t.half h).loop k).st = 6) ∧
          (t.half h).rdB rTlrCtrl 0 = false ∧ (t.half h).answered r = ⟨0, 0⟩) ∧
      (m.rdB rTlrCtrl 0 = false → flag v 0 = true → s.yoke.pwr.pfw = false →
        ∃ t, exec (.tillerRunWrite h r v) s = .next t ∧ (∀ k, (m.loop k).st = 6 → ((t.half h).loop k).st = (m.loop k).resume ∧
          ((t.half h).loop k).first = true) ∧ (t.half h).rdB rTlrCtrl 0 = true ∧ (t.half h).answered r = ⟨0, 0⟩)) ∧
    (s.admits h r rTlrClr v = true → flag v 0 = true →
      ∃ t, exec (.tlrClr h r v) s = .next t ∧ (t.half h).rd rTlrMaxLate = 0 ∧
        (∀ k, k ≠ rTlrMaxLate → (t.half h).rd k = m.rd k) ∧ (t.half h).answered r = ⟨0, 0⟩)

/-- ENERGY_CYCLE, NRG_WINDOW_END, DEMAND_MINUTE, DEMAND_INTERVAL_END, ENERGY_ROUND and ENERGY_SNAPSHOT_ROUND
(R251, R256 to R268, R273, R274): energy metering. In a cycle of its voltage set a meter adds its energy in the
quadrant that the signs give, or only sets CREEP; the end of a full window sets the frequency and the meters'
totals, and begins the next; a minute that has passed gives the demand of the last DEM_MIN minutes; an interval
that has passed leaves its record; a round commits the energy area, and the snapshot round at PFW + 2 ms is the
last. What the spec leaves open here is the model's choice (log entries 56, 73 and 75). -/
def Obligations.EnergyMetering : Prop :=
  ∀ (s : State) (h : HalfId) (vs : Fin 8) (i : Nat),
    let m := s.half h
    let x := m.meter i
    let p0 := m.rdF rNrgGrnBase 0 8
    let now := m.utcMinute (s.view h).leap
    let round (kind : Nat) (u : Half) : Prop :=
      (m.gMay 2 p0 = true → (u.gPage p0).take 9 = leBytes 8 m.tai.toNat ++ [BitVec.ofNat 8 kind]) ∧
        (0 < m.nrgMeters → m.gMay 2 (p0 + 1) = true → (u.gPage (p0 + 1)).take 8 = leBytes 8 ((m.meter 0).reg 0).toNat)
    (∀ c : EnergyCycle, s.quiet h = true → m.nrgRun = true → m.nrg.calGo = [] → m.nrg.stopped = false →
      (m.cycInputs vs.val c).all (fun k => !(cycRaw c k).any clips) = true → m.metersOf vs.val = [i] →
      (m.creeps i c = true →
        ∃ t, exec (.energyCycle vs c) s = .next t ∧
          (t.half h).meter i = { x with flags := x.flags ||| 0x10 ||| (if freqBad (cycMhz c) then 0x80 else 0) }) ∧
      (∀ p q : Int, m.creeps i c = false → m.energyOf i vs.val c = (p, q) →
        let k := if 0 ≤ p then 0 else 1
        let j := if 0 ≤ p then (if 0 ≤ q then 2 else 5) else (if 0 ≤ q then 3 else 4)
        let w := (sget 0 x.res k + energyUnits (cycMhz c) p.natAbs) / 2 ^ 24
        let z := (sget 0 x.res j + energyUnits (cycMhz c) q.natAbs) / 2 ^ 24
        (x.reg k).toNat + w < 2 ^ 64 → (x.reg j).toNat + z < 2 ^ 64 →
        ∃ t, exec (.energyCycle vs c) s = .next t ∧ ((t.half h).meter i).reg k = BitVec.ofNat 64 ((x.reg k).toNat + w) ∧
          ((t.half h).meter i).reg j = BitVec.ofNat 64 ((x.reg j).toNat + z) ∧
          (∀ a, a ≠ k → a ≠ j → ((t.half h).meter i).reg a = x.reg a) ∧
          sget 0 ((t.half h).meter i).res k = (sget 0 x.res k + energyUnits (cycMhz c) p.natAbs) % 2 ^ 24 ∧
          ((t.half h).meter i).curImp = x.curImp + (if 0 ≤ p then w else 0) ∧
          ((t.half h).meter i).curExp = x.curExp + (if 0 ≤ p then 0 else w))) ∧
    (s.quiet h = true → m.nrgRun = true → m.windowFull vs.val = true →
      ∃ t, exec (.nrgWindowEnd h vs) s = .next t ∧ (t.half h).rd (rNvsFreq vs.val) = word (m.windowMhz vs.val) ∧
        (t.half h).rdB (pgIrqRaw 0x060) 0 = true ∧ ((t.half h).vset vs.val).cycles = 0 ∧
        (∀ k ∈ m.metersOf vs.val, ((t.half h).meter k).tot =
          (let r := totals (m.meterPhases k); [w32 r.p, w32 r.q, w32 r.sa, w32 (pfOf r.p r.sa)]))) ∧
    (s.quiet h = true → m.metersOn.Nodup → i ∈ m.metersOn →
      let d := word (min (demandOf m.demMin ((x.curImp :: x.minImp).take 60)) 0xFFFFFFFF)
      (now = m.nrg.minute + 1 →
        ∃ t, exec .demandMinute s = .next t ∧ ((t.half h).meter i).minImp = (x.curImp :: x.minImp).take 60 ∧
          ((t.half h).meter i).curImp = 0 ∧ ((t.half h).meter i).curExp = 0 ∧ ((t.half h).meter i).dem = d ∧
          ((t.half h).meter i).peak = (if x.peak.toNat < d.toNat then d else x.peak) ∧ ((t.half h).meter i).acc = x.acc ∧
          (t.half h).nrg.minute = now) ∧
      (m.nrgRun = true → m.ivPassed now = true → now = m.nrg.minute →
        ∃ t, exec .demandIntervalEnd s = .next t ∧ ((t.half h).meter i).ivImp = 0 ∧ ((t.half h).meter i).ivExp = 0 ∧
          (∀ k, k < 8 → ((t.half h).meter i).irec[k]? = some (word (leAt (m.intervalRec i) (4 * k) 4))) ∧
          (t.half h).rdB (pgIrqRaw 0x060) 1 = true ∧ (t.half h).nrg.ivMin = now)) ∧
    (s.quiet h = true → m.accumulates = true →
      (∃ t, exec (.energyRound h) s = .next t ∧ round 1 (t.half h)) ∧
      ((s.view h).fail = true → m.grn.frozen = false →
        ∃ t, exec (.energySnapshotRound h) s = .next t ∧ round 2 (t.half h) ∧ (t.half h).accumulates = false ∧
          (t.half h).grn.request = some (3, none)))

/-- CLR_PEAK, NRG_CLR_FLAGS, CLR_ACC, NRG_CAL_APPLY, ENERGY_CYCLE, REACTIVE_LOAD, M_CFG_WRITE and NRG_RUN_WRITE
(R54, R254, R263, R265, R266, R268, R271, R272, R276): the commands of the energy DSP. The commands of NRG.M_CMD
and M_CFG act on the meter of NRG.M_SEL; CAL_APPLY gives every staged value to the next cycle boundary of its
voltage set, where it takes effect; M_LOAD adds its committed words to the reactive registers once per restart;
RUN starts metering with its intervals PARTIAL, and ends it with a last round. What the spec leaves open here is
the model's choice (log entries 56 and 75). -/
def Obligations.EnergyCommands : Prop :=
  ∀ (s : State) (h : HalfId) (r : Req) (v : Word),
    let m := s.half h
    let n := reqNum r
    let i := m.rdN rNrgMSel
    let x := m.meter i
    (s.admits h r rNrgMCmd 1 = true →
      ∃ t, exec (.clrPeak h r) s = .next t ∧ (t.half h).meter i = { x with peak := 0 } ∧
        (∀ j, j ≠ i → (t.half h).meter j = m.meter j) ∧ (∀ k, (t.half h).rd k = m.rd k) ∧ (t.half h).answered r = ⟨0, 0⟩) ∧
    (s.admits h r rNrgMCmd 2 = true →
      ∃ t, exec (.nrgClrFlags h r) s = .next t ∧ (t.half h).meter i = { x with flags := x.flags &&& 0xC02, gap := false } ∧
        (∀ j, j ≠ i → (t.half h).meter j = m.meter j) ∧ (∀ k, (t.half h).rd k = m.rd k) ∧ (t.half h).answered r = ⟨0, 0⟩) ∧
    (s.admits h r rNrgMCmd 3 = true →
      ∃ t, exec (.clrAcc h r) s = .next t ∧ (t.half h).meter i = { x with acc := [], sat := [], flags := x.flags &&& 0xFFD } ∧
        (∀ j, j ≠ i → (t.half h).meter j = m.meter j) ∧ (∀ k, (t.half h).rd k = m.rd k) ∧ (t.half h).answered r = ⟨0, 0⟩) ∧
    (s.admits h r rNrgCalApply v = true → flag v 0 = true →
      ∃ t, exec (.nrgCalApply h r v) s = .next t ∧ (∀ k ∈ m.nrg.calStg, sfind (t.half h).nrg.calGo k = some (m.rd k)) ∧
        (t.half h).nrg.calStg = [] ∧ (∀ k, (t.half h).calIn k = m.calIn k) ∧ (t.half h).answered r = ⟨0, 0⟩) ∧
    (∀ (vs : Fin 8) (c : EnergyCycle) (k : Nat) (w : Word), s.quiet h = true → sorted m.nrg.calGo = true →
      sfind m.nrg.calGo k = some w → m.calSet k = vs.val →
      ∃ t, exec (.energyCycle vs c) s = .next t ∧ (t.half h).calIn k = w ∧ sfind (t.half h).nrg.calGo k = none) ∧
    (s.admits h r rNrgMLoad v = true → m.compact = true → x.flags.testBit 11 = false →
      let ws := (m.ageStaged n).commitWords n rNrgMLoad 8 v
      let val (k : Nat) : Nat := (dword (ws.getD (2 * k) 0) (ws.getD (2 * k + 1) 0)).toNat
      (∀ k, k < 4 → (x.reg (k + 2)).toNat + val k < 2 ^ 64) →
      ∃ t, exec (.reactiveLoad h r v) s = .next t ∧
        (∀ k, k < 4 → ((t.half h).meter i).reg (k + 2) = BitVec.ofNat 64 ((x.reg (k + 2)).toNat + val k)) ∧
        ((t.half h).meter i).reg 0 = x.reg 0 ∧ ((t.half h).meter i).reg 1 = x.reg 1 ∧ (t.half h).rdWords rNrgMLoad 8 = ws ∧
        (t.half h).arisen 0x0C0B i (reqStamp r).toNat 0 0 ∧ (t.half h).answered r = ⟨0, 0⟩) ∧
    (s.admits h r rNrgMCfg v = true → m.rdB rNrgCtrl 0 = false →
      (∀ p ∈ cfgPhases (v &&& 0xF7FFFFFF), p.1 ≠ 3 ∧ m.chanOk p.2 = true ∧ m.chanTaken i p.2 = false ∧
        m.vEn (fld v 24 3) p.1 = true) →
      ∃ t, exec (.mCfgWrite h r v) s = .next t ∧ (t.half h).meter i = { x with cfg := v &&& 0xF7FFFFFF } ∧
        (∀ j, j ≠ i → (t.half h).meter j = m.meter j) ∧ (t.half h).answered r = ⟨0, 0⟩) ∧
    (s.admits h r rNrgCtrl v = true → fld v 8 6 ∈ [1, 2, 3, 4, 5, 6, 10, 12, 15, 20, 30, 60] →
      (m.rdB rNrgCtrl 0 = false → flag v 0 = true → (m.plainWrite n rNrgCtrl v).nrgAreaOk = true →
        ∃ t, exec (.nrgRunWrite h r v) s = .next t ∧ (t.half h).rdB rNrgCtrl 0 = true ∧ (t.half h).demMin = fld v 8 6 ∧
          (t.half h).nrg.stopped = false ∧ (∀ j ∈ m.metersOn, ((t.half h).meter j).flags.testBit 2 = true) ∧
          (t.half h).answered r = ⟨0, 0⟩) ∧
      (m.rdB rNrgCtrl 0 = true → flag v 0 = false → fld v 1 2 = m.rdF rNrgCtrl 1 2 →
        ∃ t, exec (.nrgRunWrite h r v) s = .next t ∧ (t.half h).rdB rNrgCtrl 0 = false ∧
          (m.accumulates = true → m.gMay 2 (m.rdF rNrgGrnBase 0 8) = true →
            ((t.half h).gPage (m.rdF rNrgGrnBase 0 8)).take 9 = leBytes 8 m.tai.toNat ++ [2]) ∧ (t.half h).answered r = ⟨0, 0⟩))

/-- UIO_SAMPLE, UIO_EDGE_ACCEPT, MODE_WRITE, MODE_SETTLE_END, UIO_CAL_APPLY, UIO_CLR, OD_OVERCURRENT, OD_RETRY,
STRIKE_PULSE_END, OUTPUT_RATE_LIMIT and SAMPLER_WAKE (R283 to R291, R294, R296, R300): terminals. A sample gives
an analog input its value through GAIN, OFFS and the filter, or its fault, a comparator its level and an output
its secondary value; an accepted edge sets LEVEL, counts in COUNTER mode and fires the reflexes of the terminal;
a new mode starts from nothing and settles; CAL_APPLY lets the staged values take effect at the next sample; the
switch trips, is switched on again a second later and ends its pulse; RATE limits a drive; and the sampler
counts violations, and wakes the module from Fallow. What the spec leaves open here is the model's choice (log
entries 25 and 47). -/
def Obligations.Terminals : Prop :=
  ∀ (s : State) (h : HalfId) (t : Fin 256) (r : Req) (v : Word),
    let m := s.half h
    let y := s.view h
    let g := t.val / 16
    let n := t.val % 16
    let k := m.uioMode t.val
    let x := m.term t.val
    (∀ (raw : Int) (lo : Bool), s.quietBus h = true → k ≠ 0 → x.settling = false → m.uioOn t.val = true →
      (1 ≤ k → k ≤ 4 → analogFault k raw = 0 →
        let p := if k = 3 then ptTemp raw.toNat else if k = 4 then ntcTemp (m.rdN (rUiogNtcb g n)) raw.toNat else raw
        let cal := x.calWait.getD (x.gain, x.offs)
        let c := divRound (p * (cal.1.toNat : Int)) (2 ^ 22) + cal.2.toInt
        let tau := 10 * m.rdF (rUiogMode g n) 8 8
        let f := if tau = 0 ∨ x.primed = false then c * 2 ^ 16 else lowPass x.filt (c * 2 ^ 16) (m.uioPeriod y t.val) tau
        ∃ u, exec (.uioSample t raw lo) s = .next u ∧ (u.half h).uioFault t.val = 0 ∧
          (u.half h).rd (rUiogVal g n) = iword (divRound f (2 ^ 16))) ∧
      (1 ≤ k → k ≤ 4 → analogFault k raw ≠ 0 →
        ∃ u, exec (.uioSample t raw lo) s = .next u ∧ (u.half h).uioFault t.val = analogFault k raw ∧
          (u.half h).rd (rUiogVal g n) = m.rd (rUiogVal g n)) ∧
      (k = 5 ∨ k = 6 →
        ∃ u, exec (.uioSample t raw lo) s = .next u ∧
          (u.half h).rd (rUiogVal g n) = word (m.rdB (rUiogLevel g) n).toNat) ∧
      (k = 8 ∨ k = 9 ∨ k = 10 →
        ∃ u, exec (.uioSample t raw lo) s = .next u ∧ (u.half h).rd (rUiogVal g n + 4) = (if k = 8 then 0 else iword raw)) ∧
      (∀ c : Word × Word, x.calWait = some c →
        ∃ u, exec (.uioSample t raw lo) s = .next u ∧ ((u.half h).term t.val).calWait = none ∧
          ((u.half h).term t.val).gain = c.1 ∧ ((u.half h).term t.val).offs = c.2)) ∧
    (∀ comp : Bool, s.quiet h = true → k = 5 ∨ k = 6 → x.settling = false → m.uioOn t.val = true →
      let level := m.uioLevel t.val comp
      m.rdB (rUiogLevel g) n ≠ level →
      (∃ u, exec (.uioEdgeAccept t comp) s = .next u ∧ (u.half h).rdB (rUiogLevel g) n = level ∧
        (u.half h).rd (rUiogCnt g n) = (if k = 6 ∧ level = true then m.rd (rUiogCnt g n) + 1 else m.rd (rUiogCnt g n))) ∧
      (∀ (b : Nat) (f : Reflex), m.rfxOn = true → m.reflexOf 1 t.val = [(b, f)] → sfind m.uio.rfx b = some f → rEdge f.words = 3 →
        y.any = true → rLevel f.words ≤ m.activeLevel (rPoint f.words) →
        ∃ u, exec (.uioEdgeAccept t comp) s = .next u ∧ (u.half h).ptab.queue.head? = some (reflexWrite b f.words false) ∧
          (u.half h).rd rRfxLast = word (2 ^ 16 + b))) ∧
    (s.admits h r (rUiogMode g n) v = true → m.modeRule t.val (v &&& 0xFF3F) = 0 →
      (fld v 0 4 ≠ fld (m.modeWord t.val) 0 4 ∨ flag v 5 ≠ flag (m.modeWord t.val) 5 →
        ∃ u, exec (.modeWrite h r t v) s = .next u ∧ (u.half h).modeWord t.val = v &&& 0xFF3F ∧ (u.half h).rd (rUiogCnt g n) = 0 ∧
          (u.half h).uioFault t.val = 0 ∧ (u.half h).rd (rUiogDrv g n) = 0 ∧
          ((u.half h).term t.val).settling = decide (fld v 0 4 ≠ 0) ∧
          (u.half h).arisen 0x0D04 t.val (m.modeWord t.val).toNat (v &&& 0xFF3F).toNat (reqStamp r).toNat ∧
          (u.half h).answered r = ⟨0, 0⟩) ∧
      (fld v 0 4 = fld (m.modeWord t.val) 0 4 → flag v 5 = flag (m.modeWord t.val) 5 →
        ∃ u, exec (.modeWrite h r t v) s = .next u ∧ (u.half h).modeWord t.val = v &&& 0xFF3F ∧ (u.half h).uio = m.uio ∧
          (u.half h).rd (rUiogCnt g n) = m.rd (rUiogCnt g n) ∧ (u.half h).answered r = ⟨0, 0⟩)) ∧
    (∀ comp : Bool, s.quiet h = true → x.settling = true →
      ∃ u, exec (.modeSettleEnd t comp) s = .next u ∧ (u.half h).term t.val = { x with settling := false } ∧
        (u.half h).rdB (rUiogLevel g) n = (if k = 5 ∨ k = 6 then m.uioLevel t.val comp else m.rdB (rUiogLevel g) n)) ∧
    (∀ q : Fin 16, s.admits h r (rUiogCalApply q.val) v = true → flag v 0 = true →
      ∃ u, exec (.uioCalApply h r q v) s = .next u ∧ (∀ e ∈ (u.half h).uio.stg, e / 4096 ≠ 0x050 + q.val) ∧
        (∀ j, j < 16 → rUiogGain q.val j ∈ m.uio.stg ∨ rUiogOffs q.val j ∈ m.uio.stg →
          m.rd (rUiogGain q.val j) ≠ (m.term (16 * q.val + j)).gain ∨ m.rd (rUiogOffs q.val j) ≠ (m.term (16 * q.val + j)).offs →
          ((u.half h).term (16 * q.val + j)).calWait = some (m.rd (rUiogGain q.val j), m.rd (rUiogOffs q.val j))) ∧
        (∀ j, ((u.half h).term j).gain = (m.term j).gain) ∧ (u.half h).answered r = ⟨0, 0⟩) ∧
    (∀ q : Fin 16, s.admits h r (rUiogClr q.val) v = true →
      ∃ u, exec (.uioClr h r q v) s = .next u ∧
        (∀ j, j < 16 → (u.half h).rd (rUiogCnt q.val j) = (if flag v j then 0 else m.rd (rUiogCnt q.val j))) ∧
        (u.half h).answered r = ⟨0, 0⟩) ∧
    (∀ ma : Nat, s.quiet h = true → 300 < ma → k = 10 → x.settling = false → m.harmless y t.val = false → m.rd (rUiogDrv g n) ≠ 0 →
      x.offAt = none →
      ∃ u, exec (.odOvercurrent ⟨t, ma⟩) s = .next u ∧ ((u.half h).term t.val).trips = x.trips + 1 ∧
        ((u.half h).term t.val).offAt = some m.up ∧ (u.half h).uioFault t.val = (if 3 ≤ x.trips + 1 then 7 else 5) ∧
        (u.half h).rdB (pgIrqRaw (0x050 + g)) 2 = true ∧ (3 ≤ x.trips + 1 → (u.half h).arisen 0x0D03 t.val ma 0 0)) ∧
    (∀ a : Nat, s.quiet h = true → x.offAt = some a → a + oneSec ≤ m.up → m.uioFault t.val ≠ 7 → m.rdN (rUiogDrv g n) = 1 →
      ∃ u, exec (.odRetry t) s = .next u ∧ (u.half h).term t.val = { x with offAt := none }) ∧
    (∀ a w : Nat, s.quiet h = true → x.pulse = some (a, w) → a + w * oneMs ≤ m.up → m.isOutput t.val = true → y.start = false →
      m.rd (rUiogLimlo g n) = 0 → m.rd (rUiogRate g n) = 0 →
      ∃ u, exec (.strikePulseEnd t) s = .next u ∧ (u.half h).rd (rUiogDrv g n) = 0 ∧ ((u.half h).term t.val).pulse = none) ∧
    (let old := m.slewFrom t.val
     let rate := m.rdN (rUiogRate g n)
     s.quiet h = true → m.isOutput t.val = true → 0 < rate → m.rdN (rUiogLimlo g n) ≤ x.cmd.toNat →
      x.cmd.toNat ≤ m.rdN (rUiogLimhi g n) → x.cmd.toNat ≤ modeTop k → old ≤ modeTop k →
      (old + rate < x.cmd.toNat →
        ∃ u, exec (.outputRateLimit h t) s = .next u ∧ (u.half h).rd (rUiogDrv g n) = word (old + rate)) ∧
      (x.cmd.toNat + rate < old →
        ∃ u, exec (.outputRateLimit h t) s = .next u ∧ (u.half h).rd (rUiogDrv g n) = word (old - rate)) ∧
      (x.cmd.toNat ≤ old + rate → old ≤ x.cmd.toNat + rate →
        ∃ u, exec (.outputRateLimit h t) s = .next u ∧ (u.half h).rd (rUiogDrv g n) = x.cmd)) ∧
    (∀ (vals : List (Nat × List Int)) (i : Nat) (w : Int), let e := m.fsEnt i
      s.yoke.holder = some h → s.yoke.pwr.state = 2 → s.runs h = true → m.rdB rRfxFsCtrl 31 = true → i < 64 → flag e.ent 31 = true →
      (∀ j, j < 64 → j ≠ i → flag (m.fsEnt j).ent 31 = false) → m.fsValue i ((sfind vals i).getD []) = some w →
      (e.bad w = false →
        ∃ u, exec (.samplerWake ⟨vals⟩) s = .next u ∧ (u.half h).fsEnt i = { e with run := 0 } ∧ u.yoke = s.yoke) ∧
      (e.bad w = true → min (e.run + 1) 15 < m.rdF rRfxFsCtrl 16 4 →
        ∃ u, exec (.samplerWake ⟨vals⟩) s = .next u ∧ (u.half h).fsEnt i = { e with run := min (e.run + 1) 15 } ∧ u.yoke = s.yoke) ∧
      (e.bad w = true → m.rdF rRfxFsCtrl 16 4 ≤ min (e.run + 1) 15 → s.wakeOn 1 = true → s.yoke.pwr.entry = none →
        ∃ u, exec (.samplerWake ⟨vals⟩) s = .next u ∧ u.yoke.pwr.state = 0 ∧ (u.half h).rd rRfxFsHit = word (2 ^ 31 + i) ∧
          (u.half h).rd rRfxFsVal = iword w ∧ (u.half h).arisen 0x0D08 i (iword w).toNat e.lo.toNat e.hi.toNat))

/-- CAN_FRAME_STORED, CAN_TXREQ, CAN_TX_ABORT, CAN_FRAME_SENT, CAN_TX_ERROR, CAN_RECEIVE_ERROR, ABORT_ALL,
CAN_ACK and CAN_OBJECT_COMMIT (R21, R309 to R311, R313, R314, R316, R317): frames of a CAN controller. A frame
is stored in the enabled receive object of its identifier, with NEW, and LOST where NEW stood, or is counted as
unmatched; a request makes the object pending; a frame sent carries the data that arbitration began with, leaves
through the output stage of the half that drives it, and ends the request; an attempt that fails counts in TRIES
and TEC, ends the request at RETRY, and is the 16th without acknowledgement in a row that sets ALONE; an error
received counts in REC, or while MODE is OFF in the statistics alone; ABORT, ABORT_ALL and ACK act on the
objects; and a commit of word 0 configures an object from the words staged. What the spec leaves open here is
the model's choice (log entry 48). -/
def Obligations.CanFrames : Prop :=
  ∀ (s : State) (h : HalfId) (c : Fin 16) (o : Nat) (r : Req) (v : Word),
    let m := s.half h
    let y := s.view h
    let x := m.canOf c.val
    (∀ f : CanFrame, s.quietBus h = true → m.canOn c.val = true → x.state ≠ 2 → x.tec ≤ 255 →
      (f.fd = true → m.rdB (rCanCtrl c.val) 4 = true) →
      (x.findObj f.ext f.id = some o → x.isTx o = false → m.reflexOf 2 (c.val * 2 ^ 12 + o) = [] → f.rtr = false →
        ∃ t, exec (.canFrameStored c f) s = .next t ∧
          (((t.half h).canOf c.val).data o).take (dlcLen f.fd f.dlc) = padTo (dlcLen f.fd f.dlc) f.data ∧
          flag (((t.half h).canOf c.val).obj o 2) 31 = true ∧
          flag (((t.half h).canOf c.val).obj o 2) 30 = flag (x.obj o 2) 31 ∧
          fld (((t.half h).canOf c.val).obj o 2) 16 4 = f.dlc % 16 ∧
          ((t.half h).canOf c.val).obj o 3 = m.canTb c.val (m.up - f.sof) ∧
          (t.half h).rd (rCanCnt c.val 0) = m.rd (rCanCnt c.val 0) + 1) ∧
      (f.rtr = true ∨ x.findObj f.ext f.id = none ∨ (x.findObj f.ext f.id = some o ∧ x.isTx o = true) →
        ∃ t, exec (.canFrameStored c f) s = .next t ∧ ((t.half h).canOf c.val).objs = x.objs ∧
          (t.half h).rd (rCanCnt c.val 8) = m.rd (rCanCnt c.val 8) + 1)) ∧
    (o = fld v 0 12 → o < 3072 → s.admits h r (rCanTxreq c.val) v = true → flag v 15 = false → x.en o = true → x.isTx o = true →
      ∃ t, exec (.canTxreq h r c v) s = .next t ∧ ((t.half h).canOf c.val).pend o = true ∧
        (x.pend o = true → (t.half h).canOf c.val = x) ∧ (t.half h).view (reqNum r) (rCanTxstat c.val) = 0 ∧
        (t.half h).answered r = ⟨0, 0⟩) ∧
    (o = fld v 0 12 → o < 3072 → s.admits h r (rCanTxreq c.val) (v ||| 0x8000) = true → x.pend o = true →
      ∃ t, exec (.canTxAbort h r c v) s = .next t ∧ ((t.half h).canOf c.val).pend o = false ∧
        flag (((t.half h).canOf c.val).obj o 2) 28 = true ∧ (t.half h).rdB (pgIrqRaw (0x070 + c.val)) 2 = true ∧
        (t.half h).answered r = ⟨0, 0⟩) ∧
    (s.quietBus h = true → m.canMaySend y c.val o = true → x.pend o = true → x.tec ≤ 255 → m.sheavesIdle = true →
      (∀ e ∈ x.waits, e.1 / 32 ≠ o) →
      (∃ t, exec (.canFrameSent c o) s = .next t ∧ (t.half h).sent = m.sent ++ (if y.drives then [.can c.val o (x.frame o)] else []) ∧
        ((t.half h).canOf c.val).pend o = false ∧ ((t.half h).canOf c.val).obj o 3 = m.canTb c.val m.up ∧
        ((t.half h).canOf c.val).tec = x.tec - 1 ∧ (t.half h).rd (rCanCnt c.val 1) = m.rd (rCanCnt c.val 1) + 1) ∧
      (∀ e : CanError,
        let keep := (decide (e.kind = 3) && decide (x.state = 1) && e.quiet) || e.arbStuff
        let n := fld (x.obj o 2) 0 4 + 1
        let limit := if flag (x.obj o 0) 27 then 1 else fld (x.obj o 0) 20 4
        ∃ t, exec (.canTxError c o e) s = .next t ∧ ((t.half h).canOf c.val).tec = min (x.tec + (if keep then 0 else 8) + 8 * e.extra) 511 ∧
          fld (((t.half h).canOf c.val).obj o 2) 0 4 = min n 15 ∧
          (limit ≠ 0 → limit ≤ n → ((t.half h).canOf c.val).pend o = false ∧ flag (((t.half h).canOf c.val).obj o 2) 28 = true) ∧
          (t.half h).rd (rCanLasterr c.val) = word (e.dataPhase.toNat * 2 ^ 8 + e.kind % 8) ∧ (t.half h).sent = m.sent ∧
          (e.kind = 3 → x.ackRun = 15 → ((t.half h).canOf c.val).alone = true))) ∧
    (∀ e : CanError, s.quietBus h = true → m.canOn c.val = true → x.state = 0 → x.tec ≤ 127 → x.rxc ≤ 127 → e.kind ≠ 0 →
      m.canListens y c.val = false →
      ∃ t, exec (.canReceiveError c e) s = .next t ∧ ((t.half h).canOf c.val).rxc = min (x.rxc + 1 + 8 * e.extra) 255 ∧
        ((t.half h).canOf c.val).state = (if 127 < x.rxc + 1 + 8 * e.extra then 1 else 0) ∧
        (t.half h).rd (rCanLasterr c.val) = word (e.dataPhase.toNat * 2 ^ 8 + e.kind % 8)) ∧
    (∀ e : CanError, s.quietBus h = true → m.on (0x070 + c.val) = true → x.mode = 0 → x.state ≠ 2 →
      ∃ t, exec (.canReceiveError c e) s = .next t ∧ (t.half h).can = m.can ∧
        (t.half h).rd (rCanCnt c.val (canErrCnt e.kind)) = m.rd (rCanCnt c.val (canErrCnt e.kind)) + 1) ∧
    (s.admits h r (rCanCmd c.val) 2 = true →
      ∃ t, exec (.canAbortAll h r c) s = .next t ∧ (∀ k, ((t.half h).canOf c.val).pend k = false) ∧
        (∀ k, x.pend k = true → flag (((t.half h).canOf c.val).obj k 2) 28 = true) ∧ (t.half h).answered r = ⟨0, 0⟩) ∧
    (o = fld v 0 12 → o < 3072 → s.admits h r (rCanAck c.val) v = true →
      ∃ t, exec (.canAck h r c v) s = .next t ∧ flag (((t.half h).canOf c.val).obj o 2) 31 = false ∧
        flag (((t.half h).canOf c.val).obj o 2) 30 = false ∧
        (∀ k, k ≠ o * 20 + 2 → sfind ((t.half h).canOf c.val).objs k = sfind x.objs k) ∧ (t.half h).answered r = ⟨0, 0⟩) ∧
    (∀ a : Nat, a = 0x54000000 + c.val * 0x3E000 + o * 80 → s.reaches h r = true → m.ready (0x070 + c.val) = true → o < 3072 →
      fld v 8 6 ≤ 59 →
      (flag v 31 = false ∨ (o < 2048 ∧ x.en o = false ∧ (flag v 29 = true → m.rdB (rCanCtrl c.val) 4 = true)) →
        ∃ t, exec (.canObjectCommit h r a v) s = .next t ∧ ((t.half h).canOf c.val).obj o 0 = canWord0 o v ∧
          (flag v 30 = true → ∀ i, i < 16 →
            ((t.half h).canOf c.val).obj o (4 + i) = (m.stagedWord (reqNum r) (a + 16 + 4 * i)).getD (x.obj o (4 + i))) ∧
          (t.half h).answered r = ⟨0, 0⟩) ∧
      (2048 ≤ o → flag v 31 = true → x.en o = false → (flag v 29 = true → m.rdB (rCanCtrl c.val) 4 = true) →
        let id := fld ((m.stagedWord (reqNum r) (a + 4)).getD (x.obj o 1)) 0 29
        x.findExt id = none → (∃ b ∈ canBuckets id, sget 0 x.hash b = 0) →
        ∃ t, exec (.canObjectCommit h r a v) s = .next t ∧ ((t.half h).canOf c.val).obj o 0 = canWord0 o v ∧
          ((t.half h).canOf c.val).findExt id = some o ∧ (t.half h).answered r = ⟨0, 0⟩))

/-- BUS_OFF_RECOVERY_START, RECOVER, BUS_OFF_RECOVERED, CAN_MODE_WRITE, CAN_MODE_EFFECT, CAN_CLR and
CAN_WAKE_PATTERN (R306, R315, R317 to R319, R322): states and modes of a CAN controller. Recovery from BUS_OFF
starts by itself or by RECOVER and ends in ERROR_ACTIVE with both counts at 0; a write of MODE, and its coming
into effect at bus idle, where a controller that waits for it after a lease returned resumes; the statistics are
cleared; and a wake-up pattern in Fallow wakes the module. What the spec leaves open here is the model's choice
(log entry 48). -/
def Obligations.CanStates : Prop :=
  ∀ (s : State) (h : HalfId) (c : Fin 16) (r : Req) (v : Word),
    let m := s.half h
    let x := m.canOf c.val
    let old := m.rdF (rCanCtrl c.val) 0 2
    let new := fld v 0 2
    (s.quietBus h = true → m.on (0x070 + c.val) = true → x.state = 2 → m.rdB (rCanCtrl c.val) 5 = true →
      ∃ t, exec (.busOffRecoveryStart h c) s = .next t ∧ (t.half h).canOf c.val = { x with recov := true }) ∧
    (s.admits h r (rCanCmd c.val) 1 = true → x.state = 2 →
      ∃ t, exec (.canRecover h r c) s = .next t ∧ (t.half h).canOf c.val = { x with recov := true } ∧ (t.half h).answered r = ⟨0, 0⟩) ∧
    (s.quietBus h = true → m.canOn c.val = true → x.state = 2 → x.recov = true →
      ∃ t, exec (.busOffRecovered c) s = .next t ∧
        (t.half h).canOf c.val = { x with state := 0, tec := 0, rxc := 0, recov := false } ∧
        (t.half h).rdB (pgIrqRaw (0x070 + c.val)) 0 = true ∧ (t.half h).arisen 0x0E03 c.val 2 0 0) ∧
    (s.admits h r (rCanCtrl c.val) v = true → new ≠ 3 → old = 0 ∨ flag v 4 = m.rdB (rCanCtrl c.val) 4 →
      (new = 1 → flag v 4 = true → m.canFast c.val = true → m.rdB (rCanTdc c.val) 31 = true) →
      ∃ t, exec (.canModeWrite h r c v) s = .next t ∧ (t.half h).rdF (rCanCtrl c.val) 0 2 = new ∧
        (new ≠ old → (t.half h).arisen 0x0E06 c.val old new (reqStamp r).toNat) ∧
        (new ≠ old → new ≠ 1 → x.mode ≠ 1 → m.on (0x070 + c.val) = true → ((t.half h).canOf c.val).mode = new) ∧
        (new = old ∨ new = 1 ∨ x.mode = 1 → (t.half h).canOf c.val = x) ∧ (t.half h).answered r = ⟨0, 0⟩) ∧
    (s.quietBus h = true → old = x.mode → ∃ t, exec (.canModeEffect c) s = .next t ∧ (t.half h).canOf c.val = { x with idle := false }) ∧
    (s.quietBus h = true → m.on (0x070 + c.val) = true → old ≠ x.mode →
      ∃ t, exec (.canModeEffect c) s = .next t ∧ ((t.half h).canOf c.val).mode = old ∧
        ((t.half h).canOf c.val).idle = false ∧ (x.mode = 0 → ((t.half h).canOf c.val).state = 0 ∧ ((t.half h).canOf c.val).tec = 0 ∧ ((t.half h).canOf c.val).rxc = 0) ∧
        ((t.half h).canOf c.val).objs = x.objs) ∧
    (s.admits h r (rCanClr c.val) v = true → flag v 0 = true →
      ∃ t, exec (.canClr h r c v) s = .next t ∧ (∀ k, k < 11 → (t.half h).rd (rCanCnt c.val k) = 0) ∧
        (t.half h).can = m.can ∧ (t.half h).answered r = ⟨0, 0⟩) ∧
    (s.runs h = true → s.yoke.pwr.state = 2 → s.yoke.pwr.entry = none → m.rdB (rCanCtrl c.val) 8 = true → s.wakeOn 4 = true →
      ∃ t, exec (.canWakePattern c) s = .next t ∧ t.yoke.pwr.state = 0 ∧ (t.half h).arisen 0x0E08 c.val 0 0 0 ∧
        (t.half h).rdB (pgIrqRaw (0x070 + c.val)) 5 = true)

/-- MSTP_FRAME_RECEIVED, REPLY_POSTPONED, MSTP_NO_TOKEN, MSTP_TIMER_EXPIRY, SER_FRAME_SEND, OSDP_POLL,
OSDP_REPLY, OSDP_REPLY_TIMEOUT, ASYNC_FRAME_END, SER_MODE_WRITE, SER_MODE_EFFECT, SER_SLOT_COMMIT and SER_CLR
(R21, R323 to R330, R338): the serial engines. An MS/TP node answers a poll and a test, takes the token and
passes it on, waits for firmware's reply or postpones it, detects a duplicate of its own address, regenerates a
lost token and polls for masters; an OSDP engine polls its PDs or sends them a queued command, and takes them
online and offline; an ASYNC frame is counted, and one is sent; and modes, slots and the counters are written. A
frame leaves through the output stage of the half that drives it. What the spec leaves open here is the model's
choice (log entry 49). -/
def Obligations.SerialEngines : Prop :=
  ∀ (s : State) (h : HalfId) (e : Fin 16) (r : Req) (v : Word),
    let m := s.half h
    let y := s.view h
    let x := m.serOf e.val
    let ts := m.serTs e.val
    let sends (t : State) (type dest seq : Nat) (data : List Byte) : Prop :=
      (t.half h).sent = m.sent ++ (if y.drives then [.ser e.val type dest seq data] else []) ∧ (t.half h).rd (rSerCnt e.val 1) = m.rd (rSerCnt e.val 1) + 1
    (s.quietBus h = true → m.serProto e.val = 1 → m.serSpeaks y e.val = true →
      (∀ f : MstpFrame, f.framed = true → f.headerOk = true → f.dataOk = true → f.data.length ≤ 501 →
        (f.src = ts →
          ∃ t, exec (.mstpFrameReceived e f) s = .next t ∧ ((t.half h).serOf e.val).dup = true ∧
            (t.half h).arisen 0x0F02 e.val ts 0 0 ∧ (t.half h).rdB (pgIrqRaw (0x080 + e.val)) 2 = true) ∧
        (f.src ≠ ts → f.dest = ts → x.fsm = 0 → f.type = 1 →
          ∃ t, exec (.mstpFrameReceived e f) s = .next t ∧ sends t 2 f.src 0 [] ∧
            (t.half h).rd (rSerCnt e.val 0) = m.rd (rSerCnt e.val 0) + 1) ∧
        (f.src ≠ ts → f.dest = ts → x.fsm = 0 → f.type = 3 →
          ∃ t, exec (.mstpFrameReceived e f) s = .next t ∧ sends t 4 f.src 0 f.data) ∧
        (f.src ≠ ts → f.dest = ts → x.fsm = 0 → f.type = 5 →
          ∃ t, exec (.mstpFrameReceived e f) s = .next t ∧
            (t.half h).serOf e.val = { x with fsm := 6, answer := f.src, token := false } ∧ (t.half h).sent = m.sent) ∧
        (f.src ≠ ts → f.dest = ts → x.fsm = 0 → f.type = 0 → m.serQueued e.val ≠ [] →
          ∃ t, exec (.mstpFrameReceived e f) s = .next t ∧
            (t.half h).serOf e.val = { x with fsm := 1, frmCnt := 0, sole := false, token := true } ∧ (t.half h).sent = m.sent) ∧
        (f.src ≠ ts → f.dest = ts → x.fsm = 0 → f.type = 0 → m.serQueued e.val = [] → x.ns ≠ ts → x.tokCnt < 49 →
          ∃ t, exec (.mstpFrameReceived e f) s = .next t ∧ sends t 0 x.ns 0 [] ∧ ((t.half h).serOf e.val).fsm = 3 ∧
            ((t.half h).serOf e.val).tokCnt = x.tokCnt + 1 ∧ ((t.half h).serOf e.val).token = false)) ∧
      (x.fsm = 6 → ∃ t, exec (.replyPostponed h e) s = .next t ∧ sends t 7 x.answer 0 [] ∧ ((t.half h).serOf e.val).fsm = 0) ∧
      (x.fsm = 0 ∨ x.fsm = 6 →
        ∃ t, exec (.mstpNoToken h e) s = .next t ∧ (t.half h).serOf e.val = { x with fsm := 4, token := false }) ∧
      (x.fsm = 2 → ∃ t, exec (.mstpTimerExpiry h e) s = .next t ∧ (t.half h).rd (rSerCnt e.val 6) = m.rd (rSerCnt e.val 6) + 1) ∧
      (x.fsm = 3 → x.retry = 0 →
        ∃ t, exec (.mstpTimerExpiry h e) s = .next t ∧ sends t 0 x.ns 0 [] ∧ (t.half h).serOf e.val = { x with retry := 1 }) ∧
      (x.fsm = 4 →
        ∃ t, exec (.mstpTimerExpiry h e) s = .next t ∧ sends t 1 ((ts + 1) % (m.rdF (rSerMstp e.val) 8 7 + 1)) 0 [] ∧
          ((t.half h).serOf e.val).fsm = 5 ∧ (t.half h).arisen 0x0F01 e.val ts 0 0) ∧
      (x.fsm = 5 → x.sole = false → x.ns ≠ ts →
        ∃ t, exec (.mstpTimerExpiry h e) s = .next t ∧ sends t 0 x.ns 0 [] ∧ ((t.half h).serOf e.val).fsm = 3) ∧
      (∀ a, x.fsm = 1 → (m.serQueued e.val).head? = some a → (m.serDesc a).ok = true → (m.serDesc a).type = 3 ∨ (m.serDesc a).type = 5 →
        (m.serDesc a).dest ≠ 255 → (m.serDesc a).data.length ≤ 501 →
        ∃ t, exec (.serFrameSend h e) s = .next t ∧ sends t (m.serDesc a).type (m.serDesc a).dest 0 (m.serDesc a).data ∧
          ((t.half h).serOf e.val).fsm = 2 ∧ ((t.half h).serOf e.val).frmCnt = x.frmCnt + 1)) ∧
    (∀ k : Nat, s.quietBus h = true → m.serProto e.val = 2 → let p := x.pd k
      (m.serSpeaks y e.val = true → x.wait = none → m.serQueued e.val = [] → m.pdsOn e.val = [k] →
        ∃ t, exec (.osdpPoll h e) s = .next t ∧ sends t 0x60 (m.pdAddr e.val k) p.seq [] ∧
          (t.half h).serOf e.val = { x with wait := some k, turn := (k + 1) % 16 }) ∧
      (∀ a, m.serSpeaks y e.val = true → x.wait = none → m.serQueued e.val = [a] → m.pdsOn e.val = [k] → (m.serDesc a).ok = true →
        (m.serDesc a).dest = m.pdAddr e.val k →
        ∃ t, exec (.osdpPoll h e) s = .next t ∧ sends t (m.serDesc a).type (m.pdAddr e.val k) p.seq (m.serDesc a).data ∧
          ((t.half h).serOf e.val).wait = some k ∧ ((t.half h).serOf e.val).turn = (k + 1) % 16) ∧
      (∀ f : OsdpReply, m.serHears e.val = true → f.crcOk = true →
        (m.pdsOn e.val).find? (fun j => decide (m.pdAddr e.val j = f.addr)) = some k → x.wait = some k → f.seq = p.seq →
        ∃ t, exec (.osdpReply e f) s = .next t ∧ ((t.half h).serOf e.val).pd k = ⟨true, 0, p.seq % 3 + 1⟩ ∧
          ((t.half h).serOf e.val).wait = none ∧ (p.online = false → (t.half h).arisen 0x0F04 e.val k f.addr 0) ∧
          (f.code = 0x50 → f.secure = false →
            (t.half h).rd (rSerSlot e.val k) = word (leAt f.data 2 2 * 2 ^ 16 + (f.data.getD 1 0).toNat * 2 ^ 8 + f.addr))) ∧
      (x.wait = some k →
        let n := min (p.missed + 1) 255
        let off := p.online && decide (m.rdF (rSerOsdp e.val) 16 4 ≤ n)
        ∃ t, exec (.osdpReplyTimeout h e) s = .next t ∧ ((t.half h).serOf e.val).pd k = ⟨p.online && !off, n, if off then 0 else p.seq⟩ ∧
          ((t.half h).serOf e.val).wait = none ∧ (off = true → (t.half h).arisen 0x0F03 e.val k (m.pdAddr e.val k) n))) ∧
    (s.quietBus h = true → m.serProto e.val = 0 →
      (∀ f : AsyncFrame, m.serHears e.val = true →
        ∃ t, exec (.asyncFrameEnd e f) s = .next t ∧ (t.half h).rd (rSerCnt e.val 0) = m.rd (rSerCnt e.val 0) + 1 ∧
          (t.half h).rd (rSerCnt e.val 2) = m.rd (rSerCnt e.val 2) + word (f.frame + (if 1024 < f.data.length then 1 else 0)) ∧
          (t.half h).rd (rSerCnt e.val 3) = m.rd (rSerCnt e.val 3) + word f.parity) ∧
      (∀ a, m.serSpeaks y e.val = true → (m.serQueued e.val).head? = some a → (m.serDesc a).ok = true →
        ∃ t, exec (.serFrameSend h e) s = .next t ∧ sends t 0 0 0 (m.serDesc a).data)) ∧
    (let old := m.rdF (rSerCtrl e.val) 0 2
     let new := fld v 0 2
     s.admits h r (rSerCtrl e.val) v = true → new ≠ 3 → fld v 4 2 ≠ 3 → old = 0 ∨ fld v 4 2 = m.serProto e.val →
      (new ≠ 0 → serRateOk (fld v 4 2) (m.rdF (rSerBaud e.val) 0 22) = true) →
      ∃ t, exec (.serModeWrite h r e v) s = .next t ∧ (t.half h).rdF (rSerCtrl e.val) 0 2 = new ∧
        (t.half h).serProto e.val = fld v 4 2 ∧ ((t.half h).serOf e.val).dup = false ∧
        (new ≠ old → (t.half h).arisen 0x0F05 e.val old new (reqStamp r).toNat) ∧
        (new ≠ old → new ≠ 1 → m.on (0x080 + e.val) = true → ((t.half h).serOf e.val).mode = new) ∧
        (new = 1 → ((t.half h).serOf e.val).mode = x.mode) ∧ (t.half h).answered r = ⟨0, 0⟩) ∧
    (s.quietBus h = true → m.on (0x080 + e.val) = true → x.mode ≠ m.rdF (rSerCtrl e.val) 0 2 ∨ x.idle = true →
      ∃ t, exec (.serModeEffect e) s = .next t ∧ ((t.half h).serOf e.val).mode = m.rdF (rSerCtrl e.val) 0 2 ∧
        ((t.half h).serOf e.val).idle = false ∧ ((t.half h).serOf e.val).fsm = 0 ∧ ((t.half h).serOf e.val).token = false ∧
        ((t.half h).serOf e.val).ns = ts) ∧
    (∀ sl : Fin 64, s.admits h r (rSerSlot e.val sl.val) v = true →
      ∃ t, exec (.serSlotCommit h r e sl v) s = .next t ∧
        (t.half h).rdWords (rSerSlot e.val sl.val) 4 = (m.ageStaged (reqNum r)).commitWords (reqNum r) (rSerSlot e.val sl.val) 4 v ∧
        (t.half h).answered r = ⟨0, 0⟩) ∧
    (s.admits h r (rSerClr e.val) v = true → flag v 0 = true →
      ∃ t, exec (.serClr h r e v) s = .next t ∧ (∀ k, k < 7 → (t.half h).rd (rSerCnt e.val k) = 0) ∧ (t.half h).ser = m.ser ∧
        (t.half h).answered r = ⟨0, 0⟩)

/-- DALI_TX_SUBMIT, DALI_SETTLING_END, DALI_FORWARD_END, DALI_BACKWARD_FRAME, DALI_REPLY_WINDOW_CLOSE,
DALI_COLLISION, DALI_POLL, DALI_FORWARD_RECEIVED, DALI_BUS_DOWN, DALI_BUS_UP, DALI_MODE_WRITE and DALI_CLR (R21,
R54, R331 to R336, R339): a DALI line. A transaction submitted joins the queue of its line, or is refused with
FULL when it holds 32; after the settling time a change to NORMAL or a returned lease takes effect, and then the
first of the highest priority takes the line; its forward frame leaves through the output stage of the half that
drives it; the end of that frame, the backward frame, the closing of the reply window and a collision after
three retries end the transaction with results SENT, REPLY, NO_REPLY, CORRUPT and COLLISION; a poll queues its
query at priority 5; a line that goes down ends every transaction with BUS_DOWN; and modes and counters are
written. What the spec leaves open here is the model's choice (log entry 50). -/
def Obligations.DaliLines : Prop :=
  ∀ (s : State) (h : HalfId) (l : Fin 8) (r : Req) (v : Word),
    let m := s.half h
    let y := s.view h
    let n := reqNum r
    let x := m.daliOf l.val
    let shows (t : State) (u : DaliTx) (result back : Nat) : Prop :=
      ((t.half h).daliOf l.val).cur = none ∧ ((t.half h).daliOf l.val).phase = 0 ∧
        (u.src = 0 → sfind x.last u.who = some u.order →
          (t.half h).view u.who (rDaliTxStat l.val) = word (2 ^ 31 + result * 2 ^ 24 + back * 2 ^ 16))
    (s.admits h r (rDaliTx l.val) v = true → (flag v 31 = true → flag v 30 = false) →
      1 ≤ fld v 16 3 → fld v 16 3 ≤ 5 →
      (x.q.length < 32 →
        ∃ t, exec (.daliTxSubmit h r l v) s = .next t ∧ ((t.half h).daliOf l.val).q =
          x.q ++ [⟨fld (((m.ageStaged n).stWords n (rDaliTx l.val) 2 v).getD 1 0) 0 (if flag v 24 then 24 else 16), flag v 24, flag v 31,
            flag v 30, fld v 16 3, x.order, 0, n, 0⟩] ∧
          (t.half h).view n (rDaliTxStat l.val) = 0 ∧ (t.half h).answered r = ⟨0, 0⟩) ∧
      (32 ≤ x.q.length →
        ∃ t, exec (.daliTxSubmit h r l v) s = .next t ∧ (t.half h).dali = m.dali ∧
          (t.half h).view n (rDaliTxStat l.val) = 0x8000000C ∧ (t.half h).answered r = ⟨12, 0⟩)) ∧
    (s.quietBus h = true → m.on (0x090 + l.val) = true → m.rdF (rDaliCtrl l.val) 0 2 = 1 → x.mode ≠ 1 →
      ∃ t, exec (.daliSettlingEnd h l) s = .next t ∧ ((t.half h).daliOf l.val).mode = 1 ∧ ((t.half h).daliOf l.val).idle = false ∧
        ((t.half h).daliOf l.val).phase = 0 ∧ ((t.half h).daliOf l.val).cur = none) ∧
    (s.quietBus h = true → x.mode = 1 → m.daliOn l.val = true → y.any = true → x.down = false → x.phase = 0 → x.idle = true →
      ∃ t, exec (.daliSettlingEnd h l) s = .next t ∧ (t.half h).daliOf l.val = { x with idle := false }) ∧
    (∀ u : DaliTx, s.quietBus h = true → x.mode = 1 → x.idle = false → m.daliOn l.val = true → y.any = true →
      x.down = false → x.phase = 0 → x.cur = none → u ∈ x.q → (∀ w ∈ x.q, w = u ∨ u.prio < w.prio ∨ (u.prio = w.prio ∧ u.order < w.order)) →
      ∃ t, exec (.daliSettlingEnd h l) s = .next t ∧ ((t.half h).daliOf l.val).cur = some u ∧ ((t.half h).daliOf l.val).phase = 1) ∧
    (∀ u : DaliTx, s.quietBus h = true → x.cur = some u →
      (x.phase = 1 → u.twice = true → x.second = false →
        ∃ t, exec (.daliForwardEnd l) s = .next t ∧ (t.half h).sent = m.sent ++ (if y.drives then [.dali l.val u.frame u.long] else []) ∧
          (t.half h).daliOf l.val = { x with phase := 0, second := true }) ∧
      (x.phase = 1 → u.twice = false ∨ x.second = true → u.reply = true →
        ∃ t, exec (.daliForwardEnd l) s = .next t ∧ (t.half h).sent = m.sent ++ (if y.drives then [.dali l.val u.frame u.long] else []) ∧
          (t.half h).daliOf l.val = { x with phase := 2 }) ∧
      (x.phase = 1 → u.twice = false ∨ x.second = true → u.reply = false →
        ∃ t, exec (.daliForwardEnd l) s = .next t ∧ (t.half h).sent = m.sent ++ (if y.drives then [.dali l.val u.frame u.long] else []) ∧ shows t u 1 0) ∧
      (∀ f : DaliBackward, m.daliOn l.val = true → x.phase = 2 →
        ∃ t, exec (.daliBackwardFrame l f) s = .next t ∧ shows t u (if f.corrupt then 4 else 2) f.value.toNat ∧
          (t.half h).rd (rDaliCnt l.val (if f.corrupt then 3 else 1)) = m.rd (rDaliCnt l.val (if f.corrupt then 3 else 1)) + 1) ∧
      (x.phase = 2 → ∃ t, exec (.daliReplyWindowClose l) s = .next t ∧ shows t u 3 0 ∧
        (t.half h).rd (rDaliCnt l.val 2) = m.rd (rDaliCnt l.val 2) + 1) ∧
      (x.phase = 1 → u.tries < 3 →
        ∃ t, exec (.daliCollision l) s = .next t ∧
          (t.half h).daliOf l.val = { x with cur := some { u with tries := u.tries + 1 }, phase := 0, second := false } ∧
          (t.half h).rd (rDaliCnt l.val 4) = m.rd (rDaliCnt l.val 4) + 1) ∧
      (x.phase = 1 → 3 ≤ u.tries → ∃ t, exec (.daliCollision l) s = .next t ∧ shows t u 5 0 ∧ (t.half h).arisen 0x0F13 l.val 5 u.frame 0)) ∧
    (∀ b : Nat, s.quietBus h = true → m.daliOn l.val = true → let d := m.srcDesc b
      bEn d = true → bKind d = 4 → bByte d 8 = l.val → bByte d 9 = 0 → x.q.length < 32 →
      x.q.any (fun t => decide (t.src = 3) && decide (t.who = b)) = false →
      let long := decide (bByte d 13 = 1)
      ∃ t, exec (.daliPoll h l b) s = .next t ∧ ((t.half h).daliOf l.val).q =
        x.q ++ [⟨bByte d 10 + 256 * bByte d 11 + (if long then 65536 * bByte d 12 else 0), long, true, false, 5, x.order, 3, b, 0⟩]) ∧
    (∀ f : DaliForward, s.quietBus h = true → m.daliOn l.val = true →
      ∃ t, exec (.daliForwardReceived l f) s = .next t ∧ (t.half h).rd (rDaliCnt l.val 5) = m.rd (rDaliCnt l.val 5) + 1 ∧
        ((t.half h).daliOf l.val).q = x.q ∧ ((t.half h).daliOf l.val).cur = x.cur) ∧
    (s.quietBus h = true → m.daliOn l.val = true → x.down = false →
      ∃ t, exec (.daliBusDown l) s = .next t ∧ ((t.half h).daliOf l.val).down = true ∧ ((t.half h).daliOf l.val).q = [] ∧
        ((t.half h).daliOf l.val).cur = none ∧ (t.half h).arisen 0x0F11 l.val (x.cur.toList ++ x.q).length 0 0 ∧
        (∀ u ∈ x.cur.toList ++ x.q, (t.half h).arisen 0x0F13 l.val 6 u.frame 0) ∧
        (t.half h).rdB (pgIrqRaw (0x090 + l.val)) 2 = true) ∧
    (s.quietBus h = true → m.daliOn l.val = true → x.down = true →
      ∃ t, exec (.daliBusUp l) s = .next t ∧ (t.half h).daliOf l.val = { x with down := false } ∧
        (t.half h).arisen 0x0F12 l.val ((m.up - x.downAt) / oneMs) 0 0) ∧
    (let old := m.rdF (rDaliCtrl l.val) 0 2
     let new := fld v 0 2
     s.admits h r (rDaliCtrl l.val) v = true → new ≠ 3 →
      ∃ t, exec (.daliModeWrite h r l v) s = .next t ∧ (t.half h).rdF (rDaliCtrl l.val) 0 2 = new ∧
        (new ≠ old → (t.half h).arisen 0x0F14 l.val old new (reqStamp r).toNat) ∧
        (new ≠ old → new ≠ 1 → m.on (0x090 + l.val) = true → ((t.half h).daliOf l.val).mode = new) ∧
        (new = 1 → (t.half h).daliOf l.val = x) ∧ (t.half h).answered r = ⟨0, 0⟩) ∧
    (s.admits h r (rDaliClr l.val) v = true → flag v 0 = true →
      ∃ t, exec (.daliClr h r l v) s = .next t ∧ (∀ k, k < 7 → (t.half h).rd (rDaliCnt l.val k) = 0) ∧ (t.half h).dali = m.dali ∧
        (t.half h).answered r = ⟨0, 0⟩)

/-- ETH_FRAME_RECEIVED, ETH_FRAME_TRANSMIT, ETH_COLLISION, PRP_SUPERVISION, PRP_LAN_TIMEOUT, PRP_ENTRY_FORGET,
PLCA_BEACON_LOST, PLCA_BEACON_RETURN and PLCA_BEACON_SEND (R78, R340, R344 to R350): frames of the Ethernet
ports. A frame with a bad FCS is only counted, and a good one counts with its bytes; a second copy of a PRP
frame that is not forgotten is discarded; the frame at the head of a transmit queue leaves where the port may
send, with a good FCS while its grain tag holds and a bad one where it does not, with an RCT on the building
pair; a frame of an unbound port is dropped; a collision is retried up to 16 attempts; and the PRP and PLCA
timers act. What the spec leaves open here is the model's choice (log entries 14, 44 and 51). -/
def Obligations.EthernetFrames : Prop :=
  ∀ (s : State) (h : HalfId) (port : EthPort),
    let m := s.half h
    let y := s.view h
    let p := ethPage port
    (∀ f : EthRx, s.quietBus h = true → m.macLink p = 3 → f.symbol = false → 60 ≤ f.bytes.length → f.bytes.length ≤ 1518 →
      (f.fcsOk = false →
        ∃ t, exec (.ethFrameReceived port f) s = .next t ∧ (t.half h).rd (rMacCnt p 0) = m.rd (rMacCnt p 0) ∧
          (t.half h).rd (rMacCnt p (if f.aligned then 11 else 12)) = m.rd (rMacCnt p (if f.aligned then 11 else 12)) + 1) ∧
      (f.fcsOk = true → udpOf f.bytes = none → (etherType f.bytes).1 ≠ 0x8808 → (etherType f.bytes).1 ≠ 0x88F7 →
        ∃ t, exec (.ethFrameReceived port f) s = .next t ∧ (t.half h).rd (rMacCnt p 0) = m.rd (rMacCnt p 0) + 1 ∧
          (t.half h).rd (rMacCnt p 1) = m.rd (rMacCnt p 1) + word (f.bytes.length + 4)) ∧
      (∀ (seq : Nat) (n : PrpNode), let lanB := decide (p = 0xA1)
        f.fcsOk = true → isBld p = true → m.on 0xA2 = true → udpOf f.bytes = none →
        rctOf f.bytes = some (seq, if lanB then 0xB else 0xA) →
        m.prp.nodes.find? (fun n => decide (n.src = beAt f.bytes 6 6)) = some n → n.seqs.any (fun e => decide (e.1 = seq) && m.prpFresh e.2.2) = true →
        ∃ t, exec (.ethFrameReceived port f) s = .next t ∧ (t.half h).prp.nodes = m.prp.nodes ∧
          (t.half h).rd (rPrpCnt (if lanB then 5 else 4)) = m.rd (rPrpCnt (if lanB then 5 else 4)) + 1)) ∧
    (∀ (f : EthFrame) (fs : List EthFrame), let q := m.macTake p
      s.quietBus h = true → q.sheavesIdle = true → (q.macOf p).txq = f :: fs →
      (q.macBound p = false → ∃ t, exec (.ethFrameTransmit h port) s = .next t ∧ ((t.half h).macOf p).txq = fs ∧ (t.half h).sent = m.sent) ∧
      (q.macBound p = true → q.macMaySend y p = true → f.sheaf = none →
        let rct := match f.pay with
          | .ptp _ => []
          | _ => if isBld p && q.on 0xA2 then rctBytes p ((q.rdF rPrpSeq 0 16 + 1) % 2 ^ 16) (max 64 (payLen f.pay) - 4) else []
        let goes (good : Bool) : List Sent := if isBld p || y.drives || y.svc then [.eth (macPort p) (q.payNow f) rct good] else []
        (q.tagHolds f = true →
          ∃ t, exec (.ethFrameTransmit h port) s = .next t ∧ ((t.half h).macOf p).txq = fs ∧
            (t.half h).rd (rMacCnt p 19) = q.rd (rMacCnt p 19) + 1 ∧ (t.half h).sent = m.sent ++ goes true) ∧
        (q.tagHolds f = false →
          ∃ t, exec (.ethFrameTransmit h port) s = .next t ∧ ((t.half h).macOf p).txq = fs ∧ (t.half h).sent = m.sent ++ goes false ∧
            (t.half h).rd (rMacCnt p 27) = q.rd (rMacCnt p 27) + 1 ∧ (t.half h).rdB (pgIrqRaw p) 2 = true))) ∧
    (∀ (f : EthFrame) (fs : List EthFrame) (late : Bool), s.quietBus h = true → m.sheavesIdle = true → (m.macOf p).txq = f :: fs →
      m.macMaySend y p = true → (m.macOf p).fdx = false → f.sheaf = none → m.rdB (rMacPlca p) 31 = false ∨ (m.macOf p).fallback = true ∨ isFld p = false →
      ((m.macOf p).tries < 15 →
        ∃ t, exec (.ethCollision h port late) s = .next t ∧ (t.half h).macOf p = { m.macOf p with tries := (m.macOf p).tries + 1 } ∧
          (t.half h).rd (rMacCnt p (if late then 25 else 24)) = m.rd (rMacCnt p (if late then 25 else 24)) + 1) ∧
      (15 ≤ (m.macOf p).tries →
        ∃ t, exec (.ethCollision h port late) s = .next t ∧ ((t.half h).macOf p).txq = fs ∧ ((t.half h).macOf p).tries = 0 ∧
          (t.half h).rd (rMacCnt p 26) = m.rd (rMacCnt p 26) + 1)) ∧
    (s.quietBus h = true → m.on 0xA2 = true → m.rdB rPrpCtrl 0 = true →
      let b := if m.self = .a then 0xA0 else 0xA1
      ∃ t, exec (.prpSupervision h) s = .next t ∧ (t.half h).queued b = m.queued b ++ [.supervision]) ∧
    (s.quietBus h = true → m.on 0xA2 = true →
      (m.prp.faultA = false → m.prp.heardA < m.prp.heardB → m.prp.heardA + m.rdF rPrpCtrl 16 8 * oneSec ≤ m.up →
        ∃ t, exec (.prpLanTimeout false) s = .next t ∧ (t.half h).prp = { m.prp with faultA := true } ∧
          (t.half h).arisen 0x1004 0xA 1 ((m.up - m.prp.heardA) / oneSec) 0) ∧
      (m.prp.faultB = false → m.prp.heardB < m.prp.heardA → m.prp.heardB + m.rdF rPrpCtrl 16 8 * oneSec ≤ m.up →
        ∃ t, exec (.prpLanTimeout true) s = .next t ∧ (t.half h).prp = { m.prp with faultB := true } ∧
          (t.half h).arisen 0x1004 0xB 1 ((m.up - m.prp.heardB) / oneSec) 0)) ∧
    (∀ src seq : Nat, s.quietBus h = true →
      (∃ t, exec (.prpEntryForget h src none) s = .next t ∧ (t.half h).prp.nodes =
        m.prp.nodes.filter (fun n => decide (n.src ≠ src) || decide (m.up < n.since + m.rdF rPrpForget 16 16 * oneSec))) ∧
      (∃ t, exec (.prpEntryForget h src (some seq)) s = .next t ∧
        ∀ n ∈ (t.half h).prp.nodes, n.src = src → ∀ e ∈ n.seqs, e.1 ≠ seq ∨ m.prpFresh e.2.2 = true)) ∧
    (∀ i : Fin 8, let q := 0xB0 + i.val
      s.quietBus h = true →
      (m.macLink q = 3 → m.isT1s q = true → m.rdB (rMacPlca q) 31 = true → m.rdF (rMacPlca q) 16 8 ≠ 0 →
        ∃ t, exec (.plcaBeaconLost i) s = .next t ∧ (t.half h).macOf q = { m.macOf q with fallback := true } ∧
          (t.half h).rd (rMacCnt q 29) = m.rd (rMacCnt q 29) + 1) ∧
      (∃ t, exec (.plcaBeaconReturn i) s = .next t ∧ (t.half h).macOf q = { m.macOf q with fallback := false }) ∧
      (m.macMaySend y q = true → m.isT1s q = true → m.rdB (rMacPlca q) 31 = true → m.rdF (rMacPlca q) 16 8 = 0 → y.drives = true →
        ∃ t, exec (.plcaBeaconSend h i) s = .next t ∧ (t.half h).sent = m.sent ++ [.beacon (macPort q)]))

/-- LINK_ENERGY_DETECT, LINK_UP, TRAINING_TIMEOUT, TRAINING_NO_COMMON_MODE, LINK_DOWN, TEST, NORMAL,
RENEGOTIATE, MAC_MODE_WRITE, MAC_CLR and PRP_CLR (R351 to R355, R358, R359, Table 14.5): the links of the
Ethernet ports. Energy starts training, a resolved mode raises the link, which falls back to DOWN with its
reason; MAC.CMD and MODE act; and the counters are cleared. What the spec leaves open here is the model's choice
(log entries 3 and 51). -/
def Obligations.EthernetLinks : Prop :=
  ∀ (s : State) (h : HalfId) (port : EthPort) (r : Req) (v : Word),
    let m := s.half h
    let p := ethPage port
    (s.quietBus h = true →
      (m.macLink p = 1 → m.isT1s p = false →
        ∃ t, exec (.linkEnergyDetect port) s = .next t ∧ (t.half h).macLink p = 2 ∧ (t.half h).rdB (pgIrqRaw p) 0 = true) ∧
      (∀ x : LinkMode, m.macLink p = (if m.isT1s p then 1 else 2) → m.macModeOk p x = true →
        ∃ t, exec (.linkUp port x) s = .next t ∧ (t.half h).macLink p = 3 ∧ ((t.half h).macOf p).fdx = x.full ∧
          ((t.half h).macOf p).speed = x.speed ∧ ((t.half h).macOf p).everUp = true ∧
          (t.half h).arisen 0x1001 (macPort p) x.speed x.full.toNat 0) ∧
      (m.macLink p = 2 →
        (∃ t, exec (.trainingTimeout port) s = .next t ∧ (t.half h).macLink p = 1 ∧ ((t.half h).macOf p).reason = 3) ∧
        (∃ t, exec (.trainingNoCommonMode port) s = .next t ∧ (t.half h).macLink p = 1 ∧ ((t.half h).macOf p).reason = 2)) ∧
      (∀ reason : Nat, m.macLink p = 3 →
        let why := if reason = 4 then 4 else 1
        ∃ t, exec (.linkDown port reason) s = .next t ∧ (t.half h).macLink p = 1 ∧ ((t.half h).macOf p).reason = why ∧
          (t.half h).rd (rMacCnt p 30) = m.rd (rMacCnt p 30) + 1 ∧
          (t.half h).arisen 0x1002 (macPort p) why ((m.up - (m.macOf p).upAt) / oneSec) 0)) ∧
    (s.admits h r (rMacCmd p) (putFld v 0 4 1) = true → m.macLink p ≠ 0 → m.macLink p ≠ 4 →
      ∃ t, exec (.macTest h r port v) s = .next t ∧ (t.half h).macLink p = 4 ∧ ((t.half h).macOf p).test = fld v 4 4 ∧
        (t.half h).answered r = ⟨0, 0⟩) ∧
    (s.admits h r (rMacCmd p) (putFld v 0 4 2) = true → m.macLink p = 4 →
      ∃ t, exec (.macNormal h r port v) s = .next t ∧ (t.half h).macLink p = 1 ∧ (t.half h).answered r = ⟨0, 0⟩) ∧
    (s.admits h r (rMacCmd p) (putFld v 0 4 3) = true →
      (m.macLink p = 3 → m.isT1s p = false →
        ∃ t, exec (.macRenegotiate h r port v) s = .next t ∧ (t.half h).macLink p = 1 ∧ ((t.half h).macOf p).reason = 0 ∧
          (t.half h).answered r = ⟨0, 0⟩) ∧
      (m.macLink p = 1 ∨ m.macLink p = 2 ∨ (m.macLink p = 3 ∧ m.isT1s p = true) →
        ∃ t, exec (.macRenegotiate h r port v) s = .next t ∧ (t.half h).mac = m.mac ∧ (t.half h).answered r = ⟨0, 0⟩)) ∧
    (let new := fld v 0 2
     s.admits h r (rMacCtrl p) v = true → new ≠ 3 → (new = 2 → isFld p = true ∧ flag v 4 = false) →
      (isFld p = true → m.macMode p ≠ 0 → flag v 4 = m.rdB (rMacCtrl p) 4) →
      ∃ t, exec (.macModeWrite h r port v) s = .next t ∧ (t.half h).macMode p = new ∧ ((t.half h).macOf p).dup = false ∧
        (new = 0 → (t.half h).macLink p = 0) ∧
        (new ≠ m.macMode p → (t.half h).arisen 0x1008 (macPort p) (m.macMode p) new (reqStamp r).toNat) ∧
        (t.half h).answered r = ⟨0, 0⟩) ∧
    (s.admits h r (rMacClr p) v = true → flag v 0 = true →
      ∃ t, exec (.macClr h r port v) s = .next t ∧ (∀ k, k < 31 → (t.half h).rd (rMacCnt p k) = 0) ∧ (t.half h).rd (rMacHalf p) = 0 ∧
        (t.half h).mac = m.mac ∧ (t.half h).answered r = ⟨0, 0⟩) ∧
    (s.admits h r rPrpClr v = true → flag v 0 = true →
      ∃ t, exec (.prpClr h r v) s = .next t ∧ (∀ k, k < 9 → (t.half h).rd (rPrpCnt k) = 0) ∧ (t.half h).rd rPrpHalf = 0 ∧
        (t.half h).prp = m.prp ∧ (t.half h).answered r = ⟨0, 0⟩)

/-- MZ_SIGNAL_DETECT, MZ_SYNC_TIMEOUT, MZ_LINK_LOST, MZ_LINK_RECEIVE, LINK_FRAME_SEND, NO_HALF_TIMEOUT,
DUP_ENTRY_FORGET, FWD_NS_UPDATE, WAKE_TX, MZP_KEY_COMMIT, KEY_CTRL_WRITE, MZ_CLR and MZP_CLR (R362 to R364,
R366, R369, R370, R372, R374, R377, R380, R381, Tables 15.1, 15.2 and 15.7): the links of the Merzin ports. A
signal, the end of the sync time, a LINK frame and a lost link move the link; a LINK frame whose tag verifies
brings the link UP, one of a wrong tag counts RX_TAG, and one of a bad header, end or grain tag its own counter;
LINK frames leave, with the grain tag computed; the relays close when no half speaks; a duplicate entry that has
expired is forgotten and a fresh one stays; FWD_NS takes the longest latency; WAKE frames leave; and keys, the
key control and the counters are written. What the spec leaves open here is the model's choice (log entries 3
and 52). -/
def Obligations.MerzinLinks : Prop :=
  ∀ (s : State) (h : HalfId) (p : Fin 4) (r : Req) (v : Word),
    let m := s.half h
    let y := s.view h
    let n := reqNum r
    let l := m.mzLink p.val
    (s.quiet h = true → y.shut p.val = false →
      (l = 1 →
        ∃ t, exec (.mzSignalDetect p) s = .next t ∧ (t.half h).mzLink p.val = 2 ∧ ((t.half h).mzp p.val).keyed = false ∧
          ((t.half h).mzp p.val).delays = [] ∧ (t.half h).rd (rMzpDelay p.val) = 310) ∧
      (∀ x : MzRx, 2 ≤ l → x.frame.kind = 1 → x.frame.payload.length = 24 →
        let pay := x.frame.payload
        let ok := m.mzTagOk p.val (leAt pay 0 2) (leAt pay 2 1) x
        (x.hcheck ≠ mzHcheck x.frame ∨ x.frame.dest = 0 →
          ∃ t, exec (.mzLinkReceive p x) s = .next t ∧ (t.half h).rd (rMzpCnt p.val 5) = m.rd (rMzpCnt p.val 5) + 1 ∧
            (t.half h).mzLink p.val = l) ∧
        (x.hcheck = mzHcheck x.frame → x.frame.dest ≠ 0 →
          (x.ended = false →
            ∃ t, exec (.mzLinkReceive p x) s = .next t ∧ (t.half h).rd (rMzpCnt p.val 8) = m.rd (rMzpCnt p.val 8) + 1 ∧
              (t.half h).mzLink p.val = l) ∧
          (x.ended = true → x.grain ≠ mzGrain x.frame →
            ∃ t, exec (.mzLinkReceive p x) s = .next t ∧ (t.half h).rd (rMzpCnt p.val 7) = m.rd (rMzpCnt p.val 7) + 1 ∧
              (t.half h).mzLink p.val = l) ∧
          (x.ended = true → x.grain = mzGrain x.frame →
            (ok = true → l = 2 → m.rdB (rMzpKeyCtrl p.val) 8 = true →
              ∃ t, exec (.mzLinkReceive p x) s = .next t ∧ (t.half h).mzLink p.val = 4 ∧ ((t.half h).mzp p.val).neigh = leAt pay 0 2 ∧
                ((t.half h).mzp p.val).nport = leAt pay 2 1 ∧ ((t.half h).mzp p.val).lastLink = m.up ∧
                ((t.half h).mzp p.val).echoTx = leAt pay 4 8) ∧
            (ok = false → l = 2 →
              ∃ t, exec (.mzLinkReceive p x) s = .next t ∧ (t.half h).mzLink p.val = 3 ∧
                (t.half h).rd (rMzpCnt p.val 6) = m.rd (rMzpCnt p.val 6) + 1)))) ∧
      (2 ≤ l → m.mzMaySend y p.val = true →
        ∃ t w, exec (.linkFrameSend h p) s = .next t ∧ (t.half h).sent = m.sent ++ (if p.val < 2 ∨ y.drives then [.mz p.val w] else []) ∧
          w.frame.kind = 1 ∧ w.frame.src = m.addr ∧ w.frame.dest = 0xFFFF ∧ w.frame.payload.length = 24 ∧
          w.frame.payload.take 4 = leBytes 2 m.addr ++ [BitVec.ofNat 8 p.val, BitVec.ofNat 8 (halfNum m.self)] ∧
          w.hcheck = mzHcheck w.frame ∧ w.grain = mzGrain w.frame ∧
          (t.half h).rd (rMzpCnt p.val 2) = m.rd (rMzpCnt p.val 2) + 1)) ∧
    (s.quiet h = true → l = 2 → ∃ t, exec (.mzSyncTimeout p) s = .next t ∧ (t.half h).mzLink p.val = 1) ∧
    (∀ cause : Nat, s.quiet h = true → 2 ≤ l →
      ∃ t, exec (.mzLinkLost p cause) s = .next t ∧ (t.half h).mzLink p.val = 1 ∧
        (t.half h).rd (rMzpCnt p.val 12) = m.rd (rMzpCnt p.val 12) + 1 ∧ (t.half h).arisen 0x1102 p.val l cause 0) ∧
    (s.yoke.relay = false →
      (s.speaks .a = false → s.speaks .b = false → ∃ t, exec .noHalfTimeout s = .next t ∧ t.yoke.relay = true ∧
        (s.quiet h = true → (t.half h).arisen 0x1108 1 3 0 0 ∧ (2 ≤ l → p.val < 2 → (t.half h).mzLink p.val = 1))) ∧
      (s.speaks .a = true ∨ s.speaks .b = true → exec .noHalfTimeout s = .next s)) ∧
    (∀ (k : Nat) (e : MzDup), s.quiet h = true → sfind m.mz.dups k = some e →
      ∃ t, exec (.dupEntryForget h k) s = .next t ∧ sfind (t.half h).mz.dups k = (if m.dupFresh e then some e else none) ∧
        (∀ j, j ≠ k → sfind (t.half h).mz.dups j = sfind m.mz.dups j)) ∧
    (s.quiet h = true → m.mz.fwdMax ≠ 0 →
      ∃ t, exec (.fwdNsUpdate h) s = .next t ∧ (t.half h).rdN rMzFwdNs = (m.mz.fwdMax + 9) / 10 * 10 % 2 ^ 16 ∧
        (t.half h).mz.fwdMax = 0) ∧
    (s.admits h r rMzWakeTx v = true → flag v 0 = true → s.ringOpen h p.val = true →
      ∃ t, exec (.wakeTx h r v) s = .next t ∧ originates s t h p.val (fld v 16 16) 2 (leBytes 4 (m.rdN rMzWakeCode) ++ [0, 0, 0, 0]) ∧
        (t.half h).answered r = ⟨0, 0⟩) ∧
    (∀ slot : Fin 2, s.admits h r (if slot.val = 0 then rMzpKey0 p.val else rMzpKey1 p.val) v = true →
      m.rdF (rMzpKeyCtrl p.val) 0 1 ≠ slot.val →
      ∃ t ws, exec (.mzpKeyCommit h r p slot v) s = .next t ∧ ((t.half h).mzp p.val).key slot.val = some (v :: ws) ∧
        ws = (List.range 7).map (fun i => ((m.ageStaged n).stagedWord n ((if slot.val = 0 then rMzpKey0 p.val else rMzpKey1 p.val) + 4 * (i + 1))).getD 0) ∧
        ((t.half h).mzp p.val).rxCnt slot.val = 0 ∧ ((t.half h).mzp p.val).key (1 - slot.val) = (m.mzp p.val).key (1 - slot.val) ∧
        (t.half h).answered r = ⟨0, 0⟩) ∧
    (let slot := fld v 0 1
     s.admits h r (rMzpKeyCtrl p.val) v = true → fld v 4 2 ≠ 0 → ((m.mzp p.val).key slot).isSome = true →
      ∃ t, exec (.keyCtrlWrite h r p v) s = .next t ∧ (t.half h).rdF (rMzpKeyCtrl p.val) 0 1 = slot ∧
        (t.half h).rdF (rMzpKeyCtrl p.val) 4 2 = fld v 4 2 ∧ (t.half h).rdB (rMzpKeyCtrl p.val) 8 = flag v 8 ∧
        (slot ≠ m.rdF (rMzpKeyCtrl p.val) 0 1 → (t.half h).arisen 0x1107 p.val slot (fld v 4 2) (reqStamp r).toNat) ∧
        (flag v 8 = false → l = 4 → (t.half h).mzLink p.val = 3) ∧ (t.half h).answered r = ⟨0, 0⟩) ∧
    (s.admits h r rMzClr v = true → flag v 0 = true →
      ∃ t, exec (.mzClr h r v) s = .next t ∧ (∀ k, k < 3 → (t.half h).rd (rMzCnt k) = 0) ∧ (t.half h).rd rMzHalf = 0 ∧
        (t.half h).mz = m.mz ∧ (t.half h).answered r = ⟨0, 0⟩) ∧
    (s.admits h r (rMzpClr p.val) v = true → flag v 0 = true →
      ∃ t, exec (.mzpClr h r p v) s = .next t ∧ (∀ k, k < 14 → (t.half h).rd (rMzpCnt p.val k) = 0) ∧
        (t.half h).rd (rMzpHalf p.val) = 0 ∧ (t.half h).mz = m.mz ∧ (t.half h).answered r = ⟨0, 0⟩)

/-- MZ_HEADER_RECEIVED, MZ_FRAME_TAIL, MZ_PUBLISH_RECEIVE, MZ_POINT_WRITE_RECEIVE, MZ_IPP_REQ_RECEIVE,
MZ_IPP_RSP_RECEIVE and MZ_APP_RECEIVE (R366, R369, R371 to R375, R99, R129, R132, R150, R367, Tables 15.4, 15.6
and 15.7): Merzin frames. A header that fails is counted, one whose budget is spent and a duplicate are dropped,
a further copy of a frame under way is held, and any other is accepted, with its entry in the duplicate table
and its budget less the hop cost; a first copy whose grain tag is wrong at its tail withdraws the entry, and its
forwarded copies are stomped; one that passes is forwarded with the same grain tag, and delivered where it is
for this module. A published value reaches its source binding, a point write the queue, a request its response,
a response the waiting request, and an application frame its queue, unless it repeats a sheaf pair. What the
spec leaves open here is the model's choice (log entries 44 and 52). -/
def Obligations.MerzinFrames : Prop :=
  ∀ (s : State) (h : HalfId) (p : Fin 4) (x : MzRx) (f : MzFrame),
    let m := s.half h
    let y := s.view h
    let g := x.frame
    let key := dupKey g.src g.stream
    (s.quiet h = true → y.shut p.val = false → m.mzLink p.val = 4 → g.kind ≠ 1 →
      (x.hcheck ≠ mzHcheck g ∨ g.dest = 0 →
        ∃ t, exec (.mzHeaderReceived p x) s = .next t ∧ (t.half h).rd (rMzpCnt p.val 5) = m.rd (rMzpCnt p.val 5) + 1 ∧
          (t.half h).mz.flights = m.mz.flights) ∧
      (x.hcheck = mzHcheck g → g.dest ≠ 0 →
        (g.budget ≤ m.hopCost p.val →
          ∃ t, exec (.mzHeaderReceived p x) s = .next t ∧ (t.half h).rd (rMzpCnt p.val 10) = m.rd (rMzpCnt p.val 10) + 1 ∧
            (t.half h).mz.flights = m.mz.flights) ∧
        (m.hopCost p.val < g.budget →
          let g1 := { g with budget := g.budget - m.hopCost p.val }
          (∀ z, m.mzFirst g = some z →
            ∃ t, exec (.mzHeaderReceived p x) s = .next t ∧
              (t.half h).mz.flights = m.mz.flights ++ [⟨g1, p.val, m.mzOuts p.val g1, none, true, false⟩]) ∧
          (m.mzFirst g = none →
            (∀ e, sfind m.mz.dups key = some e → m.dupFresh e = false) → (sfind m.mz.dups key = none → m.mz.dups.length < 4096) →
            ∃ t, exec (.mzHeaderReceived p x) s = .next t ∧
              (t.half h).mz.flights = m.mz.flights ++ [⟨g1, p.val, m.mzOuts p.val g1, none, false, false⟩] ∧
              sfind (t.half h).mz.dups key = some ⟨g.seq, 0, m.up⟩) ∧
          (∀ e : MzDup, m.mzFirst g = none → sfind m.mz.dups key = some e → m.dupFresh e = true →
            (g.seq = e.high →
              ∃ t, exec (.mzHeaderReceived p x) s = .next t ∧ (t.half h).rd (rMzpCnt p.val 11) = m.rd (rMzpCnt p.val 11) + 1 ∧
                (t.half h).mz.flights = m.mz.flights) ∧
            (g.seq = e.high + 1 →
              ∃ t, exec (.mzHeaderReceived p x) s = .next t ∧
                (t.half h).mz.flights = m.mz.flights ++ [⟨g1, p.val, m.mzOuts p.val g1, some e, false, false⟩] ∧
                (sfind (t.half h).mz.dups key).map (·.high) = some g.seq))))) ∧
    (∀ z : MzFlight, s.quiet h = true → m.mzFlight p.val g = some z → z.held = false → m.mzHeld z.frame = [] →
      (s.half (other h)).mzFlight p.val g = none → (s.a.fslot 2).cfgPack = none → (s.b.fslot 2).cfgPack = none → x.ended = true →
      (x.grain ≠ mzGrain g →
        ((∀ e, sfind m.mz.dups (dupKey z.frame.src z.frame.stream) = some e → e.high = z.frame.seq) → z.old = none →
          ∃ t, exec (.mzFrameTail p x) s = .next t ∧ z ∉ (t.half h).mz.flights ∧
            sfind (t.half h).mz.dups (dupKey z.frame.src z.frame.stream) = none ∧
            (t.half h).rd (rMzpCnt p.val 7) = m.rd (rMzpCnt p.val 7) + 1) ∧
        (∀ q : Nat, q ≠ p.val → z.outs = [q] → m.mzMaySend y q = true → (m.mzp q).link = 4 →
          ∃ t w, exec (.mzFrameTail p x) s = .next t ∧ (t.half h).sent = m.sent ++ (if q < 2 ∨ y.drives then [.mz q w] else []) ∧
            w.frame = z.frame ∧ w.grain = x.grain ∧ w.ended = false ∧ (t.half h).rd (rMzpCnt q 9) = m.rd (rMzpCnt q 9) + 1 ∧
            (t.half h).arisen 0x1104 q 6 z.frame.src (m.rd (rMzpCnt q 9) + 1).toNat)) ∧
      (x.grain = mzGrain g → m.mzTagOk p.val (m.mzp p.val).neigh (m.mzp p.val).nport x = true →
        (∀ q : Nat, z.frame.kind ≠ 0x40 → m.mzMine z.frame = false → z.outs = [q] → y.start = false → m.on (mzPage q) = true →
          m.mzMaySend y q = true → (m.mzp q).link = 4 →
          ∃ t w, exec (.mzFrameTail p x) s = .next t ∧ z ∉ (t.half h).mz.flights ∧
            (t.half h).sent = m.sent ++ (if q < 2 ∨ y.drives then [.mz q w] else []) ∧ w.frame = z.frame ∧
            w.hcheck = mzHcheck z.frame ∧ w.grain = mzGrain z.frame ∧ w.ended = true ∧
            (t.half h).rd (rMzpCnt q 2) = m.rd (rMzpCnt q 2) + 1) ∧
        (∀ i : Nat, z.frame.kind = 0x13 → m.mzMine z.frame = true → stampOk z.frame.stamp = true →
          12 ≤ z.frame.payload.length → leAt z.frame.payload 3 1 ≤ 1 → m.pointHere z.frame.dest (leAt z.frame.payload 0 2) = some i →
          ∃ t, exec (.mzFrameTail p x) s = .next t ∧ z ∉ (t.half h).mz.flights ∧
            (t.half h).rd (rMzCnt 1) = m.rd (rMzCnt 1) + 1 ∧
            (t.half h).ptab.queue = m.ptab.queue ++ [⟨i, leAt z.frame.payload 2 1, decide (leAt z.frame.payload 3 1 = 1), false,
              BitVec.ofNat 64 (leAt z.frame.payload 4 8), none, z.frame.stamp, .merzin⟩]))) ∧
    (s.quiet h = true → f.dest = m.addr →
      (∀ (b : Nat) (w : Dword) (rg : Bool), 36 ≤ f.payload.length → let d := m.srcDesc b
        let rec_ := recOf ((f.payload.drop 4).take 32)
        m.sources (fun d => decide (bKind d = 6) && decide (bHalf d 8 = f.src) && decide (bHalf d 10 = leAt f.payload 0 2)) = [b] →
        bEn d = true → toType (recType (m.pt (bPoint d))) (linear d (recNumber d rec_)) = some (w, rg) →
        ∃ t u, exec (.mzPublishReceive f) s = .next t ∧ (t.half h).ptab.queue = m.ptab.queue ++ [u] ∧ u.point = bPoint d ∧ u.value = w ∧
          u.time = some rec_.time ∧ u.relinq = false) ∧
      (12 ≤ f.payload.length → leAt f.payload 3 1 ≤ 1 →
        ∃ t, exec (.mzPointWriteReceive f) s = .next t ∧ (t.half h).ptab.queue = m.ptab.queue ++ [⟨leAt f.payload 0 2,
          leAt f.payload 2 1, decide (leAt f.payload 3 1 = 1), false, BitVec.ofNat 64 (leAt f.payload 4 8), none, f.stamp, .merzin⟩]) ∧
      (∀ (q : Forward) (b : Nat), let status := leAt f.payload 6 2
        q.req.op = leAt f.payload 4 1 → q.req.op = 6 ∨ q.req.op = 7 → q.req.port ≠ 5 → m.txPage q.req.port = some b → q.parts ≠ [] →
        (∀ e ∈ q.parts, e.reqId = leAt f.payload 0 4 ∧ e.module_ = f.src) →
        m.fwds.find? (fun z => z.parts.any (fun e => decide (e.reqId = leAt f.payload 0 4) && decide (e.module_ = f.src)) &&
          decide (z.req.op = leAt f.payload 4 1)) = some q →
        ∃ t, exec (.mzIppRspReceive f) s = .next t ∧ (∀ z ∈ (t.half h).fwds, z ≠ q) ∧
          (t.half h).queued b = m.queued b ++ [ippResponse q.req 0 status (f.payload.drop 8)]) ∧
      (∀ (u : Template) (a : Nat) (rest : List Nat), m.streamTmpl f.stream = some u →
        let repeats := u.pairAt.any (fun o => decide ((f.src, (word (leAt f.payload o 4), leAt f.payload (o + 4) 1)) ∈ m.shf.seen))
        (repeats = true → ∃ t, exec (.mzAppReceive f) s = .next t ∧ (t.half h).que = m.que) ∧
        (repeats = false → m.queue (u.queue + 128) = a :: rest → (m.queue u.queue).length < 1024 →
          ∃ t, exec (.mzAppReceive f) s = .next t ∧ (t.half h).queue u.queue = m.queue u.queue ++ [a] ∧
            (t.half h).queue (u.queue + 128) = rest ∧ (t.half h).peek a = 0x0B ∧
            (t.half h).peekN (a + 64) (min f.payload.length 1984) = f.payload.take 1984))) ∧
    (∀ (id i : Nat) (q : Fin 2), h = s.primary → s.quiet h = true → y.recov = false → f.dest = m.addr → m.addr < 2 ^ 16 → i < 0xFFFF →
      f.payload = leBytes 4 id ++ [1, 0, 0, 0] ++ leBytes 4 1 ++ leBytes 4 (pointAddr m.addr i) → ippMay 1 (stampClass f.stamp) = true →
      m.heldAway i = false → m.recOk i = true → s.ringOpen h q.val = true →
      ∃ t, exec (.mzIppReqReceive f) s = .next t ∧ originates s t h q.val f.src 0x11 (leBytes 4 id ++ [1, 0, 0, 0] ++ leBytes 4 1 ++
        (if m.visible (m.tcOf i) f.stamp then pointEntry (pointAddr m.addr i) 0 (m.pt i) else emptyEntry (pointAddr m.addr i) 6)))

/-- MZ_HEARTBEAT_RECEIVE, QUERY, FOSTER_DORMANT, PULL, FOSTER_RELEASE, CLAIMED, FOSTER_PACK_RECEIVE, ABSENCE,
BUS_CHECK_END, BUS_RECHECK, HANDBACK and DROP (R395 to R398, R400 to R403, Tables 16.7, 16.9 and 16.10): the
foster's slots. A HEARTBEAT moves a slot from CHECKING to STANDBY and from FOSTERING to RETURNING, and a QUERY
the latter alone; an absence of ABSENT_MS starts the check of its buses; a clean bus is taken, and the instance
starts; a pack whose RESERVE_HASH agrees puts the slot in STANDBY; PULL, RELEASE, CLAIMED and DORMANT are
answered; and the commands HANDBACK and DROP act on the slot. What the spec leaves open here is the model's
choice (log entries 30 and 31). -/
def Obligations.FosterSlots : Prop :=
  ∀ (s : State) (h : HalfId) (k : Fin 2) (p : Fin 2) (f : MzFrame) (r : Req),
    let m := s.half h
    let x := m.fslot k.val
    let n := reqNum r
    let full := 2 ^ 48 - 1
    let status (t : State) : Prop := s.ringOpen h p.val = true → ∃ pl, originates s t h p.val f.src 0x32 pl ∧ leAt pl 0 1 = 2 ∧
      leAt pl 4 1 = ((t.half h).fslot k.val).st % 256
    (s.quiet h = true → f.dest = m.addr → m.slotFor f.src = some k.val →
      (∃ t, exec (.mzHeartbeatReceive f) s = .next t ∧ ((t.half h).fslot k.val).st = (if x.st = 2 then 1 else if x.st = 3 then 4 else x.st) ∧
        ((t.half h).fslot k.val).beatAt = m.up ∧ ((t.half h).fslot k.val).asleep = false) ∧
      (∃ t, exec (.query f) s = .next t ∧ ((t.half h).fslot k.val).st = (if x.st = 3 then 4 else x.st) ∧
        ((t.half h).fslot k.val).asleep = false ∧ status t) ∧
      (∃ t, exec (.fosterDormant f) s = .next t ∧ ((t.half h).fslot k.val).asleep = true ∧ ((t.half h).fslot k.val).st = x.st ∧ status t) ∧
      (x.runs = true → x.pack.isSome = true → leAt f.payload 4 1 = 1 →
        ∃ t, exec (.pull f) s = .next t ∧ ((t.half h).fslot k.val).outSeq = x.outSeq + 1 ∧
          (s.ringOpen h p.val = true → ∃ pl, originates s t h p.val f.src 0x30 pl ∧ leAt pl 0 4 = (x.outSeq + 1).toNat)) ∧
      (x.runs = true →
        let mask := leAt f.payload 4 8 % 2 ^ 48 &&& x.buses &&& (full - m.privBuses k.val)
        ∃ t, exec (.fosterRelease f) s = .next t ∧ ((t.half h).fslot k.val).buses = x.buses &&& (full - mask) ∧
          (t.half h).arisen 0x1207 k.val (mask % 2 ^ 32) (mask / 2 ^ 32) 0 ∧
          (s.ringOpen h p.val = true → ∃ pl, originates s t h p.val x.addr 0x32 pl ∧ leAt pl 0 1 = 5 ∧ leAt pl 4 8 = mask)) ∧
      (x.st = 4 → x.buses = 0 →
        ∃ t, exec (.claimed f) s = .next t ∧ ((t.half h).fslot k.val).st = 1 ∧ ((t.half h).fslot k.val).pts = []) ∧
      (∀ b : List Byte, m.rdB rFostCtrl 1 = true → ((s.half (other h)).slotFor f.src).isSome = true →
        (s.a.fslot 2).cfgPack = none → (s.b.fslot 2).cfgPack = none → b = f.payload.drop 16 → leAt f.payload 8 4 = b.length →
        b.length ≤ 1032192 → leAt f.payload 6 2 = 1 → crc32c b = leAt f.payload 12 4 → x.fragSeq ≠ mzWord f 0 ∨ x.frags = [] →
        leAt b 6 1 = 1 → (b.drop 16).take 32 = ((sfind (m.cfg 14) (k.val * 8)).getD []).map (BitVec.ofNat 8) →
        ∃ t, exec (.fosterPackReceive f) s = .next t ∧ ((t.half h).fslot k.val).pack = some ⟨mzWord f 0, b⟩ ∧
          ((t.half h).fslot k.val).seq = mzWord f 0 ∧ ((t.half h).fslot k.val).st = (if x.st = 0 then 1 else x.st) ∧
          ((t.half h).fslot k.val).mismatch = false ∧
          (s.ringOpen h p.val = true → originates s t h p.val f.src 0x31 (leBytes 4 (mzWord f 0).toNat ++ leBytes 1 0 ++ leBytes 3 0)))) ∧
    (s.quiet h = true → x.addr ≠ 0 → x.beatAt + m.rdF rFostCtrl 16 8 * oneMs ≤ m.up →
      (x.st = 1 → x.asleep = false →
        ∃ t, exec (.absence h k) s = .next t ∧ ((t.half h).fslot k.val).st = 2 ∧
          ((t.half h).fslot k.val).pending = x.pack.elim 0 (fun q => packMask q.bytes) ∧
          (t.half h).arisen 0x1204 k.val x.addr ((m.up - x.beatAt) / oneMs) 0) ∧
      (x.st = 4 → ∃ t, exec (.absence h k) s = .next t ∧ ((t.half h).fslot k.val).st = 3)) ∧
    (∀ seen : List BusSeen, s.quiet h = true →
      (x.st = 2 → (∀ b, b < 48 → x.pending.testBit b = true → busSeen seen b ≠ 0) →
        ∃ t, exec (.busCheckEnd h k seen) s = .next t ∧ (t.half h).fslot k.val = x ∧
          (∀ b, b < 48 → x.pending.testBit b = true → (t.half h).arisen 0x1205 k.val b (busSeen seen b) 0)) ∧
      (x.st = 2 → x.pack.isSome = true → (∃ b, b < 48 ∧ x.pending.testBit b = true ∧ busSeen seen b = 0) →
        ∃ t, exec (.busCheckEnd h k seen) s = .next t ∧ ((t.half h).fslot k.val).st = 3 ∧
          (let z := (t.half h).fslot k.val
           (t.half h).arisen 0x1206 k.val (z.buses % 2 ^ 32) (z.buses / 2 ^ 32) ((m.up - x.beatAt) / oneMs))) ∧
      (x.st = 3 → (∀ b, b < 48 → x.pending.testBit b = true → busSeen seen b ≠ 0) →
        ∃ t, exec (.busRecheck h ⟨k.val, Nat.lt_succ_of_lt k.isLt⟩ seen) s = .next t ∧ (t.half h).fost = m.fost) ∧
      ((∀ b, b < 48 → m.fost.blocked.testBit b = true → busSeen seen b = 0) →
        ∃ t, exec (.busRecheck h 2 seen) s = .next t ∧ (t.half h).fost.blocked = 0)) ∧
    (m.selFs = k.val →
      (s.admits h r rFostCmd 1 = true → x.st = 4 →
        let mask := x.hb.toNat % 2 ^ 48 &&& x.buses
        ∃ t, exec (.handback h r) s = .next t ∧ ((t.half h).fslot k.val).buses = x.buses &&& (full - mask) ∧
          (t.half h).arisen 0x1207 k.val (mask % 2 ^ 32) (mask / 2 ^ 32) 1 ∧ (t.half h).view n rFostCmdStat = 0 ∧
          (t.half h).answered r = ⟨0, 0⟩) ∧
      (s.admits h r rFostCmd 2 = true → x.st ≤ 1 →
        ∃ t, exec (.drop h r) s = .next t ∧ ((t.half h).fslot k.val).st = 0 ∧ ((t.half h).fslot k.val).pack = none ∧
          ((t.half h).fslot k.val).addr = x.addr ∧ (t.half h).view n rFostCmdStat = 0 ∧ (t.half h).answered r = ⟨0, 0⟩))

/-- HEARTBEAT_SEND, PACK_SEND, SEND_PACK, PACK_RETRY, FOSTER_ACK_RECEIVE, PROTECTION_TIMEOUT, QUERY_TIMEOUT,
FOSTER_STATUS, RELEASED and FOST_FOSTER_WRITE (R393 to R396, R399, R400, R402, R404, Tables 16.4, 16.8 and
16.10): the protected side. HEARTBEAT and packs leave, and a pack waits while a sheaf is COMMITTED; an
acknowledged pack and a STATUS of STANDBY protect the module, and 30 s without an acknowledged pack, a mismatch
or a write of FOST.FOSTER end that; the answer to a starting module's QUERY, or none, says who drives its buses,
and sends an unconfigured one to PULL its image; and RELEASED gives the buses back. What the spec leaves open
here is the model's choice (log entries 30 and 31). -/
def Obligations.FosterProtection : Prop :=
  ∀ (s : State) (h : HalfId) (p : Fin 2) (f : MzFrame) (r : Req) (v : Word),
    let m := s.half h
    let y := s.view h
    let st := leAt f.payload 4 1
    let flags := leAt f.payload 5 1
    (s.quiet h = true → y.speaks = true → s.ringOpen h p.val = true →
      ∃ t pl, exec (.heartbeatSend h) s = .next t ∧ originates s t h p.val 0xFFFF 3 pl ∧
        pl.take 2 = leBytes 1 (halfNum m.self) ++ leBytes 1 (roleCode y.role) ∧ leAt pl 4 2 = m.foster) ∧
    (∀ cfg : Bool, s.quiet h = true → m.rdB rFostCtrl 0 = true → m.foster ≠ 0 → m.noneCommitted = true →
      ∃ t q, exec (.packSend h cfg) s = .next t ∧ (t.half h).fost.out = some q ∧ q.seq = m.fost.sentSeq + 1 ∧
        (t.half h).fost.sentSeq = m.fost.sentSeq + 1 ∧ leAt q.bytes 6 1 = (if cfg then 2 else 1) ∧
        (s.ringOpen h p.val = true → ∃ pl, originates s t h p.val m.foster 0x30 pl ∧ leAt pl 0 4 = q.seq.toNat)) ∧
    (∀ cfg : Bool, s.quiet h = true → m.rdB rFostCtrl 0 = true → m.foster ≠ 0 → m.noneCommitted = false →
      ∃ t, exec (.packSend h cfg) s = .next t ∧ (t.half h).fost = { m.fost with dirty := m.fost.dirty ||| (if cfg then 2 else 1) }) ∧
    (s.admits h r rFostCmd 3 = true → m.rdB rFostCtrl 0 = true → m.foster ≠ 0 → m.noneCommitted = true →
      ∃ t q, exec (.sendPack h r) s = .next t ∧ (t.half h).fost.out = some q ∧ q.seq = m.fost.sentSeq + 1 ∧
        (t.half h).view (reqNum r) rFostCmdStat = 0 ∧ (t.half h).answered r = ⟨0, 0⟩) ∧
    (∀ q : Pack, s.quiet h = true → m.fost.out = some q →
      (m.foster ≠ 0 →
        ∃ t, exec (.packRetry h) s = .next t ∧ (t.half h).fost.out = some q ∧ (t.half h).rdB (pgIrqRaw 0x0F0) 2 = true ∧
          (t.half h).arisen 0x1201 m.foster q.seq.toNat (m.fost.ackAt.elim 0xFFFFFFFF (fun t => (m.up - t) / oneSec)) 0) ∧
      (f.dest = m.addr → f.src = m.foster → q.seq = mzWord f 0 → st = 0 → leAt q.bytes 6 1 = 1 →
        ∃ t, exec (.fosterAckReceive f) s = .next t ∧
          (t.half h).fost = { m.fost with out := none, ackSeq := q.seq, ackAt := some m.up })) ∧
    (s.quiet h = true → m.fost.self = 1 → m.fost.ackAt.all (fun t => decide (t + 30 * oneSec ≤ m.up)) = true →
      ∃ t, exec (.protectionTimeout h) s = .next t ∧ (t.half h).fost = { m.fost with self := 0 } ∧
        (t.half h).arisen 0x1202 1 0 m.foster 2) ∧
    (∀ seen : List BusSeen, s.quiet h = true → m.fost.query = true →
      ∃ t, exec (.queryTimeout h seen) s = .next t ∧ (t.half h).fost.query = false ∧ (t.half h).fost.self = 0) ∧
    (s.quiet h = true → f.dest = m.addr → m.unconfigured = true → m.fost.query = true →
      ∃ t, exec (.fosterStatus f) s = .next t ∧ (t.half h).fost.query = false ∧
        (s.ringOpen h p.val = true → originates s t h p.val f.src 0x32 (leBytes 1 3 ++ leBytes 3 0 ++ leBytes 4 2))) ∧
    (s.quiet h = true → f.dest = m.addr → f.src = m.foster → m.foster ≠ 0 →
      (m.unconfigured = false → m.fost.query = false →
        (m.fost.self = 1 → flags.testBit 0 = true →
          ∃ t, exec (.fosterStatus f) s = .next t ∧ (t.half h).fost.self = 0 ∧ (t.half h).fost.mismatch = true) ∧
        (m.fost.self = 0 → st = 1 → flags.testBit 0 = false → m.fost.ackAt.isSome = true →
          ∃ t, exec (.fosterStatus f) s = .next t ∧ (t.half h).fost.self = 1 ∧ (t.half h).arisen 0x1202 0 1 m.foster 1)) ∧
      (m.unconfigured = false → m.fost.query = true → st = 3 ∨ st = 4 →
        ∃ t, exec (.fosterStatus f) s = .next t ∧ (t.half h).fost.query = false ∧ (t.half h).fost.self = 2 ∧
          (t.half h).fost.held = leAt f.payload 12 8 % 2 ^ 48 ∧
          (s.ringOpen h p.val = true → originates s t h p.val m.foster 0x32 (leBytes 1 3 ++ leBytes 3 0 ++ leBytes 4 1))) ∧
      (m.fost.self = 2 ∨ m.fost.self = 3 →
        let mask := leAt f.payload 4 8 % 2 ^ 48 &&& m.fost.held
        let left := m.fost.held &&& (2 ^ 48 - 1 - mask)
        ∃ t, exec (.released f) s = .next t ∧ (t.half h).fost.held = left ∧ (t.half h).fost.self = (if left = 0 then 1 else 2) ∧
          (t.half h).arisen 0x1208 (mask % 2 ^ 32) (mask / 2 ^ 32) m.foster 0 ∧
          (s.ringOpen h p.val = true → originates s t h p.val m.foster 0x32 (leBytes 1 6 ++ leBytes 3 0 ++ leBytes 8 mask)))) ∧
    (let a := fld v 0 16
     s.admits h r rFostFoster v = true → a = 0 ∨ (m.inRing a = true ∧ a ≠ m.addr) →
      ∃ t, exec (.fostFosterWrite h r v) s = .next t ∧ (t.half h).foster = a ∧
        (t.half h).fost.self = (if a = 0 ∨ m.fost.self = 1 then 0 else m.fost.self) ∧
        (a = 0 → (t.half h).fost.held = 0 ∧ (t.half h).fost.out = none) ∧ (t.half h).answered r = ⟨0, 0⟩)

/-- HALF_READY, LEASE_RENEWAL, LEASE_EXPIRY, HANDOVER, HANDOVER_TIMEOUT, REJOIN, RETIRE_SELF, REJOIN_TIMER,
WDOG_KICK and WATCHDOG_EXPIRY (R382 to R386, Tables 16.2 and 16.14): roles and the lease, outside an activation.
A half that reports READY takes its role; a clean report renews the lease; its end, 1,000 µs after the grant or
the last renewal, retires the holder, and a clean follower takes over with the next EPOCH; HANDOVER moves it at
an instant without a COMMITTED sheaf, and is given up where none comes; RETIRE_SELF, the watchdog's time-out and
REJOIN move roles; and a kick restarts the watchdog. What the spec leaves open here is the model's choice (log
entries 32 and 33). -/
def Obligations.LeaseAndRoles : Prop :=
  ∀ (s : State) (h : HalfId) (r : Req) (v : Word),
    let m := s.half h
    let o := other h
    let next := (s.yoke.epoch + 1) % 65536
    s.frozen = false → s.yoke.act.phase = 0 →
    (s.role h = .booting → s.yoke.pwr.due = false → s.yoke.pwr.held = false → s.yoke.pwr.state ≠ 3 → (s.yh h).ready = none →
      (s.yh h).boot = none → ∀ x : StartObs,
      (s.role o = .retired → s.yoke.holder = none →
        ∃ t, exec (.halfReady h true x) s = .next t ∧ t.role h = .inCharge ∧ t.yoke.holder = some h ∧ t.yoke.epoch = next) ∧
      (s.role o = .inCharge → m.upd.recovery = false → s.yoke.xfer = none →
        ∃ t, exec (.halfReady h true x) s = .next t ∧ t.yoke.holder = s.yoke.holder ∧
          (s.yoke.xup = true → t.role h = .booting ∧ t.yoke.xfer.map (·.half) = some h) ∧ (s.yoke.xup = false → t.role h = .muted)) ∧
      (∃ t, exec (.halfReady h false x) s = .next t ∧ t.role h = .retired)) ∧
    (∀ clean : Bool, s.quiet h = true → let ok := clean && m.selfCheck
      ∃ t, exec (.leaseRenewal h clean) s = .next t ∧ (t.yh h).clean = ok ∧ t.yoke.holder = s.yoke.holder ∧
        t.yoke.renewAt = (if ok ∧ s.lease h then s.yoke.now else s.yoke.renewAt)) ∧
    (s.yoke.now < s.yoke.renewAt + oneMs → exec .leaseExpiry s = .next s) ∧
    (s.yoke.holder = some h → s.yoke.renewAt + oneMs ≤ s.yoke.now →
      (s.role o = .follower → (s.yh o).clean = true →
        ∃ t, exec .leaseExpiry s = .next t ∧ t.role h = .retired ∧ t.role o = .inCharge ∧ t.yoke.holder = some o ∧ t.yoke.epoch = next) ∧
      (s.role o = .retired ∨ (s.role o = .follower ∧ (s.yh o).clean = false) →
        ∃ t, exec .leaseExpiry s = .next t ∧ t.role h = .retired ∧ t.role o = s.role o ∧ t.yoke.holder = none)) ∧
    (∀ g : HalfId, let o := other g
      s.admits h r rYokeCmd 1 = true → s.once h r = true → s.yoke.holder = some g → s.role o = .follower →
      (s.role g = .inCharge → s.a.noneCommitted = true → s.b.noneCommitted = true →
        ∃ t, exec (.handover h r) s = .next t ∧ t.yoke.holder = some o ∧ t.role o = .inCharge ∧ t.role g = .follower ∧
          t.yoke.epoch = next ∧ t.yoke.handover = none ∧ (t.half h).arisen 0x020A (halfNum g + 1) (halfNum o + 1) next (reqStamp r).toNat ∧
          (t.half h).answered r = ⟨0, 0⟩) ∧
      (s.a.noneCommitted = false ∨ s.b.noneCommitted = false →
        ∃ t, exec (.handover h r) s = .next t ∧ t.yoke.holder = some g ∧ t.yoke.handover = some (reqStamp r) ∧
          (t.half h).answered r = ⟨0, 0⟩)) ∧
    (∀ (g : HalfId) (st : Stamp), s.yoke.handover = some st → s.yoke.holder = some g → s.runs h = true →
      ∃ t, exec .handoverTimeout s = .next t ∧ t.yoke.handover = none ∧ t.yoke.holder = some g ∧
        (t.half h).arisen 0x020A (halfNum g + 1) 0 s.yoke.epoch st.toNat) ∧
    (s.admits h r rYokeCmd 2 = true → s.once h r = true → s.role o = .retired → m.upd.recovery = false →
      ∃ t, exec (.rejoin h r) s = .next t ∧ t.role o = .booting ∧ (t.yh o).boot = some (2 ^ 7 ||| ((s.yh o).boot.getD 0)) ∧
        (t.half h).answered r = ⟨0, 0⟩) ∧
    (s.admits h r rYokeCmd 3 = true → s.once h r = true →
      (s.role h = .inCharge → s.yoke.holder = some h → s.role o = .follower →
        ∃ t, exec (.retireSelf h r) s = .next t ∧ t.role h = .retired ∧ t.role o = .inCharge ∧ t.yoke.holder = some o ∧
          t.yoke.epoch = next ∧ (t.yh h).boot = some 0 ∧ (t.half h).answered r = ⟨0, 0⟩) ∧
      (s.role h = .follower ∨ s.role h = .muted → s.yoke.holder ≠ some h →
        ∃ t, exec (.retireSelf h r) s = .next t ∧ t.role h = .retired ∧ t.role o = s.role o ∧ t.yoke.holder = s.yoke.holder ∧
          (t.half h).answered r = ⟨0, 0⟩)) ∧
    (s.rdB .a rYokeCtrl 8 = true → s.retireCount h < 3 → s.role h = .retired →
      (s.yh h).retired.head?.all (fun t => decide (t + s.rdF .a rYokeCtrl 24 8 * oneSec ≤ s.yoke.now)) = true →
      ∃ t, exec (.rejoinTimer h) s = .next t ∧ t.role h = .booting ∧ (t.yh h).boot = some (2 ^ 7 ||| ((s.yh h).boot.getD 0))) ∧
    (s.admits h r rYokeWdogKick v = true →
      ∃ t, exec (.wdogKick h r v) s = .next t ∧ (t.half h).wdogAt = (if flag v 0 then m.up else m.wdogAt) ∧
        (∀ k, (t.half h).rd k = m.rd k) ∧ (t.half h).answered r = ⟨0, 0⟩) ∧
    (s.wdogStands h = false → m.wdogAt + m.rdF rYokeWdog 0 16 * oneMs ≤ m.up →
      ∃ t, exec (.watchdogExpiry h) s = .next t ∧ t.role h = .retired ∧ (t.yh h).boot = some 4 ∧ t.yoke.holder ≠ some h ∧
        (s.runs o = true → (t.half o).arisen 0x0208 (halfNum h) (m.rdF rYokeWdog 0 16) (roleCode (s.role h)) 0))

/-- OUTPUT_RECORD, RECORD_WAIT_TIMEOUT, CHALLENGE_DECIDED, XLINK_LOST, XLINK_RETRAIN, STATE_TRANSFER_ROUND,
STATE_TRANSFER_RETRY, YOKE_LOST, YOKE_RESTORED and YOKE_HOLD_EXCEEDED (R387 to R392, Tables 16.2 and 16.3): the
comparison of outputs, the challenge, the cross-link, state transfer, and the loss of the Yoke, outside an
activation. A record goes to the Yoke and waits for the other half's; equal records leave nothing; a difference
from a follower's sets LAST_MISMATCH and begins a challenge, whose loser retires; a lost cross-link mutes the
follower; and the last round of a transfer makes the joining half the follower. What the spec leaves open here
is the model's choice (log entries 27, 33, 58 and 69). -/
def Obligations.OutputsAndTransfer : Prop :=
  ∀ (s : State) (h : HalfId) (x : OutRec),
    let o := other h
    let o_ (k : HalfId) : HalfId := other k
    s.yoke.act.phase = 0 →
    (∀ g : HalfId, s.quiet h = true → s.computes h = true → s.computes o = true → s.yoke.holder = some g →
      (s.yoke.outs = [] → ∃ t, exec (.outputRecord h x) s = .next t ∧ t.yoke.outs = [(h, x)] ∧
        (t.half h).outRecs = (s.half h).outRecs.erase x) ∧
      (s.yoke.outs = [(o, x)] →
        ∃ t, exec (.outputRecord h x) s = .next t ∧ t.yoke.outs = [] ∧ t.yoke.regs = s.yoke.regs ∧ t.yoke.chall = s.yoke.chall) ∧
      (∀ z : Dword, z ≠ x.value → s.yoke.outs = [(o, { x with value := z })] → s.role (o_ g) = .follower →
        s.frozen = false → s.yoke.chall = none →
        let w := word (x.kind % 16 * 2 ^ 28 + x.port.toNat * 2 ^ 24 + x.target % 2 ^ 16)
        let mine := if h = g then x.value else z
        let its := if h = g then z else x.value
        ∃ t, exec (.outputRecord h x) s = .next t ∧ t.yoke.outs = [] ∧ t.rd .a rYokeLastMismatch = w ∧ t.yoke.chall = some s.yoke.now ∧
          t.rdN .a rYokeMismatchCnt = stickTo 0xFFFFFFFF (s.rdN .a rYokeMismatchCnt) 1 ∧
          (t.half h).arisen 0x0202 w.toNat s.yoke.epoch (loWord mine).toNat (loWord its).toNat) ∧
      (∀ l : List (HalfId × OutRec), s.yoke.outs = (h, x) :: l → s.role (o_ g) = .follower →
        ∃ t, exec .recordWaitTimeout s = .next t ∧ t.yoke.outs = l ∧
          t.rdN .a rYokeMismatchCnt = stickTo 0xFFFFFFFF (s.rdN .a rYokeMismatchCnt) 1)) ∧
    (∀ (c : ChallengeRes) (at_ : Nat), s.yoke.chall = some at_ → s.yoke.holder = some h → s.role h = .inCharge → s.role o = .follower →
      let pass (k : HalfId) : Bool := if k = .a then c.passA else c.passB
      (pass h = true → pass o = false →
        ∃ t, exec (.challengeDecided c) s = .next t ∧ t.role o = .retired ∧ t.role h = .inCharge ∧ t.yoke.holder = some h ∧
          t.yoke.chall = none ∧ fld (t.rd .a rYokeChallenge) 28 3 = 2) ∧
      (pass h = false → pass o = true →
        ∃ t, exec (.challengeDecided c) s = .next t ∧ t.role h = .retired ∧ t.role o = .inCharge ∧ t.yoke.holder = some o ∧
          t.yoke.epoch = (s.yoke.epoch + 1) % 65536 ∧ t.yoke.chall = none ∧ fld (t.rd .a rYokeChallenge) 28 3 = 3)) ∧
    (∀ cause : Nat, s.quiet h = true → s.yoke.xup = true →
      ∃ t, exec (.xlinkLost h cause) s = .next t ∧ t.yoke.xup = false ∧ t.yoke.xfer = none ∧
        (∀ k, t.role k = (if s.role k = .follower then .muted else s.role k)) ∧ (t.half h).arisen 0x0204 0 cause 0 0) ∧
    (s.yoke.xup = false →
      (∃ t, exec (.xlinkRetrain false) s = .next t ∧ t.yoke.xup = false ∧ t.yoke.retries = stickTo 0xFF s.yoke.retries 1) ∧
      (∃ t, exec (.xlinkRetrain true) s = .next t ∧ t.yoke.xup = true ∧ t.yoke.retries = stickTo 0xFF s.yoke.retries 1 ∧
        (s.runs h = true → (t.half h).arisen 0x0204 1 0 (stickTo 0xFF s.yoke.retries 1) 0))) ∧
    (s.frozen = false → s.joins h = true →
      (∀ (z : Xfer) (y : XferRound), s.yoke.xfer = some z → z.half = h →
        (y.left < 65536 →
          ∃ t, exec (.stateTransferRound h y) s = .next t ∧ t.role h = .follower ∧ t.yoke.xfer = none ∧ t.rd .a rYokeDiverge = 0 ∧
            (t.half h).ptab = (s.half o).ptab) ∧
        (65536 ≤ y.left → z.round < 8 →
          ∃ t, exec (.stateTransferRound h y) s = .next t ∧ t.yoke.xfer = some { z with round := z.round + 1 } ∧ t.role h = s.role h) ∧
        (65536 < y.left → 8 ≤ z.round →
          ∃ t, exec (.stateTransferRound h y) s = .next t ∧ t.yoke.xfer = none ∧ t.role h = s.role h)) ∧
      (s.yoke.xfer = none → ∃ t z, exec (.stateTransferRetry h) s = .next t ∧ t.yoke.xfer = some z ∧ z.half = h ∧ z.round = 1)) ∧
    (s.quiet h = true → (s.yh h).lost = false →
      (∃ t, exec (.yokeLost h) s = .next t ∧ (t.yh h).lost = true ∧ t.yoke.latched = true ∧ t.yoke.holder = s.yoke.holder ∧
        (t.half h).arisen 0x0205 (halfNum h) (holderCode s.yoke.holder) s.yoke.epoch 1) ∧
      (s.yoke.hold = true →
        ∃ t, exec (.yokeHoldExceeded h) s = .next t ∧ (t.yh h).lost = true ∧ t.yoke.latched = true ∧
          (t.half h).arisen 0x0205 (halfNum h) (holderCode s.yoke.holder) s.yoke.epoch 2)) ∧
    (∀ g : HalfId, (s.yh h).lost = true → s.yoke.holder = some g → s.role g = .inCharge →
      ∃ t, exec .yokeRestored s = .next t ∧ (t.yh .a).lost = false ∧ (t.yh .b).lost = false ∧ t.yoke.holder = some g ∧
        t.yoke.epoch = (s.yoke.epoch + 1) % 65536 ∧ t.role g = .inCharge)

/-- R408: the calendar counts by the Gregorian rules over its whole range: a date and time of 2000 to 2199 is the one its count of seconds
leads back to, every such count is that of the date it leads to, and a year has 366 days where the leap-year rule says so, else 365. -/
def Obligations.CalendarCounts : Prop :=
  (∀ r : Rtc, 2000 ≤ r.year → r.year ≤ 2199 → 1 ≤ r.month → r.month ≤ 12 → 1 ≤ r.day → r.day ≤ monthDays r.year r.month →
    r.hour ≤ 23 → r.min ≤ 59 → r.sec ≤ 59 → r.setLocal (r.localSec : Int) = r) ∧
  (∀ (r : Rtc) (n : Nat), 946684800 ≤ n → n < dateDay 2200 1 1 * 86400 → (r.setLocal (n : Int)).localSec = n) ∧
  (∀ y : Nat, 2000 ≤ y → y ≤ 2199 →
    dateDay (y + 1) 1 1 = dateDay y 1 1 + (if y % 4 = 0 ∧ (y % 100 ≠ 0 ∨ y % 400 = 0) then 366 else 365) ∧
    (∀ m : Nat, 1 ≤ m → m ≤ 11 → dateDay y (m + 1) 1 = dateDay y m 1 + monthDays y m) ∧ dateDay (y + 1) 1 1 = dateDay y 12 1 + 31)

/-- RTC_SECOND, RTC_SET, CLR_OSF, CLR_VLOW, CLR_SWO, COMP_APPLY, COMP_FACTORY, COMP_WINDOW, VRTC_SWITCHOVER,
VLOW_DETECT, OSC_STOPPED, INTERVAL_ALARM, TIME_OF_DAY_ALARM and RTC_RELOAD_CHECK (R408 to R411, R413 to R416,
R418, R423, R511): the RTC's second boundary, a leap announced while LOCKED, SET, the clearing commands, the
compensation commands and window, the supply detectors (VLOW drops the Yoke's records), the alarms, of which
ALM_IVL fires SECONDS after its start, and the reload check. What the spec leaves open here is the model's
choice (log entry 55). -/
def Obligations.RealTimeClock : Prop :=
  ∀ (s : State) (h : HalfId) (r : Req),
    let x := s.yoke.rtc
    let e (g : HalfId) (c p0 p1 p2 : Nat) (t : State) : Prop := ⟨c, p0, p1, p2, 0, (s.half g).tai⟩ ∈ (t.half g).evr.arising
    let cmd (k : Nat) : Bool := s.admits h r rRtcCmd (word k) && s.once h r
    (s.locked = false → x.held = false → x.reload = false → x.atEnd = false →
      let n := { x.setLocal ((x.localSec : Int) + 1) with secAt := (s.yoke.now : Int), utcNew := none }
      (x.pend = 0 →
        ∃ t, exec .rtcSecond s = .next t ∧ t.yoke.rtc = (if n.atEnd then { n with calEnd := true } else n) ∧
          (n.atEnd = true → n.calEnd = false → ∀ g, s.runs g = true → e g 0x040B 0 0 0 t ∧ (t.half g).rdB (pgIrqRaw 0x003) 3 = true) ∧
          (∀ g, s.runs g = true → (t.half g).tai = (s.half g).tai))) ∧
    (s.locked = false → x.held = false → x.reload = false → x.atEnd = true → x.pend = 0 →
      ∃ t, exec .rtcSecond s = .next t ∧ t.yoke.rtc.calEnd = true ∧
        t.yoke.rtc = { x.setLocal (x.localSec : Int) with secAt := (s.yoke.now : Int), utcNew := none, calEnd := true }) ∧
    (s.locked = true → x.atEnd = false → x.pend = 0 → x.reload = false → x.utcNew = none →
      (x.leap = 1 → x.utc % 86400 = 86399 →
        (x.held = false → ∃ t, exec .rtcSecond s = .next t ∧ t.yoke.rtc.held = true ∧ t.yoke.rtc.taiUtc = x.taiUtc) ∧
        (x.held = true →
          ∃ t, exec .rtcSecond s = .next t ∧ t.yoke.rtc.held = false ∧ t.yoke.rtc.leap = 0 ∧ t.yoke.rtc.taiUtc = (x.taiUtc + 1) % 256 ∧
            ∀ g, s.runs g = true → e g 0x040A 1 ((x.taiUtc + 1) % 256) 0 t)) ∧
      (x.leap = 2 → x.utc % 86400 = 86398 →
        ∃ t, exec .rtcSecond s = .next t ∧ t.yoke.rtc.leap = 0 ∧ t.yoke.rtc.taiUtc = (x.taiUtc + 255) % 256 ∧
          ∀ g, s.runs g = true → e g 0x040A 0xFFFFFFFF ((x.taiUtc + 255) % 256) 0 t)) ∧
    (cmd 1 = true →
      (s.locked = true →
        ∃ t, exec (.rtcSet h r) s = .next t ∧ t.yoke.rtc = x ∧ (t.half h).answered r = ⟨5, 0⟩) ∧
      (s.locked = false → rtcStaged ((List.range 4).map (fun i => s.rd .a (rRtcS i))) = none →
        ∃ t, exec (.rtcSet h r) s = .next t ∧ t.yoke.rtc = x ∧ (t.half h).answered r = ⟨5, 0⟩) ∧
      (∀ w, s.locked = false → rtcStaged ((List.range 4).map (fun i => s.rd .a (rRtcS i))) = some w →
        let n := { x with
          secAt := (s.yoke.now : Int), sec := w.sec, min := w.min, hour := w.hour, day := w.day, month := w.month, year := w.year
          dst := w.dst, taiUtc := w.taiUtc, offset := w.offset, valid := true, pend := 0, calEnd := false, held := false, reload := false }
        ∃ t, exec (.rtcSet h r) s = .next t ∧ t.yoke.rtc = n ∧ (t.half h).answered r = ⟨0, 0⟩ ∧
          (∀ g, s.runs g = true → (t.half g).tai = BitVec.ofNat 64 (n.tai.toNat * oneSec)) ∧
          (∀ g, s.runs g = true → (s.half g).nrgRun = false →
            e g 0x0404 (BitVec.ofInt 32 x.tai).toNat (BitVec.ofInt 32 n.tai).toNat (reqStamp r).toNat t))) ∧
    (cmd 4 = true →
      ∃ t, exec (.clrOsf h r) s = .next t ∧ t.yoke.rtc = { x with osf := false } ∧ (t.half h).answered r = ⟨0, 0⟩) ∧
    (cmd 5 = true →
      ∃ t, exec (.clrVlow h r) s = .next t ∧ t.yoke.rtc = { x with vlow := false } ∧ (t.half h).answered r = ⟨0, 0⟩) ∧
    (cmd 6 = true →
      ∃ t, exec (.clrSwo h r) s = .next t ∧ t.yoke.rtc = { x with swoTime := 0, swo := false, swoCnt := 0 } ∧
        (t.half h).answered r = ⟨0, 0⟩) ∧
    (cmd 7 = true →
      ∃ t, exec (.compApply h r) s = .next t ∧ t.yoke.rtc = { x with apply_ := some (reqStamp r) } ∧ (t.half h).answered r = ⟨0, 0⟩) ∧
    (cmd 8 = true →
      ∃ t, exec (.compFactory h r) s = .next t ∧ t.yoke.rtc = x ∧ (∀ i, i < 4 → t.rd .a (rRtcCompS i) = Config.compFactory i) ∧
        (t.half h).answered r = ⟨0, 0⟩) ∧
    (∀ temp : Int,
      (x.apply_ = none →
        ∃ t, exec (.compWindow temp) s = .next t ∧ t.yoke.rtc = { x with temp := temp, compN := compCount x.coef temp }) ∧
      (∀ st, x.apply_ = some st →
        let l := (List.range 4).map (fun i => s.rd .a (rRtcCompS i))
        ∃ t, exec (.compWindow temp) s = .next t ∧
          t.yoke.rtc = { x with comp := some l, user := true, apply_ := none, temp := temp, compN := compCount l temp } ∧
          ∀ g, s.runs g = true → e g 0x0406 (l.getD 0 0).toNat (l.getD 2 0).toNat st.toNat t)) ∧
    (∃ t, exec .vrtcSwitchover s = .next t ∧
      t.yoke.rtc = { x with
        backup := true, swo := true, swoTime := (if x.swo then x.swoTime else BitVec.ofNat 64 s.rtcTai)
        swoCnt := stickTo 0xFFFFFFFF x.swoCnt 1 } ∧
      (∀ g, s.runs g = true → (t.half g).rdB (pgIrqRaw 0x003) 2 = true)) ∧
    (∃ t, exec .vlowDetect s = .next t ∧ t.yoke.rtc.vlow = true ∧ t.yoke.recs = [] ∧ t.yoke.recsLost = 0) ∧
    (x.vlow = false → s.anyRuns = true →
      ∃ t, exec .vlowDetect s = .next t ∧ t.yoke.rtc = { x with vlow := true, valid := false } ∧
        (∀ g, s.runs g = true → e g 0x0402 t.yoke.rtc.stat x.swoCnt 0 t ∧ (t.half g).rdB (pgIrqRaw 0x003) 1 = true)) ∧
    (s.anyRuns = true →
      ∃ t, exec .oscStopped s = .next t ∧ t.yoke.rtc.osf = true ∧ t.yoke.rtc.valid = false ∧ t.yoke.rtc.swo = false ∧
        t.yoke.rtc.localSec = 946684800 ∧
        (∀ g, s.runs g = true → e g 0x0401 t.yoke.rtc.stat 0 0 t ∧ (t.half g).rdB (pgIrqRaw 0x003) 1 = true)) ∧
    (s.yoke.pwr.state < 2 →
      (let v := s.rd .a rRtcAlmIvl
       let due := x.almAt + fld v 0 17 * oneSec
       (s.yoke.now < due → exec .intervalAlarm s = .next s) ∧
       (flag v 31 = true → due ≤ s.yoke.now →
        ∃ t, exec .intervalAlarm s = .next t ∧ t.rd .a rRtcAlmIvl = (if flag v 30 then v else putFlag v 31 false) ∧
          t.yoke.rtc.almAt = (if flag v 30 then due else x.almAt) ∧
          (∀ g, s.runs g = true → (t.half g).rdB (pgIrqRaw 0x003) 0 = true))) ∧
      (let v := s.rd .a rRtcAlmTod
       flag v 31 = true → x.sec = 0 → x.min = fld v 0 6 → x.hour = fld v 8 5 → flag v (15 + weekday x.year x.month x.day) = true →
        ∃ t, exec .timeOfDayAlarm s = .next t ∧ t.yoke = s.yoke ∧
          (∀ g, s.runs g = true → (t.half g).rdB (pgIrqRaw 0x003) 0 = true))) ∧
    (let d := ((s.rtcTai : Int) - s.timeBase).natAbs
     ∃ t, exec .rtcReloadCheck s = .next t ∧
      t.yoke.rtc = (if s.locked = true ∧ 2000000 < d then { x with reload := true } else x) ∧ t.a = s.a ∧ t.b = s.b)

/-- DST_ON, DST_OFF and RTC_SECOND (R412): summer time. DST_ON is accepted only while DST is 0 and DST_OFF only while it is 1, each with no
command pending; the change comes at the next second boundary, an hour forward or back with DST, and leaves UTC, TAI and the time base as
they would be without it. -/
def Obligations.SummerTime : Prop :=
  ∀ (s : State) (h : HalfId) (r : Req),
    let x := s.yoke.rtc
    let cmd (on : Bool) : Instr := if on then .dstOn h r else .dstOff h r
    (∀ on : Bool, s.admits h r rRtcCmd (if on then 2 else 3) = true → s.once h r = true →
      (x.dst ≠ on → x.pend = 0 →
        ∃ t, exec (cmd on) s = .next t ∧ t.yoke.rtc = { x with pend := if on then 1 else 2 } ∧ t.yoke.rtc.stat.testBit 8 = true ∧
          (t.half h).answered r = ⟨0, 0⟩) ∧
      (x.dst = on ∨ x.pend ≠ 0 → ∃ t, exec (cmd on) s = .next t ∧ t.yoke.rtc = x ∧ (t.half h).answered r = ⟨5, 0⟩)) ∧
    (∀ on : Bool, x.pend = (if on then 1 else 2) → x.dst ≠ on → s.locked = false → x.held = false → x.reload = false →
      946684800 + 3600 ≤ x.localSec → x.localSec + 3602 < dateDay 2200 1 1 * 86400 →
      ∃ t, exec .rtcSecond s = .next t ∧ t.yoke.rtc.localSec = (if on then x.localSec + 1 + 3600 else x.localSec + 1 - 3600) ∧
        t.yoke.rtc.dst = on ∧ t.yoke.rtc.pend = 0 ∧ t.yoke.rtc.utc = x.utc + 1 ∧ t.yoke.rtc.tai = x.tai + 1 ∧
        (∀ g, s.runs g = true → (t.half g).tai = (s.half g).tai ∧
          ⟨0x0405, on.toNat, (t.rtcT 2).toNat, (t.rtcT 1).toNat, 0, (s.half g).tai⟩ ∈ (t.half g).evr.arising))

/-- PTP_SYNC_RECEIVE, PTP_ANNOUNCE_RECEIVE, PTP_DELAY_REQ_RECEIVE, PTP_DELAY_RESP_RECEIVE, PTP_MESSAGE_SEND,
ANNOUNCE_RECEIPT_TIMEOUT and HOLDOVER_EXPIRY (R421 to R425, Tables 17.3 and 17.4): the messages and timers of
the PTP boundary clock, and the time source. An offset within STEP_US steers the rate in LOCKING and LOCKED, and
a larger one steps the time base; the sixteenth close offset locks; an Announce that makes its port the slave
begins LOCKING; a master answers Delay_Req and sends Sync with Follow_Up; the receipt timeout forgets the
master; and HOLDOVER ends in FREE after HOLD_S. What the spec leaves open here is the model's choice (log entry
28). -/
def Obligations.PtpClock : Prop :=
  ∀ (s : State) (h : HalfId) (x : PtpMsg),
    let m := s.half h
    let y := m.ptpPort x.port
    let acts (p : Nat) : Bool := if p = 3 then s.quiet h else s.quietBus h
    let bld := if m.self = .a then 0xA0 else 0xA1
    (acts x.port = true → m.ptpMine x = true →
      (x.type = 2 ∨ x.type = 3 ∨ x.type = 10 →
        ∃ t, exec (.ptpSyncReceive x) s = .next t ∧
          (t.half h).ptpPort x.port = { y with unmatched := stickTo 0xFFFFFFFF y.unmatched 1 } ∧ (t.half h).tai = m.tai) ∧
      (x.type = 0 → x.twoStep = true → m.fromMaster x = true →
        ∃ t, exec (.ptpSyncReceive x) s = .next t ∧
          (t.half h).ptpPort x.port = { y with syncAt := m.up, syncT2 := x.rx - x.corr, syncSeq := x.seq, waitFup := true }) ∧
      (∀ off : Int, m.fromMaster x = true →
        (x.type = 0 ∧ x.twoStep = false ∧ off = x.rx - x.corr - x.stamp - m.tim.mpd) ∨
          (x.type = 8 ∧ y.waitFup = true ∧ x.seq = y.syncSeq ∧ off = y.syncT2 - (x.stamp + x.corr) - m.tim.mpd) →
        ((off.natAbs : Int) ≤ (m.rdF rPtpServo 16 16 : Int) * 1000 →
          let n := if off.natAbs ≤ 1000 ∧ y.st = 9 then min 16 (m.tim.good + 1) else 0
          ∃ t, exec (.ptpSyncReceive x) s = .next t ∧ ((t.half h).ptpPort x.port).st = 9 ∧ (t.half h).tim.offset = off ∧
            (t.half h).tim.rate =
              (if m.tim.source = 1 ∨ m.tim.source = 2 then max (-500000) (min 500000 (Config.steer off)) else m.tim.rate) ∧ (t.half h).tai = m.tai ∧
            (t.half h).tim.source = (if m.tim.source = 1 ∧ n = 16 then 2 else m.tim.source)) ∧
        ((m.rdF rPtpServo 16 16 : Int) * 1000 < off.natAbs →
          let n := ((m.tai.toNat : Int) - off).toNat
          let d : Dword := BitVec.ofInt 64 ((n : Int) - m.tai.toNat)
          ∃ t, exec (.ptpSyncReceive x) s = .next t ∧ ((t.half h).ptpPort x.port).st = 9 ∧ (t.half h).tim.rate = m.tim.rate ∧
            (t.half h).tai = BitVec.ofNat 64 n ∧ (t.half h).arisen 0x0407 (loWord d).toNat (hiWord d).toNat 2 0 ∧
            (t.half h).rdB (pgIrqRaw 0x0C8) 1 = true)) ∧
      (x.steps < 255 →
        let a : PtpAnn := ⟨x.prio1, x.clkClass, x.accuracy, x.variance, x.prio2, x.gm, x.steps, x.src, x.srcPort, x.utcOff, x.utcValid,
          x.leap61, x.leap59⟩
        let u := m.updPtp x.port (fun y => { y with best := some a })
        (y.best = none → y.st < 8 → u.ptpDecide 0 x.port = 8 → m.tim.source = 0 ∨ m.tim.source = 3 →
          ∃ t, exec (.ptpAnnounceReceive x) s = .next t ∧ ((t.half h).ptpPort x.port).best = some a ∧
            ((t.half h).ptpPort x.port).st = 8 ∧ (t.half h).tim.master = some a ∧ (t.half h).tim.source = 1 ∧
            (t.half h).arisen 0x0408 m.tim.source 1 x.port 0) ∧
        (∀ b, y.best = some b → b.src = x.src → b.srcPort = x.srcPort → m.tim.master = some b → y.st = 9 → m.tim.source = 2 →
          s.yoke.holder = some h → u.ptpDecide 0 x.port = 8 →
          let z := s.yoke.rtc
          ∃ t, exec (.ptpAnnounceReceive x) s = .next t ∧ (t.half h).tim.master = some a ∧ (t.half h).tim.source = 2 ∧
            t.yoke.rtc.utcNew =
              (if x.utcValid = true ∧ x.utcOff.toNat % 256 ≠ z.taiUtc then some (x.utcOff.toNat % 256) else none) ∧
            t.yoke.rtc.leap = (if x.leap61 then 1 else if x.leap59 then 2 else 0))) ∧
      (y.st = 6 → x.port < 3 → m.ptpSends x.port = true →
        let hd := m.ptpHeader 9 54 0 x.port x.seq (m.rdF rPtpIntv 8 8)
        ∃ t, exec (.ptpDelayReqReceive x) s = .next t ∧
          (t.half h).queued bld = m.queued bld ++ [.ptp (hd.take 8 ++ beBytes 8 (BitVec.ofInt 64 (x.corr * 65536)).toNat ++ hd.drop 16
            ++ ptpStamp x.rx.toNat ++ beBytes 8 x.src ++ beBytes 2 x.srcPort)]) ∧
      (∀ t3 : Int, y.reqAt = some t3 → m.fromMaster x = true → x.reqId = Config.clockIdentity → x.reqPort = x.port → x.seq = y.reqSeq →
        ∃ t, exec (.ptpDelayRespReceive x) s = .next t ∧ ((t.half h).ptpPort x.port).reqAt = none ∧
          (t.half h).tim.mpd = ((y.syncT2 - y.syncT1) + (x.stamp - x.corr - t3)).tdiv 2)) ∧
    (∀ p : Nat, let z := m.ptpPort p
      (p = 1 ∨ p = 2 → s.quietBus h = true → s.ptpOwner p = some h → m.ptpSends p = true → m.on 0x0C8 = true →
        (z.st = 6 → let n := (z.seqSync + 1) % 65536
          let log := m.rdF rPtpIntv 24 8
          ∃ t, exec (.ptpMessageSend h p 0) s = .next t ∧ (t.half h).ptpPort p = { z with seqSync := n } ∧
            (t.half h).queued bld = m.queued bld ++
              [.ptp (m.ptpHeader 0 44 0x0200 p n log ++ ptpStamp 0), .ptp (m.ptpHeader 8 44 0 p n log ++ ptpStamp m.tai.toNat)]) ∧
        (z.st = 5 ∨ z.st = 6 →
          ∃ t b, exec (.ptpMessageSend h p 1) s = .next t ∧ (t.half h).ptpPort p = { z with st := 6, seqAnn := (z.seqAnn + 1) % 65536 } ∧
            (t.half h).queued bld = m.queued bld ++ [.ptp b] ∧
            b.take 34 = m.ptpHeader 11 64 (match m.tim.master with
              | some a => annFlags a
              | none => annFlags (m.ownAnn s.yoke.rtc.taiUtc s.yoke.rtc.valid)) p ((z.seqAnn + 1) % 65536) (m.rdF rPtpIntv 16 8)) ∧
        (8 ≤ z.st → let n := (z.reqSeq + 1) % 65536
          ∃ t, exec (.ptpMessageSend h p 2) s = .next t ∧
            (t.half h).ptpPort p = { z with reqSeq := n, reqAt := some (m.tai.toNat : Int) } ∧
            (t.half h).queued bld = m.queued bld ++ [.ptp (m.ptpHeader 1 44 0 p n 0x7F ++ ptpStamp 0)])) ∧
      (s.quiet h = true →
        (z.st = 9 → m.tim.source = 2 → z.syncAt + m.ptpReceipt ≤ m.up →
          ∃ t, exec (.announceReceiptTimeout p true) s = .next t ∧ (t.half h).tim.source = 3 ∧ (t.half h).tim.rate = m.tim.rate ∧
            ((t.half h).ptpPort p).st = 9) ∧
        (1 ≤ p → p ≤ 3 → 4 ≤ z.st → z.annAt + m.ptpReceipt ≤ m.up → m.rdF rPtpPrio 16 8 ≠ 255 → (∀ q, q ≠ p → (m.ptpPort q).best = none) →
          ∃ t, exec (.announceReceiptTimeout p false) s = .next t ∧ ((t.half h).ptpPort p).best = none ∧ ((t.half h).ptpPort p).st = 6 ∧
            (t.half h).tim.master = none))) ∧
    (s.quiet h = true → m.tim.source = 3 → m.tim.holdAt + m.rdF rPtpServo 0 16 * oneSec ≤ m.up →
      ∃ t, exec (.holdoverExpiry h) s = .next t ∧ (t.half h).tim = { m.tim with source := 0, good := 0 } ∧
        (t.half h).arisen 0x0408 3 0 m.slavePort 0)

/-- PAGE_SEL_WRITE, GRN_DATA_WRITE, GRN_COMMIT, STORE_GO, PERIODIC_STORE, STORE_CAPTURE and STORE_PROGRAMMED
(R433, R434, R437, R439, R442, Table 18.4): an accessor's page buffer, its commit into the volatile array (which
changes that page and no other byte), and stores: commanded, periodic after PERIOD_MIN minutes, their capture of
the whole array, and their end, which makes the bank CURRENT with its CRC, or INVALID. What the spec leaves open
here is the model's choice (log entry 53). -/
def Obligations.GranaryStores : Prop :=
  ∀ (s : State) (h : HalfId) (r : Req) (v : Word),
    let m := s.half h
    let n := reqNum r
    let p := m.selPage n
    (s.admits h r rGrnPageSel v = true →
      (32 ≤ fld v 0 8 →
        ∃ t, exec (.pageSelWrite h r v) s = .next t ∧ (t.half h).selPage n = fld v 0 8 ∧ (t.half h).selPtr n = fld v 8 6 ∧
          (t.half h).gBuf n = (if flag v 15 then m.gPage (fld v 0 8) else m.gBuf n) ∧ (t.half h).grn = m.grn ∧
          (t.half h).answered r = ⟨0, 0⟩) ∧
      (fld v 0 8 < 32 →
        ∃ t, exec (.pageSelWrite h r v) s = .next t ∧ (t.half h).selPage n = p ∧ (t.half h).gBuf n = m.gBuf n ∧
          (t.half h).answered r = ⟨5, 0⟩)) ∧
    (s.admits h r rGrnData v = true → let q := m.selPtr n
      ∃ t, exec (.grnDataWrite h r v) s = .next t ∧ (t.half h).selPtr n = (q + 4) % 64 ∧ (t.half h).selPage n = p ∧
        (∀ i, i < 4 → ((t.half h).gBuf n).getD ((q + i) % 64) 0 = BitVec.ofNat 8 (fld v (8 * i) 8)) ∧
        (∀ j, j < 64 → (∀ i, i < 4 → j ≠ (q + i) % 64) → ((t.half h).gBuf n).getD j 0 = (m.gBuf n).getD j 0) ∧
        (t.half h).grn = m.grn ∧ (t.half h).answered r = ⟨0, 0⟩) ∧
    (s.admits h r rGrnCommit v = true → flag v 0 = true →
      (m.grn.frozen = false → 32 ≤ p → m.gClass p ≠ 0 → m.gOwner p = 0 →
        ∃ t, exec (.grnCommit h r v) s = .next t ∧ (t.half h).gPage p = m.gBuf n ∧
          (∀ i, (i < p * 64 ∨ p * 64 + 64 ≤ i) → sget 0 (t.half h).grn.array i = sget 0 m.grn.array i) ∧
          (t.half h).view n rGrnCommitStat = 0 ∧ (t.half h).answered r = ⟨0, 0⟩) ∧
      (m.grn.frozen = true ∨ p < 32 ∨ m.gClass p = 0 ∨ m.gOwner p ≠ 0 →
        ∃ t, exec (.grnCommit h r v) s = .next t ∧ (t.half h).grn = m.grn ∧ (t.half h).view n rGrnCommitStat = 5 ∧
          (t.half h).answered r = ⟨5, 0⟩)) ∧
    (s.admits h r rGrnStoreCtrl (putFlag v 31 true) = true → fld v 0 11 ≤ 1440 →
      let y := s.view h
      (y.pfw = false → y.fail = false → m.grn.request = none → m.grn.busy = none → m.grn.frozen = false →
        (∀ c, m.grn.lastCap = some c → c + 60000000000 ≤ m.up) →
        ∃ t, exec (.storeGo h r v) s = .next t ∧ (t.half h).grn = { m.grn with request := some (1, some n) } ∧
          (t.half h).rdF rGrnStoreCtrl 0 11 = fld v 0 11 ∧ (t.half h).answered r = ⟨0, 0⟩) ∧
      (∀ c, y.pfw = false → y.fail = false → m.grn.request = none → m.grn.busy = none → m.grn.frozen = false →
        m.grn.lastCap = some c → m.up < c + 60000000000 →
        ∃ t, exec (.storeGo h r v) s = .next t ∧ (t.half h).grn.request = none ∧ (t.half h).grn.array = m.grn.array ∧
          (t.half h).arisen 0x0507 1 ((m.up - c) / 1000000000) (reqStamp r).toNat 0 ∧
          (t.half h).grnRead n rGrnStoreStat = some 0x02010000 ∧ (t.half h).answered r = ⟨5, 0⟩) ∧
      (y.pfw = true ∨ y.fail = true → ∃ t, exec (.storeGo h r v) s = .next t ∧ (t.half h).grn.request = m.grn.request ∧
        (t.half h).grnRead n rGrnStoreStat = some 0x02010000 ∧ (t.half h).answered r = ⟨5, 0⟩)) ∧
    (s.quiet h = true →
      (m.rdF rGrnStoreCtrl 0 11 ≠ 0 → m.grn.frozen = false → (s.view h).fail = false → m.grn.request = none → m.grn.busy = none →
        m.grn.lastCap.getD m.grn.startAt + m.rdF rGrnStoreCtrl 0 11 * 60 * oneSec ≤ m.up →
        ∃ t, exec (.periodicStore h) s = .next t ∧ (t.half h).grn = { m.grn with request := some (2, none) }) ∧
      (∀ (kind : Nat) (who : Option Nat), m.grn.request = some (kind, who) → m.grn.frozen = false →
        let b := if m.grn.current = some 0 then 1 else 0
        ∃ t, exec (.storeCapture h) s = .next t ∧ ((t.half h).grn.bank b).image = (t.half h).grn.array ∧
          ((t.half h).grn.bank b).st = 2 ∧ ((t.half h).grn.bank b).crc = none ∧ ((t.half h).grn.bank b).kind = kind ∧
          ((t.half h).grn.bank b).seq = (if m.grn.current.isSome then m.grn.curSeq + 1 else 1) ∧
          (t.half h).grn.bank (1 - b) = m.grn.bank (1 - b) ∧ (t.half h).grn.count = word (stickTo 0xFFFFFFFF m.grn.count.toNat 1) ∧
          (t.half h).grn.frozen = decide (kind = 3) ∧ (t.half h).grn.request = none ∧ (t.half h).grn.current = m.grn.current ∧
          (∀ i, (i < 28 * 64 ∨ 28 * 64 + 16 ≤ i) → sget 0 (t.half h).grn.array i = sget 0 m.grn.array i))) ∧
    (∀ x : Store, s.quiet h = true → m.grn.busy = some x → x.kind ≠ 3 → x.bank ≤ 1 →
      let dur := (m.up - x.since) / 10000
      (∃ t, exec (.storeProgrammed h true) s = .next t ∧ (t.half h).grn.current = some x.bank ∧
        (t.half h).grn.curSeq = (m.grn.bank x.bank).seq ∧ ((t.half h).grn.bank x.bank).st = 1 ∧
        ((t.half h).grn.bank x.bank).crc = some (m.grn.bank x.bank).crcNow ∧
        (t.half h).grn.bank (1 - x.bank) = m.grn.bank (1 - x.bank) ∧ (t.half h).grn.busy = none ∧
        (t.half h).grn.lastStat = storeResult 1 x.kind dur ∧ (t.half h).rdB (pgIrqRaw 0x004) 0 = true) ∧
      (∃ t, exec (.storeProgrammed h false) s = .next t ∧ (t.half h).grn.current = m.grn.current ∧
        ((t.half h).grn.bank x.bank).st = 3 ∧ (t.half h).grn.bank (1 - x.bank) = m.grn.bank (1 - x.bank) ∧
        (t.half h).grn.busy = none ∧ (t.half h).grn.lastStat = storeResult 3 x.kind dur ∧ (t.half h).rdB (pgIrqRaw 0x004) 1 = true ∧
        (t.half h).arisen 0x0501 x.kind x.bank 1 (m.grn.bank x.bank).seq.toNat))

/-- PFW_ASSERT, PFW_RELEASE and INPUT_CHANGED (R451 to R456): power fail. PFW begins the sequence of Table 19.2
in each half that runs, with a start due and event 0x0304 for the half; its release ends it; and a supply input
that falls or returns is reported. What the spec leaves open here is the model's choice (log entry 57). -/
def Obligations.PowerFail : Prop :=
  ∀ (s : State) (va vb : Nat),
    let p := s.yoke.pwr
    (p.pfw = false → p.state ≠ 3 → p.held = false → s.yoke.granted = true → p.entry = none → s.yoke.xfer = none →
      ∃ t, exec (.pfwAssert va vb) s = .next t ∧
        t.yoke.pwr = { p with pfw := true, holdup := true, due := true, causes := p.causes ||| 0x20 } ∧
        t.yoke.handover = none ∧ t.yoke.chall = none ∧ t.yoke.holder = s.yoke.holder ∧
        ∀ h, s.runs h = true →
          ((s.yh h).storing = false →
            (t.yh h).storing = true ∧ t.half h =
              (((s.half h).irq 0x002 0).ev 0x0304 va vb p.state 0).pfwStops { s.view h with pfw := true, fail := true }) ∧
          ((s.yh h).storing = true → t.half h = ((s.half h).irq 0x002 0).ev 0x0304 va vb p.state 0)) ∧
    (p.pfw = true →
      (∃ t, exec (.pfwAssert va vb) s = .next t ∧ t = s) ∧
      (p.state ≠ 3 → ∃ t, exec .pfwRelease s = .next t ∧ t.yoke.pwr = { p with pfw := false, holdup := false } ∧ t.a = s.a ∧ t.b = s.b)) ∧
    (∀ (b low : Bool) (mv o : Nat), (if b then p.lowB else p.lowA) ≠ low →
      ∃ t, exec (.inputChanged b low mv o) s = .next t ∧ t.yoke.pwr = (if b then { p with lowB := low } else { p with lowA := low }) ∧
        ∀ h, s.runs h = true → (t.half h).arisen 0x0301 b.toNat low.toNat mv o ∧ (t.half h).rdB (pgIrqRaw 0x002) 1 = true)

/-- PFW_ASSERT and PFW_RELEASE (R457): PFW in Dormant. The Yoke alone records event 0x0304, or counts it where its tail is full, and
nothing else happens; when the supply has recovered, the Yoke wakes the module with the reason PFW_RECOVERY, unless a start is already to
come. -/
def Obligations.DormantPowerFail : Prop :=
  ∀ (s : State) (va vb : Nat),
    let p := s.yoke.pwr
    let k := s.yoke
    p.state = 3 →
    (p.pfw = false →
      ∃ t, exec (.pfwAssert va vb) s = .next t ∧ t = { s with yoke := { k with
        pwr := { p with pfw := true, holdup := true }
        recs := if k.recs.length < 8 then k.recs ++ [⟨0x0304, va, vb, 3, 0, BitVec.ofNat 64 s.rtcTai⟩] else k.recs
        recsLost := if k.recs.length < 8 then k.recsLost else k.recsLost + 1 } }) ∧
    (p.pfw = true →
      (p.due = false →
        ∃ t, exec .pfwRelease s = .next t ∧ t.yoke.pwr.pfw = false ∧ t.yoke.pwr.due = true ∧ t.yoke.pwr.held = true ∧
          t.yoke.pwr.wake = 0x80000006 ∧ t.yoke.pwr.wakeT = BitVec.ofNat 64 s.rtcTai) ∧
      (p.due = true → ∃ t, exec .pfwRelease s = .next t ∧ t.yoke.pwr = { p with pfw := false, holdup := false }))

/-- REQ_WORKING, REQ_QUIET, REQ_FALLOW, REQ_DORMANT, PAGE_POWER_ANSWER, POWER_DELAY_EXPIRY,
POWER_ANSWER_TIMEOUT, WAKE and MZ_WAKE_RECEIVE (R460 to R467, R377, Tables 19.5 and 19.6): entering a lower
state and waking. A request names a state; every page is asked under one TAG; one refusal, a fourth DELAY or an
answer that is 1 ms late aborts the entry; once every page has accepted Quiet or Fallow is entered, or the
halves make their stores for Dormant; and a wake source that PWR.WAKE_EN accepts ends the state. What the spec
leaves open here is the model's choice (log entry 57). -/
def Obligations.PowerStates : Prop :=
  ∀ (s : State) (h : HalfId) (r : Req),
    let p := s.yoke.pwr
    let req (k : Nat) : Instr := if k = 0 then .reqWorking h r else if k = 1 then .reqQuiet h r else if k = 2 then .reqFallow h r
      else .reqDormant h r
    let shown (t : State) (result reason page target : Nat) : Prop :=
      t.yoke.pwr.entry = none ∧ t.yoke.pwr.stat = pwrStatWord false result reason page target ∧
        ∀ g, s.runs g = true → (t.half g).arisen 0x0302 target result page reason
    (∀ k : Nat, k < 4 → s.admits h r rPwrReq (word k) = true → s.once h r = true →
      let done (t : State) : Prop := exec (req k) s = .next t ∧ (t.half h).answered r = ⟨0, 0⟩
      (∀ e, p.entry = some e → ∃ t, exec (req k) s = .next t ∧ t.yoke.pwr = p ∧ (t.half h).answered r = ⟨5, 0⟩) ∧
      (p.entry = none →
        (k = p.state → ∃ t, done t ∧ t.yoke.pwr = { p with stat := pwrStatWord false 1 0 0 k }) ∧
        (k ≠ p.state → p.pfw = true → ∃ t, done t ∧ shown t 6 0 0 k ∧ t.yoke.pwr.state = p.state) ∧
        (p.pfw = false → 2 ≤ k → k ≠ p.state → (k = 2 → p.state ≠ 3 ∧ s.yoke.holder ≠ none) →
          (∀ i, i < 5 → s.rdB .a rPwrWakeEn i = false) → ∃ t, done t ∧ shown t 7 0 0 k ∧ t.yoke.pwr.state = p.state) ∧
        (p.pfw = false → (k = 0 ∨ k = 1) → (p.state = 2 ∨ p.state = 3) →
          ∃ t, exec (req k) s = .next t ∧ t.yoke.pwr = p ∧ (t.half h).answered r = ⟨5, 0⟩) ∧
        (p.pfw = false → k = 0 → p.state = 1 →
          ∃ t, done t ∧ t.yoke.pwr.state = 0 ∧ t.yoke.pwr.stat = pwrStatWord false 1 0 0 0 ∧
            ∀ g, s.runs g = true → (t.half g).arisen 0x0303 1 0 0 0) ∧
        (p.pfw = false → (k = 1 ∧ p.state = 0) ∨ (2 ≤ k ∧ p.state < 2 ∧ (k = 2 → s.yoke.holder ≠ none) ∧
            s.rdB .a rPwrWakeEn 1 = true) →
          ∃ t e, done t ∧ t.yoke.pwr.entry = some e ∧ e.target = k ∧ e.tag = (p.tag + 1) % 256 ∧ e.accepted = [] ∧
            t.yoke.pwr.state = p.state ∧ t.yoke.pwr.stat = pwrStatWord true 0 0 0 k ∧
            (∀ g pg, (g, pg) ∈ e.waiting ↔ s.runs g = true ∧ pg ∈ powerPages) ∧
            (∀ g pg, s.runs g = true → pg ∈ powerPages → g ≠ h →
              (t.half g).rd (pgPwrReq pg) = word (e.tag * 256 + (s.half g).powerTarget k (s.lease g) pg))))) ∧
    (∀ (e : Entry) (page : Nat), p.entry = some e →
      let m := s.half h
      let x (a v : Nat) : PowerAnswer := ⟨a, v⟩
      let rest := e.waiting.filter (fun q => decide (q ≠ (h, page)))
      ((h, page) ∈ e.waiting → m.powerRule page = none →
        (∀ v, v < 256 →
          (∃ t, exec (.pagePowerAnswer h page (x 3 v)) s = .next t ∧ t.yoke.pwr.entry = none ∧
            t.yoke.pwr.stat = pwrStatWord false 2 v page e.target ∧ t.yoke.pwr.state = p.state) ∧
          (e.delays = [] →
            ∃ t, exec (.pagePowerAnswer h page (x 2 v)) s = .next t ∧ t.yoke.pwr.entry =
              some { e with
                waiting := rest, paused := e.paused ++ [(h, page)], delays := [(h, page, 1)], since := sput e.since (entryKey h page) s.yoke.now }) ∧
          (e.delays = [(h, page, 3)] →
            ∃ t, exec (.pagePowerAnswer h page (x 2 v)) s = .next t ∧ t.yoke.pwr.entry = none ∧
              t.yoke.pwr.stat = pwrStatWord false 4 0xFE page e.target)) ∧
        (rest ≠ [] ∨ e.paused ≠ [] →
          ∃ t, exec (.pagePowerAnswer h page (x 1 0)) s = .next t ∧
            t.yoke.pwr.entry = some { e with waiting := rest, accepted := e.accepted ++ [(h, page)] } ∧ t.yoke.pwr.state = p.state) ∧
        (rest = [] → e.paused = [] → e.target = 1 →
          ∃ t, exec (.pagePowerAnswer h page (x 1 0)) s = .next t ∧ t.yoke.pwr.entry = none ∧ t.yoke.pwr.state = 1 ∧
            t.yoke.pwr.stat = pwrStatWord false 1 0 0 1) ∧
        (∀ g : HalfId, rest = [] → e.paused = [] → e.target = 2 → s.yoke.xfer = none → s.yoke.holder = some g →
          s.role (other g) = .follower →
          ∃ t, exec (.pagePowerAnswer h page (x 1 0)) s = .next t ∧ t.yoke.pwr.entry = none ∧ t.yoke.pwr.state = 2 ∧
            t.role (other g) = .muted ∧ (t.yh (other g)).inRet = true ∧ t.yoke.holder = some g) ∧
        (rest = [] → e.paused = [] → e.target = 3 →
          ∃ t, exec (.pagePowerAnswer h page (x 1 0)) s = .next t ∧ t.yoke.pwr.state = p.state ∧ t.goingDown = true ∧
            ∀ g, s.role g ≠ .retired → (s.yh g).boot = none →
              (t.yh g).storing = true ∧ (t.half g).grn.request = some (3, none))) ∧
      ((h, page) ∈ e.paused → (sfind e.since (entryKey h page)).getD 0 + m.rdF (pgPwrRsp page) 8 8 * oneMs ≤ s.yoke.now →
        ∃ t, exec (.powerDelayExpiry h page) s = .next t ∧ t.yoke.pwr.entry = some { e with
            waiting := e.waiting ++ [(h, page)], paused := e.paused.filter (fun q => decide (q ≠ (h, page)))
            since := sput e.since (entryKey h page) s.yoke.now } ∧
          t.yoke.pwr.tag = (p.tag + 1) % 256 ∧
          (t.half h).rd (pgPwrReq page) = word ((p.tag + 1) % 256 * 256 + m.rdF (pgPwrReq page) 0 2)) ∧
      ((h, page) ∈ e.waiting → (sfind e.since (entryKey h page)).getD 0 + oneMs ≤ s.yoke.now →
        ∃ t, exec (.powerAnswerTimeout h page) s = .next t ∧ t.yoke.pwr.entry = none ∧
          t.yoke.pwr.stat = pwrStatWord false 3 0xFF page e.target ∧ t.yoke.pwr.state = p.state)) ∧
    (∀ reason : Nat, 1 ≤ reason → reason ≤ 5 →
      (s.rdB .a rPwrWakeEn (reason - 1) = false → ∀ lost, ∃ t, exec (.wake reason lost) s = .next t ∧ t = s) ∧
      (s.rdB .a rPwrWakeEn (reason - 1) = true →
        (p.state = 2 → p.entry = none → s.frozen = false →
          ∃ t, exec (.wake reason []) s = .next t ∧ t.yoke.pwr.state = 0 ∧ t.yoke.pwr.wake = word (2 ^ 31 + reason) ∧
            (∀ g, (t.yh g).inRet = false) ∧ t.yoke.holder = s.yoke.holder) ∧
        (p.state = 3 → p.due = false → reason ≠ 1 →
          ∃ t, exec (.wake reason []) s = .next t ∧ t.yoke.pwr.due = true ∧ t.yoke.pwr.held = true ∧ t.yoke.pwr.causes = 0 ∧
            t.yoke.pwr.wake = word (2 ^ 31 + reason)) ∧
        (∀ e, p.state < 2 → p.entry = some e → 2 ≤ e.target → e.waiting ≠ [] ∨ e.paused ≠ [] →
          ∃ t, exec (.wake reason []) s = .next t ∧ shown t 5 reason 0 e.target ∧ t.yoke.pwr.state = p.state))) ∧
    (∀ f : MzFrame, let m := if s.runs .a then s.a else s.b
      f.kind = 2 → f.dest = m.addr ∨ f.dest = 0xFFFF → leAt f.payload 0 4 = m.rdN rMzWakeCode → p.state = 2 → p.entry = none →
      s.frozen = false → s.rdB .a rPwrWakeEn 2 = true →
      ∃ t, exec (.mzWakeReceive f) s = .next t ∧ t.yoke.pwr.state = 0 ∧ t.yoke.pwr.wake = 0x80000003)

/-- MGT_ADDRESS_MATCH, GET_STATUS, MGT_READ, MGT_WRITE, SET_STATE and MGT_WAKE (R470, R471, Table 19.9): the
management port. Its address is acknowledged while MGT.CTRL.EN is 1; a command with a bad PEC or LEN is not
executed; and READ, WRITE, GET_STATUS, SET_STATE and WAKE leave their response for the next read transaction.
What the spec leaves open here is the model's choice (log entry 40). -/
def Obligations.ManagementPort : Prop :=
  ∀ (s : State) (x : MgtReq),
    let cmd (n : Nat) : Instr := if n = 1 then .getStatus x else if n = 2 then .mgtRead x else if n = 3 then .mgtWrite x
      else if n = 4 then .setState x else .mgtWake x
    let p := s.yoke.pwr
    let k := s.mgtOf x
    let n := leAt x.payload 5 1
    let b (n : Nat) : Byte := BitVec.ofNat 8 n
    (∀ addr : Nat, (s.rdB .a rMgtCtrl 15 = false ∨ p.state < 2 ∧ p.entry = none) →
      ∃ t, exec (.mgtAddressMatch addr) s = .next t ∧
        t.yoke.mgt.acked = (s.rdB .a rMgtCtrl 8 && decide (s.rdF .a rMgtCtrl 0 7 = addr)) ∧ t.yoke.pwr = p) ∧
    (∀ c : Nat, 1 ≤ c → c ≤ 5 →
      (s.rdB .a rMgtCtrl 8 = false → ∃ t, exec (cmd c) s = .next t ∧ t = s) ∧
      (s.rdB .a rMgtCtrl 8 = true →
        (x.pecOk = false →
          ∃ t, exec (cmd c) s = .next t ∧ t.yoke.mgt.status = 0xFE ∧ t.yoke.mgt.rsp = [] ∧ t.yoke.pwr = p ∧
            ∀ h, s.runs h = true → (t.half h).arisen 0x0308 c 0xFE 0 0) ∧
        (x.pecOk = true → x.payload.length ≠ x.len ∨ 28 < x.len →
          ∃ t, exec (cmd c) s = .next t ∧ t.yoke.mgt.status = 0x0B ∧ t.yoke.mgt.rsp = [] ∧ t.yoke.pwr = p ∧
            ∀ h, s.runs h = true → (t.half h).arisen 0x0308 c 0x0B 0 0))) ∧
    (s.rdB .a rMgtCtrl 8 = true → x.pecOk = true → x.payload.length = x.len → x.len ≤ 28 →
      (x.len = 0 →
        (∃ t, exec (.getStatus x) s = .next t ∧ t.yoke.mgt.status = 0 ∧
          t.yoke.mgt.rsp = [b p.state, b (roleCode (s.role .a)), b (roleCode (s.role .b)), b (fld p.wake 0 3)] ++ leBytes 4 0x720042A1
            ++ [b (((s.rtcRead rRtcStat).getD 0).toNat), b (!s.faultN).toNat, 0, 0] ∧ t.rd .a rMgtStat = 0x100) ∧
        (p.state < 2 → p.entry = none → ∃ t, exec (.mgtWake x) s = .next t ∧ t.yoke.mgt.status = 0 ∧ t.yoke.pwr = p) ∧
        (p.state = 2 → p.entry = none → s.frozen = false →
          ∃ t, exec (.mgtWake x) s = .next t ∧ t.yoke.mgt.status = 0 ∧ t.yoke.pwr.state = 0 ∧ t.yoke.pwr.wake = 0x80000002)) ∧
      (x.len = 1 → leAt x.payload 0 1 < 4 → s.admits s.primary .mgt rPwrReq (word (leAt x.payload 0 1)) = true →
        (s.powerReq (leAt x.payload 0 1)).2 = 0 →
        ∃ t, exec (.setState x) s = .next t ∧ t.yoke.mgt.status = 0 ∧ t.yoke.pwr = (s.powerReq (leAt x.payload 0 1)).1.yoke.pwr) ∧
      (leAt x.payload 0 1 ≤ 2 → 1 ≤ n →
        (x.len = 6 → n ≤ 6 → s.mgtStalls k x false = false → (mgtKeys x).all (s.mgtReach k) = true →
          ∃ t, exec (.mgtRead x) s = .next t ∧
            (let (s1, st, ws) := s.pageRead k .mgt (leAt x.payload 1 2) (leAt x.payload 3 2) n
             t.yoke.mgt.status = st ∧ t.yoke.mgt.rsp = ws.flatMap (fun w => leBytes 4 w.toNat) ∧ t.yoke.pwr = s1.yoke.pwr)) ∧
        (x.len = 6 + 4 * n → n ≤ 5 → s.mgtStalls k x true = false → s.runs k = true →
          ∃ t, exec (.mgtWrite x) s = .next t ∧
            (let (s1, st, bad) := s.pageWrite k .mgt (leAt x.payload 1 2) (leAt x.payload 3 2)
              ((List.range n).map (fun i => word (leAt x.payload (6 + 4 * i) 4)))
             t.yoke.mgt.status = st ∧ t.yoke.mgt.rsp = [b (bad.getD 0xFF)] ∧ t.yoke.pwr = s1.yoke.pwr)) ∧
        (x.len = 6 → n ≤ 6 → s.mgtStalls k x false = true →
          ∃ t, exec (.mgtRead x) s = .next t ∧ t.yoke.mgt.status = 0xFF ∧ t.yoke.mgt.wait = some x)))

/-- STREAM_OPEN, STREAM_ABORT, WIN_WRITE, LOAD_TIMEOUT, SLOT_COPY_DONE and OWNER_KEY_COMMIT (R483 to R485, R498,
Table 20.4): loads. STREAM OPEN begins one in a slot that may take it; ABORT ends it, and so does the timeout,
600 s after the last accepted write; UPD.WIN takes the image bytes in order, from class 3 alone, and ends the
load where a check of Table 20.4 fails; a finished copy makes the slot VERIFIED; and a valid owner key is taken
with the one before it. What the spec leaves open here is the model's choice (log entry 29). -/
def Obligations.ImageLoads : Prop :=
  ∀ (s : State) (h : HalfId) (r : Req) (v : Word),
    let m := s.half h
    let u := m.upd
    let n := fld v 0 2
    (s.admits h r rUpdStream v = true → n < 3 →
      (flag v 31 = true →
        (u.load = none → (n < 2 → s.yoke.act.phase ≠ 3 ∧ (m.upSlot n).st < 3 ∨ s.yoke.act.phase ≠ 3 ∧ (m.upSlot n).st = 6) →
          ∃ t, exec (.streamOpen h r v) s = .next t ∧ (t.half h).upd.load = some ⟨n, [], 0, false, reqStamp r, m.up⟩ ∧
            (t.half h).upd.rxOff = 0 ∧ (n < 2 → ((t.half h).upSlot n).st = 1) ∧ (∀ i, i ≠ n → (t.half h).upSlot i = m.upSlot i) ∧
            (t.half h).answered r = ⟨0, 0⟩) ∧
        (u.load ≠ none ∨ (n < 2 ∧ (s.yoke.act.phase = 3 ∨ (m.upSlot n).st = 3 ∨ (m.upSlot n).st = 4 ∨ (m.upSlot n).st = 5)) →
          ∃ t, exec (.streamOpen h r v) s = .next t ∧ (t.half h).upd = u ∧ (t.half h).answered r = ⟨5, 0⟩)) ∧
      (flag v 31 = false → flag v 30 = true → ∀ x, u.load = some x →
        ∃ t, exec (.streamAbort h r v) s = .next t ∧ (t.half h).upd.load = none ∧ (x.target < 2 → ((t.half h).upSlot x.target).st = 6) ∧
          (t.half h).upd.rxStat = rxWord 3 0x0A x.blocks ∧ (t.half h).answered r = ⟨0, 0⟩ ∧
          (t.half h).arisen 0x0602 (if x.target < 2 then x.target else 0xFF) 0x0A x.blocks x.stamp.toNat)) ∧
    (∀ (x : Load) (off : Word) (l : List Word), u.load = some x → s.admits h r (rUpdWin 0) off = true → l ≠ [] →
      let all := x.bytes ++ l.flatMap (fun w => leBytes 4 w.toNat)
      let cause := m.imgHeader s.yoke.arb x.target all
      (stampClass (reqStamp r) ≠ 3 ∨ off.toNat ≠ u.rxOff ∨ 247 < l.length →
        ∃ t, exec (.winWrite h r (off :: l)) s = .next t ∧ (t.half h).upd = u ∧ (t.half h).answered r = ⟨5, 0⟩) ∧
      (stampClass (reqStamp r) = 3 → off.toNat = u.rxOff → l.length ≤ 247 → x.copy = false →
        (all.length < 256 →
          ∃ t, exec (.winWrite h r (off :: l)) s = .next t ∧ (t.half h).upd.rxOff = u.rxOff + 4 * l.length ∧
            (t.half h).upd.load = some { x with bytes := all, since := m.up } ∧ (t.half h).answered r = ⟨0, 0⟩) ∧
        (x.bytes.length < 256 → 256 ≤ all.length → cause ≠ 0 →
          ∃ t, exec (.winWrite h r (off :: l)) s = .next t ∧ (t.half h).upd.load = none ∧
            (x.target < 2 → ((t.half h).upSlot x.target).st = 6) ∧ (t.half h).upd.rxStat = rxWord 3 cause x.blocks ∧
            (t.half h).arisen 0x0602 (if x.target < 2 then x.target else 0xFF) cause x.blocks x.stamp.toNat))) ∧
    (∀ x : Load, s.quiet h = true → u.load = some x →
      (x.copy = false → x.since + 600 * oneSec ≤ m.up →
        ∃ t, exec (.loadTimeout h) s = .next t ∧ (t.half h).upd.load = none ∧ (x.target < 2 → ((t.half h).upSlot x.target).st = 6) ∧
        (t.half h).arisen 0x0602 (if x.target < 2 then x.target else 0xFF) 0x0A x.blocks x.stamp.toNat) ∧
      (x.copy = true →
        ∃ t, exec (.slotCopyDone h) s = .next t ∧ (t.half h).upd.load = none ∧ ((t.half h).upSlot x.target).st = 2 ∧
          ((t.half h).upSlot x.target).ver = word (leAt x.bytes 8 4) ∧
          (if leAt x.bytes 5 1 = 1 then ((t.half h).upSlot x.target).fw = x.bytes else ((t.half h).upSlot x.target).cfg = x.bytes) ∧
          (t.half h).arisen 0x0601 x.target (leAt x.bytes 5 1) (word (leAt x.bytes 8 4)).toNat (leAt x.bytes 7 1))) ∧
    (s.admits h r rSecOwnerKey v = true →
      let a := m.ageStaged (reqNum r)
      let k := v :: (List.range 23).map (fun i => (a.stagedWord (reqNum r) (rSecOwnerKey + 4 * (i + 1))).getD
        ((m.sec.key.getD []).getD (i + 1) 0))
      (onCurve (ownerPoint k) = true →
        ∃ t, exec (.ownerKeyCommit h r v) s = .next t ∧ (t.half h).sec = ⟨some k, m.sec.key⟩ ∧ (t.half h).answered r = ⟨0, 0⟩) ∧
      (onCurve (ownerPoint k) = false →
        ∃ t, exec (.ownerKeyCommit h r v) s = .next t ∧ (t.half h).sec = m.sec ∧ (t.half h).answered r = ⟨5, 0⟩))

/-- UPD_ACTIVATE, ROLLBACK, ACCEPT, MIG_DONE, MIG_FAIL, MIGRATION_TIMEOUT, ACTIVATION_TIMEOUT, YOKE_RELOAD_DONE
and PROBATION_END (R488 to R493, Tables 20.7 and 20.9): activation and its end. A checked request restarts the
follower from the slot under PHASE ACTIVATING; a refused one shows its cause; ROLLBACK, a failed migration, one
not reported within MIG_S, a half that is not there within 10 s and a failed reload of the Yoke go back; ACCEPT
and the end of the probation make the TRIAL slot ACTIVE and raise the anti-rollback counter. What the spec
leaves open here is the model's choice (log entries 29 and 34). -/
def Obligations.Activations : Prop :=
  ∀ (s : State) (h : HalfId) (r : Req) (v : Word) (x : HalfId),
    let y := other x
    let m := s.half h
    let a := s.yoke.act
    let st := reqStamp r
    let slot := fld v 16 1
    let ver := m.rd rUpdActVer
    let cause := s.actCheck slot ver (flag v 8) (stampClass st)
    let op (k : Word) : Bool := s.admits h r rUpdCmd k && s.once h r
    let roll := ((s.half x).upSlot (s.half x).upd.run).roll
    let arb := max s.yoke.arb roll
    let ended (t : State) (how : Nat) (z : Stamp) : Prop :=
      t.yoke.act.phase = 0 ∧ t.yoke.arb = arb ∧ (s.runs x = true → (t.half x).arisen 0x0609 a.slot a.ver.toNat how z.toNat) ∧
        ∀ g i, ((t.half g).upSlot i).st = (let z := (s.half g).upSlot i
          if z.st = 4 then 3 else if z.st = 5 then (if z.roll < arb then 6 else 2) else z.st)
    let restarts (t : State) (g : HalfId) : Prop :=
      t.role g = .booting ∧ (t.yh g).boot = some 0xC0 ∧ (t.half g).upd.next = (if t.yoke.act.phase = 1 then t.yoke.act.slot else t.yoke.act.was)
    (op v = true → fld v 0 4 = 1 →
      (cause ≠ 0 → ∃ t, exec (.updActivate h r v) s = .next t ∧ t.yoke.act = a ∧
        (t.half h).view (reqNum r) rUpdCmdStat = word (cause * 2 ^ 16 + 5) ∧ (t.half h).answered r = ⟨5, 0⟩) ∧
      (cause = 0 → s.yoke.hold = false → s.yoke.holder = some x → s.role x = .inCharge → s.role y = .follower →
        (s.half y).upd.run ≠ slot →
        ∃ t, exec (.updActivate h r v) s = .next t ∧ t.yoke.act.phase = 1 ∧ t.yoke.act.slot = slot ∧ t.yoke.act.ver = ver ∧
          t.yoke.act.who = some y ∧ restarts t y ∧ t.yoke.holder = some x ∧ t.role x = .inCharge ∧
          (s.runs x = true → (t.half x).arisen 0x0603 slot ver.toNat (flag v 8).toNat st.toNat) ∧
          (t.half h).view (reqNum r) rUpdCmdStat = 0 ∧ (t.half h).answered r = ⟨0, 0⟩) ∧
      (cause = 0 → s.yoke.hold = false → s.yoke.holder = some x → s.role x = .inCharge → s.role y = .retired →
        (s.half x).upd.run ≠ slot →
        ∃ t, exec (.updActivate h r v) s = .next t ∧ t.yoke.act.phase = 1 ∧ t.yoke.act.single = true ∧ restarts t x ∧
          t.yoke.holder = none ∧ (t.half h).answered r = ⟨0, 0⟩)) ∧
    (op 2 = true →
      (a.phase ≠ 1 → a.phase ≠ 3 →
        ∃ t, exec (.rollback h r) s = .next t ∧ t.yoke.act = a ∧ (t.half h).answered r = ⟨5, 0⟩) ∧
      (a.phase = 1 ∨ a.phase = 3 → s.yoke.hold = false → s.yoke.holder = some x → s.role x = .inCharge → s.role y = .follower →
        (s.half y).upd.run ≠ a.was →
        ∃ t, exec (.rollback h r) s = .next t ∧ t.yoke.act.phase = 4 ∧ t.yoke.act.cause = 0 ∧ restarts t y ∧
          t.yoke.holder = some x ∧ (t.half h).answered r = ⟨0, 0⟩)) ∧
    (op 3 = true →
      (a.phase ≠ 3 → ∃ t, exec (.accept h r) s = .next t ∧ t.yoke.act = a ∧ (t.half h).answered r = ⟨5, 0⟩) ∧
      (a.phase = 3 → s.yoke.holder = some x →
        ∃ t, exec (.accept h r) s = .next t ∧ ended t 2 st ∧ (t.half h).answered r = ⟨0, 0⟩)) ∧
    (a.phase = 3 → s.yoke.holder = some x → a.probAt + s.rdF .a rUpdCtrl 8 8 * 3600 * oneSec ≤ s.timeBase →
      ∃ t, exec .probationEnd s = .next t ∧ ended t 1 0) ∧
    (op 4 = true → a.phase = 1 → m.upd.migrating = true →
      ∃ t, exec (.migDone h r) s = .next t ∧ (t.half h).upd.migrating = false ∧ (t.half h).upd.migrated = true ∧
        (t.half h).upd.dataFmt = (m.upSlot m.upd.run).fmt ∧ (t.half h).answered r = ⟨0, 0⟩) ∧
    (s.yoke.hold = false → s.yoke.holder = some x → s.role x = .inCharge → s.role y = .follower → (s.half y).upd.run ≠ a.was →
      a.phase = 1 →
      (∀ z : HalfId, z = y → (s.half y).upd.migrating = true → let e := if s.autoRb then 1 else 5
        (h = y → op 5 = true →
          ∃ t, exec (.migFail h r) s = .next t ∧ t.yoke.act.phase = 4 ∧ t.yoke.act.cause = e ∧ restarts t y ∧
            (t.half y).upd.migrating = false ∧ t.yoke.holder = some x ∧ (t.half h).answered r = ⟨0, 0⟩) ∧
        ((s.half x).upd.migrating = false → a.migAt + s.rdF .a rUpdCtrl 16 8 * oneSec ≤ s.yoke.now →
          ∃ t, exec .migrationTimeout s = .next t ∧ t.yoke.act.phase = 4 ∧ t.yoke.act.cause = e ∧ restarts t y ∧
            (t.half y).upd.migrating = false ∧ t.yoke.holder = some x))) ∧
    (s.yoke.hold = false → s.yoke.holder = some x → s.role x = .inCharge → a.single = false → a.who = some y → s.role y = .booting →
      a.since + 10 * oneSec ≤ s.yoke.now →
      (a.phase = 1 → (s.half y).upd.run ≠ a.was →
        ∃ t, exec .activationTimeout s = .next t ∧ t.yoke.act.phase = 4 ∧ t.yoke.act.cause = 5 ∧ t.yoke.holder = some x ∧
          ∀ g, (t.half g).upd.next = a.was) ∧
      (a.phase = 4 → (s.half x).upd.run = a.was → (s.half x).upd.recovery = false → a.yoke = false → s.yoke.handover = none →
        ∃ t, exec .activationTimeout s = .next t ∧ t.yoke.act.phase = 0 ∧ t.yoke.holder = some x)) ∧
    (s.yoke.hold = true → s.yoke.holder = some x →
      (a.phase = 2 →
        (∃ t, exec (.yokeReloadDone true) s = .next t ∧ t.yoke.act.phase = 3 ∧ t.yoke.hold = false ∧
          (s.runs x = true → (t.half x).arisen 0x0604 a.slot a.ver.toNat (s.rdF .a rUpdCtrl 8 8) 0)) ∧
        (s.role x = .inCharge → s.role y = .follower → (s.half y).upd.run ≠ a.was →
          ∃ t, exec (.yokeReloadDone false) s = .next t ∧ t.yoke.act.phase = 4 ∧ t.yoke.act.cause = 4 ∧ t.yoke.hold = false ∧
            restarts t y)) ∧
      (a.phase ≠ 2 → a.phase ≠ 4 → ∀ ok,
        ∃ t, exec (.yokeReloadDone ok) s = .next t ∧ t.yoke.hold = false ∧ t.yoke.act = a))

/-- KZQPUSH, KZQPOP, AES_GCM_ENCRYPT, AES_GCM_DECRYPT, SHA384, ECDSA_VERIFY, ECDH and SIGN_ID (R499, R502, R503,
Tables 20.1 and 20.17): the policy cores' queue registers, and the crypto engine. A push goes onto the selected
queue unless it is full, and a pop takes its oldest address or reads 0; and a job at the head of SEC's queue is
carried out, its output stored at its address and its status in its buffer, which goes onto the completion list.
What the spec leaves open here is the model's choice (log entries 60 and 77). -/
def Obligations.QueuesAndCrypto : Prop :=
  ∀ (s : State) (h : HalfId),
    let m := s.half h
    (∀ (c : Fin 4) (x : KzCtx) (v : Dword), s.reaches h (.core c) = true →
      let q := x.sel.val
      let set := m.kzSet c.val x
      (x.sup = true → x.deleg = false →
        (∃ t, exec (.kzqpush h c x v) s = .next t ∧ t.half h = set.sealed) ∧
        (∃ t, exec (.kzqpop h c x) s = .next t ∧ t.half h = set.sealed)) ∧
      (x.sup = false ∨ x.deleg = true →
        (m.macOfQueue q = none →
          ((m.queue q).length < 1024 →
            ∃ t, exec (.kzqpush h c x v) s = .next t ∧ (t.half h).queue q = m.queue q ++ [v.toNat] ∧
              (∀ i, i ≠ q → (t.half h).queue i = m.queue i) ∧ c.val ∉ (t.half h).que.full ∧ (t.half h).regs = m.regs ∧
              (t.half h).lpddr = m.lpddr) ∧
          (1024 ≤ (m.queue q).length →
            ∃ t, exec (.kzqpush h c x v) s = .next t ∧ (∀ i, (t.half h).queue i = m.queue i) ∧ c.val ∈ (t.half h).que.full)) ∧
        (∃ t, exec (.kzqpop h c x) s = .next t ∧ (t.half h).queue q = (m.queue q).drop 1 ∧
          (∀ i, i ≠ q → (t.half h).queue i = m.queue i) ∧ sget 0 (t.half h).que.popped c.val = (m.queue q).headD 0 ∧
          (t.half h).regs = m.regs ∧ (t.half h).lpddr = m.lpddr))) ∧
    (∀ (a : Nat) (l : List Nat), s.quiet h = true → m.on 0x008 = true → m.rdB rSecJobq 31 = true → m.queue (m.rdF rSecJobq 0 8) = a :: l →
      (m.queue (m.rdF rSecJobq 0 8 + 128)).length < 1024 → m.peek a = 0x0C →
      let q := m.rdF rSecJobq 0 8
      let op := (m.peek (a + 32)).toNat
      let job (k : Nat) : Instr := if k = 1 then .aesGcmEncrypt h else if k = 2 then .aesGcmDecrypt h else if k = 3 then .sha384 h
        else if k = 4 then .ecdsaVerify h else if k = 5 then .ecdh h else .signId h
      let aad := leNat (m.peekN (a + 36) 4)
      let dst := leNat (m.peekN (a + 48) 8)
      1 ≤ op → op ≤ 6 →
      (m.jobIn a = none →
        ∃ t, exec (job op) s = .next t ∧ (t.half h).peek (a + 2) = 0x0B ∧ (t.half h).queue q = l ∧
          (t.half h).queue (q + 128) = m.queue (q + 128) ++ [a] ∧ (t.half h).rdB (pgIrqRaw 0x008) 0 = true) ∧
      (∀ (x : List Byte) (status : Nat) (out : List Byte), m.jobIn a = some x → m.jobResult op aad x = (status, out) → status < 256 →
        let fits := decide (out.length ≤ leNat (m.peekN (a + 56) 4))
        ∃ t, exec (job op) s = .next t ∧
          (t.half h).peek (a + 2) = BitVec.ofNat 8 (if status = 0 ∧ fits = false then 0x0B else status) ∧
          (t.half h).queue q = l ∧ (t.half h).queue (q + 128) = m.queue (q + 128) ++ [a] ∧ (t.half h).rdB (pgIrqRaw 0x008) 0 = true ∧
          (status = 0 → fits = true → (a + 64 ≤ dst ∨ dst + out.length ≤ a) →
            ∀ i, i < out.length → (t.half h).peek (dst + i) = out.getD i 0) ∧
          (∀ i, (i < a + 2 ∨ a + 64 ≤ i) → (status = 0 → fits = true → i < dst ∨ dst + out.length ≤ i) →
            (t.half h).peek i = m.peek i)))

/-- EVENT_ARISE, EXPORT_WRITE, EVR_FREEZE, EVR_RELEASE, FREEZE_TIMEOUT, DISCARD and CLEAR (R506 to R509, R513,
R514, Table 21.3): the event recorder. The oldest event that has arisen gets the next sequence and its record,
in both halves where they are paired; a full or frozen recorder counts it; and EXPORT, FREEZE, RELEASE, the
timer after FREEZE_S, DISCARD and CLEAR act. What the spec leaves open here is the model's choice (log entry
54). -/
def Obligations.EventRecorder : Prop :=
  ∀ (s : State) (h : HalfId) (r : Req),
    let m := s.half h
    let y := s.view h
    let next := m.rd rEvrNext
    let i := next.toNat % 65536
    let cmd (k : Word) : Bool := s.admits h r rEvrCmd k
    let told (t : State) (status : Nat) : Prop :=
      (t.half h).view (reqNum r) rEvrCmdStat = word status ∧ (t.half h).answered r = (if status = 0 then ⟨0, 0⟩ else ⟨5, 0⟩)
    let src := halfNum (m.evSrc y) * 256
    (∀ (e : Event) (l : List Event), s.quiet h = true → m.evr.arising = e :: l → m.evr.restored = true → s.paired = false →
      (m.evFrozen = false → m.evFull = false →
        ∃ t, exec (.eventArise h) s = .next t ∧ (t.half h).evr.arising = l ∧ (t.half h).rd rEvrNext = next + 1 ∧
          (t.half h).rdB (pgIrqRaw 0x005) 0 = true ∧
          sfind (t.half h).evr.recs i = some ⟨e.code, halfNum h * 256 + evPage e.code e.p0 e.p1, next, e.time, e.p0, e.p1, e.p2, e.p3⟩) ∧
      (m.evFrozen = true →
        ∃ t, exec (.eventArise h) s = .next t ∧ (t.half h).evr.arising = l ∧ (t.half h).evr.recs = m.evr.recs ∧
          (t.half h).rd rEvrNext = next ∧ (t.half h).rdN rEvrFrzCnt = stickTo 0xFFFFFFFF (m.rdN rEvrFrzCnt) 1) ∧
      (m.evFrozen = false → m.evFull = true →
        ∃ t, exec (.eventArise h) s = .next t ∧ (t.half h).evr.arising = l ∧ (t.half h).evr.recs = m.evr.recs ∧
          (t.half h).rd rEvrNext = next ∧ (t.half h).rdN rEvrOvf = stickTo 0xFFFFFFFF (m.rdN rEvrOvf) 1)) ∧
    (∀ (e : Event) (l : List Event), let o := other h
      s.quiet h = true → m.evr.arising = e :: l → m.evr.restored = true → s.role h = .inCharge → s.role o = .follower →
      m.evFrozen = false → m.evFull = false → (s.half o).evFrozen = false → (s.half o).evFull = false → (s.half o).rd rEvrNext = next →
      let x : EvRec := ⟨e.code, halfNum h * 256 + evPage e.code e.p0 e.p1, next, e.time, e.p0, e.p1, e.p2, e.p3⟩
      ∃ t, exec (.eventArise h) s = .next t ∧ sfind (t.half h).evr.recs i = some x ∧ sfind (t.half o).evr.recs i = some x ∧
        (t.half h).rd rEvrNext = next + 1 ∧ (t.half o).rd rEvrNext = next + 1) ∧
    (∀ v : Word, s.admits h r rEvrExport v = true →
      let no := seqOlder 32 v.toNat (m.rdN rEvrExport) || seqNewer 32 v.toNat (next - 1).toNat
      (no = false → ∃ t, exec (.exportWrite h r v) s = .next t ∧ (t.half h).rd rEvrExport = v ∧ (t.half h).evr = m.evr ∧
        (t.half h).answered r = ⟨0, 0⟩) ∧
      (no = true → ∃ t, exec (.exportWrite h r v) s = .next t ∧ (t.half h).rd rEvrExport = m.rd rEvrExport ∧
        (t.half h).answered r = ⟨5, 0⟩)) ∧
    (cmd 1 = true →
      ∃ t, exec (.evrFreeze h r) s = .next t ∧ (t.half h).evFrozen = true ∧ (t.half h).evr = { m.evr with frozenAt := m.up } ∧
        (t.half h).rd rEvrFrzCnt = (if m.evFrozen then m.rd rEvrFrzCnt else 0) ∧ told t 0) ∧
    (cmd 2 = true →
      (m.evFrozen = false → ∃ t, exec (.evrRelease h r) s = .next t ∧ (t.half h).evr = m.evr ∧ told t 0) ∧
      (m.evFrozen = true → m.evFull = false →
        ∃ t, exec (.evrRelease h r) s = .next t ∧ (t.half h).evFrozen = false ∧ (t.half h).rd rEvrNext = next + 1 ∧ told t 0 ∧
          sfind (t.half h).evr.recs i = some ⟨0x0102, src + 0x005, next, m.tai, 1, m.rdN rEvrFrzCnt,
            (m.up - m.evr.frozenAt) / 1000000, (reqStamp r).toNat⟩)) ∧
    (s.quiet h = true → m.evFrozen = true → m.evFull = false → m.evr.frozenAt + m.rdF rEvrCtrl 0 12 * oneSec ≤ m.up →
      ∃ t, exec (.freezeTimeout h) s = .next t ∧ (t.half h).evFrozen = false ∧ (t.half h).rdB (pgIrqRaw 0x005) 2 = true ∧
        sfind (t.half h).evr.recs i = some ⟨0x0102, src + 0x005, next, m.tai, 2, m.rdN rEvrFrzCnt, (m.up - m.evr.frozenAt) / 1000000, 0⟩) ∧
    (let v := m.rd rEvrArg
     let no := m.evFrozen || seqOlder 32 v.toNat (m.rdN rEvrOldest) || seqNewer 32 v.toNat (m.rdN rEvrExport)
     cmd 3 = true →
      (no = true → ∃ t, exec (.discard h r) s = .next t ∧ (t.half h).evr = m.evr ∧ (t.half h).rd rEvrOldest = m.rd rEvrOldest ∧
        told t 5) ∧
      (no = false → m.evFull = false →
        ∃ t, exec (.discard h r) s = .next t ∧ (t.half h).rd rEvrOldest = v + 1 ∧ (t.half h).rd rEvrNext = next ∧ told t 0 ∧
          ∀ e, e ∈ (t.half h).evr.recs ↔ e ∈ m.evr.recs ∧
            seqDist 32 v.toNat (m.rdN rEvrOldest) < seqDist 32 e.2.seq.toNat (m.rdN rEvrOldest))) ∧
    (cmd 4 = true →
      (m.evFrozen = true → ∃ t, exec (.clear h r) s = .next t ∧ (t.half h).evr = m.evr ∧ told t 5) ∧
      (m.evFrozen = false →
        ∃ t, exec (.clear h r) s = .next t ∧ (t.half h).rd rEvrOldest = next ∧ (t.half h).rd rEvrNext = next + 1 ∧
          (t.half h).rd rEvrOvf = 0 ∧ told t 0 ∧
          (t.half h).evr.recs =
            [(i, ⟨0x0103, src + 0x005, next, m.tai, m.evr.recs.length, m.rdN rEvrOvf, (reqStamp r).toNat, 0⟩)]))

/-- THERMAL_SAMPLE, THERMAL_COOLED, RAIL_SAMPLE, SCRUB_LINE, HLTH_CLR and PACE_WINDOW_END (R29, R458, R515,
R516, R518, R519, Tables 21.4 and 21.8): the health monitors. A sample sets the temperatures and the warning,
and a second one at 115 °C shuts the module down; the shutdown ends when no sensor has stood above 95 °C for 10
s; the third sample of a rail outside its window sets OUT and the hundredth inside clears it; the scrubber
counts errors and goes on to the next line; and CLR clears what its bits name. At the end of a 64 µs window
SYS.PACE takes the quarter of its steps, up to 0xFFFF; VCORE rises by 2.5 mV where the pace is below its target
and falls by 2.5 mV where it is more than 128 above, between 0.72 V and 0.95 V. What the spec leaves open here
is the model's choice (log entries 35 and 76). -/
def Obligations.HealthMonitors : Prop :=
  (∀ (s : State) (h : HalfId) (r : Req) (v : Word),
     let m := s.half h
     let p := s.yoke.pwr
     (∀ x : TempSample, p.state ≠ 3 → p.thermal = false →
       let l (g : HalfId) : List Int := (if g = .a then x.dieA else x.dieB).take 4
       ((∀ g, ∀ c ∈ l g, c < 1840) →
         ∃ t, exec (.thermalSample x) s = .next t ∧ t.yoke.pwr = { p with
             tempA := hottest (l .a), tempB := hottest (l .b)
             hotAt := if (l .a ++ l .b).any (fun c => decide (1520 < c)) then s.yoke.now else p.hotAt } ∧
           (∀ g, s.runs h = true → g = h → let w := s16 ((s.half g).rd rHlthTwarn)
             (t.half g).hlth.warn = (if w ≤ hottest (l g) then true else if hottest (l g) ≤ w - 80 then false else (s.half g).hlth.warn)) ∧
           (s.runs h = true → m.hlth.warn = false → s16 (m.rd rHlthTwarn) ≤ hottest (l h) →
             (t.half h).arisen 0x1305 (halfNum h) (evInt (hottest (l h))) 1 (m.rdF rHlthTwarn 0 16) ∧
             (t.half h).rdB (pgIrqRaw 0x006) 0 = true)) ∧
       (∀ (g : HalfId) (i : Nat), i < (l g).length → 1840 ≤ (l g).getD i 0 → 1 ≤ (s.half g).hlth.hot.getD i 0 → p.held = false →
         ∃ t, exec (.thermalSample x) s = .next t ∧ t.yoke.pwr.thermal = true ∧ t.yoke.pwr.due = true ∧
           t.yoke.pwr.causes = p.causes ||| 0x10 ∧ t.yoke.holder = none ∧
           (s.yoke.granted = true → ∀ k, s.runs k = true → (t.yh k).storing = true) ∧
           (s.yoke.recs.length < 8 → ∃ e, t.yoke.recs = s.yoke.recs ++ [e] ∧ e.code = 0x1306))) ∧
     (p.hotAt + 10 * oneSec ≤ s.yoke.now →
       ∃ t, exec .thermalCooled s = .next t ∧ t.yoke.pwr = { p with thermal := false } ∧ t.a = s.a ∧ t.b = s.b) ∧
     (∀ (x : RailSample) (i mv : Nat), p.state ≠ 3 → (x.coreA :: x.coreB :: x.rails.take 6)[i]? = some mv →
       (railIn i mv = false → sget 0 p.railBad i = 2 → i ∉ p.railOut →
         ∃ t, exec (.railSample x) s = .next t ∧ i ∈ t.yoke.pwr.railOut ∧ sget 0 t.yoke.pwr.railMv i = mv ∧
           (s.runs h = true → (t.half h).arisen 0x1302 (railOf m.self i) mv 1 (halfNum m.self) ∧
             (t.half h).rdB (pgIrqRaw 0x006) 1 = true) ∧
           (i < 2 → railOf h 0 = i → ((t.half h).page 0x006).fault = true)) ∧
       (railIn i mv = true → 99 ≤ sget 0 p.railOk i → i ∈ p.railOut →
         ∃ t, exec (.railSample x) s = .next t ∧ i ∉ t.yoke.pwr.railOut ∧ sget 0 t.yoke.pwr.railMv i = mv ∧
           (s.runs h = true → (t.half h).arisen 0x1302 (railOf m.self i) mv 0 (halfNum m.self)))) ∧
     (∀ x : ScrubResult, let line := m.rdF rHlthScrub 0 21
       s.quiet h = true → line + 1 < 2097152 →
       ∃ t, exec (.scrubLine h x) s = .next t ∧ (t.half h).rdF rHlthScrub 0 21 = line + 1 ∧
         (x.kind = 1 → (t.half h).rdN rHlthScCorr = stickTo 0xFFFFFFFF (m.rdN rHlthScCorr) 1 ∧
           (t.half h).rd rHlthScAddr = word (line * 16) ∧ (t.half h).rdB (pgIrqRaw 0x006) 2 = true) ∧
         (x.kind = 2 → (t.half h).rdN rHlthScUncorr = stickTo 0xFFFFFFFF (m.rdN rHlthScUncorr) 1 ∧
           (t.half h).rd rHlthScAddr = word (2 ^ 31 + line * 16) ∧ (t.half h).hlth.uncorr = true ∧ ((t.half h).page 0x006).fault = true ∧
           (t.half h).arisen 0x1304 (halfNum m.self) (line * 16) (x.symbol % 64) ((t.half h).rdN rHlthScUncorr)) ∧
         (x.kind ≠ 1 → x.kind ≠ 2 → (t.half h).rd rHlthScCorr = m.rd rHlthScCorr ∧ (t.half h).rd rHlthScUncorr = m.rd rHlthScUncorr)) ∧
     (s.admits h r rHlthClr v = true →
       ∃ t, exec (.hlthClr h r v) s = .next t ∧ (t.half h).answered r = ⟨0, 0⟩ ∧
         (t.half h).rd rHlthScCorr = (if flag v 0 then 0 else m.rd rHlthScCorr) ∧
         (t.half h).rd rHlthScUncorr = (if flag v 0 then 0 else m.rd rHlthScUncorr) ∧
         (t.half h).rd rHlthTempMax = (if flag v 1 then 0 else m.rd rHlthTempMax) ∧
         (t.half h).rd rHlthPaceMin = (if flag v 1 then 0xFFFF else m.rd rHlthPaceMin))) ∧
  (∀ (s : State) (h : HalfId) (steps : Nat), s.quiet h = true →
     let pace := min (steps / 4) 0xFFFF
     let target := (s.half h).rdF rPwrPaceTgt 0 16
     ∃ t, exec (.paceWindowEnd h steps) s = .next t ∧ (t.half h).rd rSysPace = word pace ∧
       (t.yh h).vcore =
         (if pace < target then min ((s.yh h).vcore + 25) 9500
          else if target + 128 < pace then max ((s.yh h).vcore - 25) 7200 else (s.yh h).vcore) ∧
       t.half (other h) = s.half (other h))

/-- MODULE_START, RST_N_ASSERT and RST_N_RELEASE (R524, R527, R529, R530, Table 22.1): resets and the module's
start. RST_N makes a start due and runs the power-fail sequence from the snapshot on; its release after 5 s
makes the start cold; a start that is not due, or that PFW, RST_N, the thermal shutdown or a store holds off,
does not happen; and one that happens leaves both halves BOOTING with no lease, the relays closed, the clock's
time kept, and an activation that it interrupts ended. What the spec leaves open here is the model's choice (log
entries 26, 32 and 57). -/
def Obligations.ModuleStarts : Prop :=
  ∀ (s : State) (x : StartObs),
    let p := s.yoke.pwr
    let may := p.due && !p.pfw && p.rstAt.isNone && !p.thermal && !s.storing
    (p.rstAt = none → p.held = false → p.state ≠ 3 →
      ∃ t, exec .rstNAssert s = .next t ∧ t.yoke.pwr.rstAt = some s.yoke.now ∧ t.yoke.pwr.due = true ∧ t.yoke.pwr.causes = p.causes ||| 2 ∧
        t.yoke.holder = none ∧ t.yoke.relay = true ∧
        (s.yoke.granted = true → ∀ h, s.runs h = true → (t.yh h).storing = true) ∧
        (s.yoke.granted = false → t.yoke.pwr.held = true)) ∧
    (∀ at_ : Nat, p.rstAt = some at_ →
      ∃ t, exec .rstNRelease s = .next t ∧
        t.yoke.pwr = { p with rstAt := none, cold := p.cold || decide (at_ + 5000000000 ≤ s.yoke.now) } ∧ t.a = s.a ∧ t.b = s.b) ∧
    (may = false → ∃ t, exec (.moduleStart x) s = .next t ∧ t = s) ∧
    (may = true →
      ∃ t, exec (.moduleStart x) s = .next t ∧ t.role .a = .booting ∧ t.role .b = .booting ∧ t.yoke.holder = none ∧ t.yoke.epoch = 0 ∧
        t.yoke.granted = false ∧ t.yoke.relay = true ∧ t.yoke.xup = x.xlink ∧ t.yoke.pwr.due = false ∧ t.yoke.pwr.state = 0 ∧
        t.yoke.pwr.causes = 0 ∧ t.yoke.rtc.localSec = s.yoke.rtc.localSec ∧ t.yoke.rtc.valid = s.yoke.rtc.valid ∧
        t.yoke.arb = s.yoke.arb ∧ (s.yoke.act.phase ≠ 3 → t.yoke.act.phase = 0 ∨ 4 < s.yoke.act.phase) ∧ t.pending = s.pending)
end

