-- ==== Sys2Proof/Laws/Bits.lean ====
section
/-! SUPPORT. Bits and fields of words: what a written bit or field reads as, and that every other bit stays. -/
namespace Sys2Proof.Machine

theorem flag_word_pow (i j : Nat) (hj : j < 32) : (word (2 ^ i)).getLsbD j = decide (i = j) := by
  simp only [word, BitVec.getLsbD_ofNat, hj, decide_true, Bool.true_and, Nat.testBit_two_pow]

@[simp] theorem flag_putFlag_same (w : Word) (i : Nat) (b : Bool) (h : i < 32) : flag (putFlag w i b) i = b := by
  unfold putFlag flag
  cases b <;> simp [BitVec.getLsbD_or, BitVec.getLsbD_and, BitVec.getLsbD_not, flag_word_pow i i h, h, -BitVec.getLsbD_eq_getElem]

theorem flag_putFlag_other (w : Word) (i j : Nat) (b : Bool) (h : i ≠ j) : flag (putFlag w i b) j = flag w j := by
  unfold putFlag flag
  by_cases hj : j < 32
  · cases b <;> simp [BitVec.getLsbD_or, BitVec.getLsbD_and, BitVec.getLsbD_not, flag_word_pow i j hj, h, hj, -BitVec.getLsbD_eq_getElem]
  · cases b <;> simp [BitVec.getLsbD_of_ge _ _ (Nat.le_of_not_lt hj)]

theorem flag_putFlag (w : Word) (i j : Nat) (b : Bool) (h : i < 32) :
    flag (putFlag w i b) j = if i = j then b else flag w j := by
  split
  · subst_vars; exact flag_putFlag_same w _ b h
  · rename_i hn; exact flag_putFlag_other w i j b hn

@[simp] theorem word_toNat (w : Word) : word w.toNat = w := by simp [word]

theorem toNat_word (n : Nat) : (word n).toNat = n % 2 ^ 32 := by simp [word]

theorem word_eq {a b : Nat} (h : a % 2 ^ 32 = b % 2 ^ 32) : word a = word b := by
  apply BitVec.eq_of_toNat_eq; simpa [toNat_word] using h

/-- A field that is written reads as the value, in its width. -/
theorem fld_putFld_same (w : Word) (lo n v : Nat) (h : lo + n ≤ 32) : fld (putFld w lo n v) lo n = v % 2 ^ n := by
  have hw := w.isLt
  simp only [putFld, fld, nfld, toNat_word]
  set x := w.toNat with hx
  have hp : 0 < 2 ^ lo := by positivity
  have hn : 0 < 2 ^ n := by positivity
  have hln : 2 ^ lo * 2 ^ n ≤ 2 ^ 32 := by rw [← pow_add]; exact Nat.pow_le_pow_right (by norm_num) h
  -- x = hi * 2^(lo+n) + f * 2^lo + l
  obtain ⟨l, hl⟩ : ∃ l, l = x % 2 ^ lo := ⟨_, rfl⟩
  obtain ⟨f, hf⟩ : ∃ f, f = x / 2 ^ lo % 2 ^ n := ⟨_, rfl⟩
  obtain ⟨g, hg⟩ : ∃ g, g = x / 2 ^ lo / 2 ^ n := ⟨_, rfl⟩
  have e1 : x = (g * 2 ^ n + f) * 2 ^ lo + l := by
    have a := Nat.div_add_mod x (2 ^ lo)
    have b := Nat.div_add_mod (x / 2 ^ lo) (2 ^ n)
    rw [← hl] at a; rw [← hf, ← hg] at b
    calc x = 2 ^ lo * (x / 2 ^ lo) + l := a.symm
      _ = (g * 2 ^ n + f) * 2 ^ lo + l := by rw [← b]; ring
  have hll : l < 2 ^ lo := by rw [hl]; exact Nat.mod_lt _ hp
  have e2 : x - f * 2 ^ lo + v % 2 ^ n * 2 ^ lo = (g * 2 ^ n + v % 2 ^ n) * 2 ^ lo + l := by
    have : x = g * 2 ^ n * 2 ^ lo + f * 2 ^ lo + l := by rw [e1]; ring
    have e3 : x - f * 2 ^ lo = g * 2 ^ n * 2 ^ lo + l := by omega
    rw [e3]; ring
  rw [← hf, e2]
  have hv : v % 2 ^ n < 2 ^ n := Nat.mod_lt _ hn
  obtain ⟨d, hd⟩ : ∃ d, 2 ^ 32 = 2 ^ lo * (2 ^ n * d) := by
    refine ⟨2 ^ (32 - lo - n), ?_⟩
    rw [← pow_add, ← pow_add]; congr 1; omega
  rw [hd, Nat.mod_mul_right_div_self]
  rw [Nat.add_comm, Nat.add_mul_div_right _ _ hp, Nat.div_eq_of_lt hll, Nat.zero_add]
  rw [Nat.mod_mul_right_mod, Nat.add_comm, Nat.add_mul_mod_self_right]
  exact Nat.mod_eq_of_lt hv

end Sys2Proof.Machine
end

