-- ==== Sys2Proof/Laws/Maps.lean ====
section
/-! SUPPORT. Sparse maps: reading after writing, and the canonical form that every write keeps. -/
namespace Sys2Proof.Machine

variable {α : Type}

@[simp] theorem sfind_sput_same (m : Sparse α) (i : Nat) (v : α) : sfind (sput m i v) i = some v := by
  induction m with
  | nil => simp [sput, sfind]
  | cons e m ih =>
    obtain ⟨k, w⟩ := e
    simp only [sput]
    split
    · simp [sfind]
    · split
      · simp [sfind]
      · rw [sfind, if_neg (by omega)]; exact ih

theorem sfind_sput_other (m : Sparse α) {i j : Nat} (v : α) (h : i ≠ j) : sfind (sput m i v) j = sfind m j := by
  induction m with
  | nil => simp [sput, sfind, h]
  | cons e m ih =>
    obtain ⟨k, w⟩ := e
    simp only [sput]
    split
    · rw [sfind, if_neg h]
    · split
      · subst_vars; simp [sfind, h]
      · simp only [sfind, ih]

@[simp] theorem sfind_sdel_same (m : Sparse α) (i : Nat) : sfind (sdel m i) i = none := by
  induction m with
  | nil => rfl
  | cons e m ih =>
    obtain ⟨k, w⟩ := e
    by_cases h : k = i
    · simpa [sdel, h] using ih
    · simpa [sdel, h, sfind] using ih

theorem sfind_sdel_other (m : Sparse α) {i j : Nat} (h : i ≠ j) : sfind (sdel m i) j = sfind m j := by
  induction m with
  | nil => rfl
  | cons e m ih =>
    obtain ⟨k, w⟩ := e
    by_cases hk : k = i
    · subst hk; simpa [sdel, sfind, h] using ih
    · by_cases hj : k = j
      · simp [sdel, sfind, hj]
        simp [hj ▸ hk, sfind]
      · simpa [sdel, hk, sfind, hj] using ih

theorem mem_sput (m : Sparse α) (i : Nat) (v : α) (e : Nat × α) (h : e ∈ sput m i v) : e = (i, v) ∨ e ∈ m := by
  induction m with
  | nil => simpa [sput] using h
  | cons f m ih =>
    obtain ⟨k, w⟩ := f
    simp only [sput] at h
    split at h
    · simpa using h
    · split at h
      · rcases List.mem_cons.mp h with h | h <;> simp [h]
      · rcases List.mem_cons.mp h with h | h
        · simp [h]
        · rcases ih h with h | h <;> simp [h]

theorem sorted_sput (m : Sparse α) (i : Nat) (v : α) (h : sorted m = true) : sorted (sput m i v) = true := by
  induction m with
  | nil => rfl
  | cons f m ih =>
    obtain ⟨k, w⟩ := f
    simp only [sorted, Bool.and_eq_true, List.all_eq_true, decide_eq_true_eq] at h
    simp only [sput]
    split
    · rename_i hk
      simp only [sorted, Bool.and_eq_true, List.all_eq_true, decide_eq_true_eq, List.mem_cons]
      refine ⟨?_, h⟩
      rintro e (rfl | he)
      · exact hk
      · have := h.1 e he; omega
    · split
      · subst_vars
        simpa only [sorted, Bool.and_eq_true, List.all_eq_true, decide_eq_true_eq] using h
      · simp only [sorted, Bool.and_eq_true, List.all_eq_true, decide_eq_true_eq]
        refine ⟨fun e he => ?_, ih h.2⟩
        rcases mem_sput m i v e he with rfl | he
        · simp only; omega
        · exact h.1 e he

theorem sorted_filter (m : Sparse α) (p : Nat × α → Bool) (h : sorted m = true) : sorted (m.filter p) = true := by
  induction m with
  | nil => rfl
  | cons f m ih =>
    obtain ⟨k, w⟩ := f
    simp only [sorted, Bool.and_eq_true, List.all_eq_true, decide_eq_true_eq] at h
    rw [List.filter_cons]
    split
    · simp only [sorted, Bool.and_eq_true, List.all_eq_true, decide_eq_true_eq]
      exact ⟨fun e he => h.1 e (List.mem_filter.mp he).1, ih h.2⟩
    · exact ih h.2

variable [DecidableEq α]

@[simp] theorem sget_sset_same (d : α) (m : Sparse α) (i : Nat) (v : α) : sget d (sset d m i v) i = v := by
  unfold sset sget
  split
  · simp [*]
  · simp

theorem sget_sset_other (d e : α) (m : Sparse α) {i j : Nat} (v : α) (h : i ≠ j) : sget e (sset d m i v) j = sget e m j := by
  unfold sset sget
  split
  · rw [sfind_sdel_other m h]
  · rw [sfind_sput_other m v h]

theorem sget_sset (d : Nat → α) (m : Sparse α) (i j : Nat) (v : α) :
    sget (d j) (sset (d i) m i v) j = if i = j then v else sget (d j) m j := by
  split
  · subst_vars; simp
  · rename_i h; exact sget_sset_other _ _ _ _ h

theorem sfind_sset_other (d : α) (m : Sparse α) {i j : Nat} (v : α) (h : i ≠ j) : sfind (sset d m i v) j = sfind m j := by
  unfold sset
  split
  · exact sfind_sdel_other m h
  · exact sfind_sput_other m v h

/-- A write keeps the canonical form of a map, whatever an unlisted key reads as. -/
theorem swf_sset (d : Nat → α) (m : Sparse α) (i : Nat) (v : α) (h : swf d m = true) : swf d (sset (d i) m i v) = true := by
  simp only [swf, Bool.and_eq_true, List.all_eq_true, decide_eq_true_eq] at h ⊢
  unfold sset
  split
  · exact ⟨sorted_filter _ _ h.1, fun e he => h.2 e (List.mem_filter.mp he).1⟩
  · rename_i hv
    refine ⟨sorted_sput m i v h.1, fun e he => ?_⟩
    rcases mem_sput m i v e he with rfl | he
    · exact hv
    · exact h.2 e he

end Sys2Proof.Machine
end

