-- ==== Sys2Proof/Laws/State.lean ====
section
/-! SUPPORT. One lemma per field per update of the state: what an update writes, and that it leaves every other field. -/
namespace Sys2Proof.Machine

@[simp] theorem Half.wr_self (m : Half) (k : Nat) (v : Word) : (m.wr k v).self = m.self := rfl
@[simp] theorem Half.wr_dir (m : Half) (k : Nat) (v : Word) : (m.wr k v).dir = m.dir := rfl
@[simp] theorem Half.wr_accs (m : Half) (k : Nat) (v : Word) : (m.wr k v).accs = m.accs := rfl
@[simp] theorem Half.wr_stalled (m : Half) (k : Nat) (v : Word) : (m.wr k v).stalled = m.stalled := rfl
@[simp] theorem Half.wr_up (m : Half) (k : Nat) (v : Word) : (m.wr k v).up = m.up := rfl
@[simp] theorem Half.wr_tai (m : Half) (k : Nat) (v : Word) : (m.wr k v).tai = m.tai := rfl
@[simp] theorem Half.wr_sess (m : Half) (k : Nat) (v : Word) : (m.wr k v).sess = m.sess := rfl
@[simp] theorem Half.wr_rates (m : Half) (k : Nat) (v : Word) : (m.wr k v).rates = m.rates := rfl
@[simp] theorem Half.wr_fwds (m : Half) (k : Nat) (v : Word) : (m.wr k v).fwds = m.fwds := rfl
@[simp] theorem Half.wr_ptab (m : Half) (k : Nat) (v : Word) : (m.wr k v).ptab = m.ptab := rfl
@[simp] theorem Half.wr_shf (m : Half) (k : Nat) (v : Word) : (m.wr k v).shf = m.shf := rfl
@[simp] theorem Half.wr_drl (m : Half) (k : Nat) (v : Word) : (m.wr k v).drl = m.drl := rfl
@[simp] theorem Half.wr_tlr (m : Half) (k : Nat) (v : Word) : (m.wr k v).tlr = m.tlr := rfl
@[simp] theorem Half.wr_nrg (m : Half) (k : Nat) (v : Word) : (m.wr k v).nrg = m.nrg := rfl
@[simp] theorem Half.wr_uio (m : Half) (k : Nat) (v : Word) : (m.wr k v).uio = m.uio := rfl
@[simp] theorem Half.wr_can (m : Half) (k : Nat) (v : Word) : (m.wr k v).can = m.can := rfl
@[simp] theorem Half.wr_ser (m : Half) (k : Nat) (v : Word) : (m.wr k v).ser = m.ser := rfl
@[simp] theorem Half.wr_dali (m : Half) (k : Nat) (v : Word) : (m.wr k v).dali = m.dali := rfl
@[simp] theorem Half.wr_mac (m : Half) (k : Nat) (v : Word) : (m.wr k v).mac = m.mac := rfl
@[simp] theorem Half.wr_prp (m : Half) (k : Nat) (v : Word) : (m.wr k v).prp = m.prp := rfl
@[simp] theorem Half.wr_mz (m : Half) (k : Nat) (v : Word) : (m.wr k v).mz = m.mz := rfl
@[simp] theorem Half.wr_fost (m : Half) (k : Nat) (v : Word) : (m.wr k v).fost = m.fost := rfl
@[simp] theorem Half.wr_tim (m : Half) (k : Nat) (v : Word) : (m.wr k v).tim = m.tim := rfl
@[simp] theorem Half.wr_grn (m : Half) (k : Nat) (v : Word) : (m.wr k v).grn = m.grn := rfl
@[simp] theorem Half.wr_upd (m : Half) (k : Nat) (v : Word) : (m.wr k v).upd = m.upd := rfl
@[simp] theorem Half.wr_sec (m : Half) (k : Nat) (v : Word) : (m.wr k v).sec = m.sec := rfl
@[simp] theorem Half.wr_evr (m : Half) (k : Nat) (v : Word) : (m.wr k v).evr = m.evr := rfl
@[simp] theorem Half.wr_hlth (m : Half) (k : Nat) (v : Word) : (m.wr k v).hlth = m.hlth := rfl
@[simp] theorem Half.wr_wdogAt (m : Half) (k : Nat) (v : Word) : (m.wr k v).wdogAt = m.wdogAt := rfl
@[simp] theorem Half.wr_lpddr (m : Half) (k : Nat) (v : Word) : (m.wr k v).lpddr = m.lpddr := rfl
@[simp] theorem Half.wr_cores (m : Half) (k : Nat) (v : Word) : (m.wr k v).cores = m.cores := rfl
@[simp] theorem Half.wr_tcm (m : Half) (k : Nat) (v : Word) : (m.wr k v).tcm = m.tcm := rfl
@[simp] theorem Half.wr_que (m : Half) (k : Nat) (v : Word) : (m.wr k v).que = m.que := rfl
@[simp] theorem Half.wr_tmpl (m : Half) (k : Nat) (v : Word) : (m.wr k v).tmpl = m.tmpl := rfl
@[simp] theorem Half.wr_sent (m : Half) (k : Nat) (v : Word) : (m.wr k v).sent = m.sent := rfl
@[simp] theorem Half.wr_outRecs (m : Half) (k : Nat) (v : Word) : (m.wr k v).outRecs = m.outRecs := rfl
@[simp] theorem Half.wr_fresh (m : Half) (k : Nat) (v : Word) : (m.wr k v).fresh = m.fresh := rfl
@[simp] theorem Half.wrN_self (m : Half) (k n : Nat) : (m.wrN k n).self = m.self := rfl
@[simp] theorem Half.wrN_dir (m : Half) (k n : Nat) : (m.wrN k n).dir = m.dir := rfl
@[simp] theorem Half.wrN_accs (m : Half) (k n : Nat) : (m.wrN k n).accs = m.accs := rfl
@[simp] theorem Half.wrN_stalled (m : Half) (k n : Nat) : (m.wrN k n).stalled = m.stalled := rfl
@[simp] theorem Half.wrN_up (m : Half) (k n : Nat) : (m.wrN k n).up = m.up := rfl
@[simp] theorem Half.wrN_tai (m : Half) (k n : Nat) : (m.wrN k n).tai = m.tai := rfl
@[simp] theorem Half.wrN_sess (m : Half) (k n : Nat) : (m.wrN k n).sess = m.sess := rfl
@[simp] theorem Half.wrN_rates (m : Half) (k n : Nat) : (m.wrN k n).rates = m.rates := rfl
@[simp] theorem Half.wrN_fwds (m : Half) (k n : Nat) : (m.wrN k n).fwds = m.fwds := rfl
@[simp] theorem Half.wrN_ptab (m : Half) (k n : Nat) : (m.wrN k n).ptab = m.ptab := rfl
@[simp] theorem Half.wrN_shf (m : Half) (k n : Nat) : (m.wrN k n).shf = m.shf := rfl
@[simp] theorem Half.wrN_drl (m : Half) (k n : Nat) : (m.wrN k n).drl = m.drl := rfl
@[simp] theorem Half.wrN_tlr (m : Half) (k n : Nat) : (m.wrN k n).tlr = m.tlr := rfl
@[simp] theorem Half.wrN_nrg (m : Half) (k n : Nat) : (m.wrN k n).nrg = m.nrg := rfl
@[simp] theorem Half.wrN_uio (m : Half) (k n : Nat) : (m.wrN k n).uio = m.uio := rfl
@[simp] theorem Half.wrN_can (m : Half) (k n : Nat) : (m.wrN k n).can = m.can := rfl
@[simp] theorem Half.wrN_ser (m : Half) (k n : Nat) : (m.wrN k n).ser = m.ser := rfl
@[simp] theorem Half.wrN_dali (m : Half) (k n : Nat) : (m.wrN k n).dali = m.dali := rfl
@[simp] theorem Half.wrN_mac (m : Half) (k n : Nat) : (m.wrN k n).mac = m.mac := rfl
@[simp] theorem Half.wrN_prp (m : Half) (k n : Nat) : (m.wrN k n).prp = m.prp := rfl
@[simp] theorem Half.wrN_mz (m : Half) (k n : Nat) : (m.wrN k n).mz = m.mz := rfl
@[simp] theorem Half.wrN_fost (m : Half) (k n : Nat) : (m.wrN k n).fost = m.fost := rfl
@[simp] theorem Half.wrN_tim (m : Half) (k n : Nat) : (m.wrN k n).tim = m.tim := rfl
@[simp] theorem Half.wrN_grn (m : Half) (k n : Nat) : (m.wrN k n).grn = m.grn := rfl
@[simp] theorem Half.wrN_upd (m : Half) (k n : Nat) : (m.wrN k n).upd = m.upd := rfl
@[simp] theorem Half.wrN_sec (m : Half) (k n : Nat) : (m.wrN k n).sec = m.sec := rfl
@[simp] theorem Half.wrN_evr (m : Half) (k n : Nat) : (m.wrN k n).evr = m.evr := rfl
@[simp] theorem Half.wrN_hlth (m : Half) (k n : Nat) : (m.wrN k n).hlth = m.hlth := rfl
@[simp] theorem Half.wrN_wdogAt (m : Half) (k n : Nat) : (m.wrN k n).wdogAt = m.wdogAt := rfl
@[simp] theorem Half.wrN_lpddr (m : Half) (k n : Nat) : (m.wrN k n).lpddr = m.lpddr := rfl
@[simp] theorem Half.wrN_cores (m : Half) (k n : Nat) : (m.wrN k n).cores = m.cores := rfl
@[simp] theorem Half.wrN_tcm (m : Half) (k n : Nat) : (m.wrN k n).tcm = m.tcm := rfl
@[simp] theorem Half.wrN_que (m : Half) (k n : Nat) : (m.wrN k n).que = m.que := rfl
@[simp] theorem Half.wrN_tmpl (m : Half) (k n : Nat) : (m.wrN k n).tmpl = m.tmpl := rfl
@[simp] theorem Half.wrN_sent (m : Half) (k n : Nat) : (m.wrN k n).sent = m.sent := rfl
@[simp] theorem Half.wrN_outRecs (m : Half) (k n : Nat) : (m.wrN k n).outRecs = m.outRecs := rfl
@[simp] theorem Half.wrN_fresh (m : Half) (k n : Nat) : (m.wrN k n).fresh = m.fresh := rfl
@[simp] theorem Half.wrF_self (m : Half) (k lo n v : Nat) : (m.wrF k lo n v).self = m.self := rfl
@[simp] theorem Half.wrF_dir (m : Half) (k lo n v : Nat) : (m.wrF k lo n v).dir = m.dir := rfl
@[simp] theorem Half.wrF_accs (m : Half) (k lo n v : Nat) : (m.wrF k lo n v).accs = m.accs := rfl
@[simp] theorem Half.wrF_stalled (m : Half) (k lo n v : Nat) : (m.wrF k lo n v).stalled = m.stalled := rfl
@[simp] theorem Half.wrF_up (m : Half) (k lo n v : Nat) : (m.wrF k lo n v).up = m.up := rfl
@[simp] theorem Half.wrF_tai (m : Half) (k lo n v : Nat) : (m.wrF k lo n v).tai = m.tai := rfl
@[simp] theorem Half.wrF_sess (m : Half) (k lo n v : Nat) : (m.wrF k lo n v).sess = m.sess := rfl
@[simp] theorem Half.wrF_rates (m : Half) (k lo n v : Nat) : (m.wrF k lo n v).rates = m.rates := rfl
@[simp] theorem Half.wrF_fwds (m : Half) (k lo n v : Nat) : (m.wrF k lo n v).fwds = m.fwds := rfl
@[simp] theorem Half.wrF_ptab (m : Half) (k lo n v : Nat) : (m.wrF k lo n v).ptab = m.ptab := rfl
@[simp] theorem Half.wrF_shf (m : Half) (k lo n v : Nat) : (m.wrF k lo n v).shf = m.shf := rfl
@[simp] theorem Half.wrF_drl (m : Half) (k lo n v : Nat) : (m.wrF k lo n v).drl = m.drl := rfl
@[simp] theorem Half.wrF_tlr (m : Half) (k lo n v : Nat) : (m.wrF k lo n v).tlr = m.tlr := rfl
@[simp] theorem Half.wrF_nrg (m : Half) (k lo n v : Nat) : (m.wrF k lo n v).nrg = m.nrg := rfl
@[simp] theorem Half.wrF_uio (m : Half) (k lo n v : Nat) : (m.wrF k lo n v).uio = m.uio := rfl
@[simp] theorem Half.wrF_can (m : Half) (k lo n v : Nat) : (m.wrF k lo n v).can = m.can := rfl
@[simp] theorem Half.wrF_ser (m : Half) (k lo n v : Nat) : (m.wrF k lo n v).ser = m.ser := rfl
@[simp] theorem Half.wrF_dali (m : Half) (k lo n v : Nat) : (m.wrF k lo n v).dali = m.dali := rfl
@[simp] theorem Half.wrF_mac (m : Half) (k lo n v : Nat) : (m.wrF k lo n v).mac = m.mac := rfl
@[simp] theorem Half.wrF_prp (m : Half) (k lo n v : Nat) : (m.wrF k lo n v).prp = m.prp := rfl
@[simp] theorem Half.wrF_mz (m : Half) (k lo n v : Nat) : (m.wrF k lo n v).mz = m.mz := rfl
@[simp] theorem Half.wrF_fost (m : Half) (k lo n v : Nat) : (m.wrF k lo n v).fost = m.fost := rfl
@[simp] theorem Half.wrF_tim (m : Half) (k lo n v : Nat) : (m.wrF k lo n v).tim = m.tim := rfl
@[simp] theorem Half.wrF_grn (m : Half) (k lo n v : Nat) : (m.wrF k lo n v).grn = m.grn := rfl
@[simp] theorem Half.wrF_upd (m : Half) (k lo n v : Nat) : (m.wrF k lo n v).upd = m.upd := rfl
@[simp] theorem Half.wrF_sec (m : Half) (k lo n v : Nat) : (m.wrF k lo n v).sec = m.sec := rfl
@[simp] theorem Half.wrF_evr (m : Half) (k lo n v : Nat) : (m.wrF k lo n v).evr = m.evr := rfl
@[simp] theorem Half.wrF_hlth (m : Half) (k lo n v : Nat) : (m.wrF k lo n v).hlth = m.hlth := rfl
@[simp] theorem Half.wrF_wdogAt (m : Half) (k lo n v : Nat) : (m.wrF k lo n v).wdogAt = m.wdogAt := rfl
@[simp] theorem Half.wrF_lpddr (m : Half) (k lo n v : Nat) : (m.wrF k lo n v).lpddr = m.lpddr := rfl
@[simp] theorem Half.wrF_cores (m : Half) (k lo n v : Nat) : (m.wrF k lo n v).cores = m.cores := rfl
@[simp] theorem Half.wrF_tcm (m : Half) (k lo n v : Nat) : (m.wrF k lo n v).tcm = m.tcm := rfl
@[simp] theorem Half.wrF_que (m : Half) (k lo n v : Nat) : (m.wrF k lo n v).que = m.que := rfl
@[simp] theorem Half.wrF_tmpl (m : Half) (k lo n v : Nat) : (m.wrF k lo n v).tmpl = m.tmpl := rfl
@[simp] theorem Half.wrF_sent (m : Half) (k lo n v : Nat) : (m.wrF k lo n v).sent = m.sent := rfl
@[simp] theorem Half.wrF_outRecs (m : Half) (k lo n v : Nat) : (m.wrF k lo n v).outRecs = m.outRecs := rfl
@[simp] theorem Half.wrF_fresh (m : Half) (k lo n v : Nat) : (m.wrF k lo n v).fresh = m.fresh := rfl
@[simp] theorem Half.wrB_self (m : Half) (k i : Nat) (b : Bool) : (m.wrB k i b).self = m.self := rfl
@[simp] theorem Half.wrB_dir (m : Half) (k i : Nat) (b : Bool) : (m.wrB k i b).dir = m.dir := rfl
@[simp] theorem Half.wrB_accs (m : Half) (k i : Nat) (b : Bool) : (m.wrB k i b).accs = m.accs := rfl
@[simp] theorem Half.wrB_stalled (m : Half) (k i : Nat) (b : Bool) : (m.wrB k i b).stalled = m.stalled := rfl
@[simp] theorem Half.wrB_up (m : Half) (k i : Nat) (b : Bool) : (m.wrB k i b).up = m.up := rfl
@[simp] theorem Half.wrB_tai (m : Half) (k i : Nat) (b : Bool) : (m.wrB k i b).tai = m.tai := rfl
@[simp] theorem Half.wrB_sess (m : Half) (k i : Nat) (b : Bool) : (m.wrB k i b).sess = m.sess := rfl
@[simp] theorem Half.wrB_rates (m : Half) (k i : Nat) (b : Bool) : (m.wrB k i b).rates = m.rates := rfl
@[simp] theorem Half.wrB_fwds (m : Half) (k i : Nat) (b : Bool) : (m.wrB k i b).fwds = m.fwds := rfl
@[simp] theorem Half.wrB_ptab (m : Half) (k i : Nat) (b : Bool) : (m.wrB k i b).ptab = m.ptab := rfl
@[simp] theorem Half.wrB_shf (m : Half) (k i : Nat) (b : Bool) : (m.wrB k i b).shf = m.shf := rfl
@[simp] theorem Half.wrB_drl (m : Half) (k i : Nat) (b : Bool) : (m.wrB k i b).drl = m.drl := rfl
@[simp] theorem Half.wrB_tlr (m : Half) (k i : Nat) (b : Bool) : (m.wrB k i b).tlr = m.tlr := rfl
@[simp] theorem Half.wrB_nrg (m : Half) (k i : Nat) (b : Bool) : (m.wrB k i b).nrg = m.nrg := rfl
@[simp] theorem Half.wrB_uio (m : Half) (k i : Nat) (b : Bool) : (m.wrB k i b).uio = m.uio := rfl
@[simp] theorem Half.wrB_can (m : Half) (k i : Nat) (b : Bool) : (m.wrB k i b).can = m.can := rfl
@[simp] theorem Half.wrB_ser (m : Half) (k i : Nat) (b : Bool) : (m.wrB k i b).ser = m.ser := rfl
@[simp] theorem Half.wrB_dali (m : Half) (k i : Nat) (b : Bool) : (m.wrB k i b).dali = m.dali := rfl
@[simp] theorem Half.wrB_mac (m : Half) (k i : Nat) (b : Bool) : (m.wrB k i b).mac = m.mac := rfl
@[simp] theorem Half.wrB_prp (m : Half) (k i : Nat) (b : Bool) : (m.wrB k i b).prp = m.prp := rfl
@[simp] theorem Half.wrB_mz (m : Half) (k i : Nat) (b : Bool) : (m.wrB k i b).mz = m.mz := rfl
@[simp] theorem Half.wrB_fost (m : Half) (k i : Nat) (b : Bool) : (m.wrB k i b).fost = m.fost := rfl
@[simp] theorem Half.wrB_tim (m : Half) (k i : Nat) (b : Bool) : (m.wrB k i b).tim = m.tim := rfl
@[simp] theorem Half.wrB_grn (m : Half) (k i : Nat) (b : Bool) : (m.wrB k i b).grn = m.grn := rfl
@[simp] theorem Half.wrB_upd (m : Half) (k i : Nat) (b : Bool) : (m.wrB k i b).upd = m.upd := rfl
@[simp] theorem Half.wrB_sec (m : Half) (k i : Nat) (b : Bool) : (m.wrB k i b).sec = m.sec := rfl
@[simp] theorem Half.wrB_evr (m : Half) (k i : Nat) (b : Bool) : (m.wrB k i b).evr = m.evr := rfl
@[simp] theorem Half.wrB_hlth (m : Half) (k i : Nat) (b : Bool) : (m.wrB k i b).hlth = m.hlth := rfl
@[simp] theorem Half.wrB_wdogAt (m : Half) (k i : Nat) (b : Bool) : (m.wrB k i b).wdogAt = m.wdogAt := rfl
@[simp] theorem Half.wrB_lpddr (m : Half) (k i : Nat) (b : Bool) : (m.wrB k i b).lpddr = m.lpddr := rfl
@[simp] theorem Half.wrB_cores (m : Half) (k i : Nat) (b : Bool) : (m.wrB k i b).cores = m.cores := rfl
@[simp] theorem Half.wrB_tcm (m : Half) (k i : Nat) (b : Bool) : (m.wrB k i b).tcm = m.tcm := rfl
@[simp] theorem Half.wrB_que (m : Half) (k i : Nat) (b : Bool) : (m.wrB k i b).que = m.que := rfl
@[simp] theorem Half.wrB_tmpl (m : Half) (k i : Nat) (b : Bool) : (m.wrB k i b).tmpl = m.tmpl := rfl
@[simp] theorem Half.wrB_sent (m : Half) (k i : Nat) (b : Bool) : (m.wrB k i b).sent = m.sent := rfl
@[simp] theorem Half.wrB_outRecs (m : Half) (k i : Nat) (b : Bool) : (m.wrB k i b).outRecs = m.outRecs := rfl
@[simp] theorem Half.wrB_fresh (m : Half) (k i : Nat) (b : Bool) : (m.wrB k i b).fresh = m.fresh := rfl
@[simp] theorem Half.irq_self (m : Half) (page i : Nat) : (m.irq page i).self = m.self := rfl
@[simp] theorem Half.irq_dir (m : Half) (page i : Nat) : (m.irq page i).dir = m.dir := rfl
@[simp] theorem Half.irq_accs (m : Half) (page i : Nat) : (m.irq page i).accs = m.accs := rfl
@[simp] theorem Half.irq_stalled (m : Half) (page i : Nat) : (m.irq page i).stalled = m.stalled := rfl
@[simp] theorem Half.irq_up (m : Half) (page i : Nat) : (m.irq page i).up = m.up := rfl
@[simp] theorem Half.irq_tai (m : Half) (page i : Nat) : (m.irq page i).tai = m.tai := rfl
@[simp] theorem Half.irq_sess (m : Half) (page i : Nat) : (m.irq page i).sess = m.sess := rfl
@[simp] theorem Half.irq_rates (m : Half) (page i : Nat) : (m.irq page i).rates = m.rates := rfl
@[simp] theorem Half.irq_fwds (m : Half) (page i : Nat) : (m.irq page i).fwds = m.fwds := rfl
@[simp] theorem Half.irq_ptab (m : Half) (page i : Nat) : (m.irq page i).ptab = m.ptab := rfl
@[simp] theorem Half.irq_shf (m : Half) (page i : Nat) : (m.irq page i).shf = m.shf := rfl
@[simp] theorem Half.irq_drl (m : Half) (page i : Nat) : (m.irq page i).drl = m.drl := rfl
@[simp] theorem Half.irq_tlr (m : Half) (page i : Nat) : (m.irq page i).tlr = m.tlr := rfl
@[simp] theorem Half.irq_nrg (m : Half) (page i : Nat) : (m.irq page i).nrg = m.nrg := rfl
@[simp] theorem Half.irq_uio (m : Half) (page i : Nat) : (m.irq page i).uio = m.uio := rfl
@[simp] theorem Half.irq_can (m : Half) (page i : Nat) : (m.irq page i).can = m.can := rfl
@[simp] theorem Half.irq_ser (m : Half) (page i : Nat) : (m.irq page i).ser = m.ser := rfl
@[simp] theorem Half.irq_dali (m : Half) (page i : Nat) : (m.irq page i).dali = m.dali := rfl
@[simp] theorem Half.irq_mac (m : Half) (page i : Nat) : (m.irq page i).mac = m.mac := rfl
@[simp] theorem Half.irq_prp (m : Half) (page i : Nat) : (m.irq page i).prp = m.prp := rfl
@[simp] theorem Half.irq_mz (m : Half) (page i : Nat) : (m.irq page i).mz = m.mz := rfl
@[simp] theorem Half.irq_fost (m : Half) (page i : Nat) : (m.irq page i).fost = m.fost := rfl
@[simp] theorem Half.irq_tim (m : Half) (page i : Nat) : (m.irq page i).tim = m.tim := rfl
@[simp] theorem Half.irq_grn (m : Half) (page i : Nat) : (m.irq page i).grn = m.grn := rfl
@[simp] theorem Half.irq_upd (m : Half) (page i : Nat) : (m.irq page i).upd = m.upd := rfl
@[simp] theorem Half.irq_sec (m : Half) (page i : Nat) : (m.irq page i).sec = m.sec := rfl
@[simp] theorem Half.irq_evr (m : Half) (page i : Nat) : (m.irq page i).evr = m.evr := rfl
@[simp] theorem Half.irq_hlth (m : Half) (page i : Nat) : (m.irq page i).hlth = m.hlth := rfl
@[simp] theorem Half.irq_wdogAt (m : Half) (page i : Nat) : (m.irq page i).wdogAt = m.wdogAt := rfl
@[simp] theorem Half.irq_lpddr (m : Half) (page i : Nat) : (m.irq page i).lpddr = m.lpddr := rfl
@[simp] theorem Half.irq_cores (m : Half) (page i : Nat) : (m.irq page i).cores = m.cores := rfl
@[simp] theorem Half.irq_tcm (m : Half) (page i : Nat) : (m.irq page i).tcm = m.tcm := rfl
@[simp] theorem Half.irq_que (m : Half) (page i : Nat) : (m.irq page i).que = m.que := rfl
@[simp] theorem Half.irq_tmpl (m : Half) (page i : Nat) : (m.irq page i).tmpl = m.tmpl := rfl
@[simp] theorem Half.irq_sent (m : Half) (page i : Nat) : (m.irq page i).sent = m.sent := rfl
@[simp] theorem Half.irq_outRecs (m : Half) (page i : Nat) : (m.irq page i).outRecs = m.outRecs := rfl
@[simp] theorem Half.irq_fresh (m : Half) (page i : Nat) : (m.irq page i).fresh = m.fresh := rfl
@[simp] theorem Half.gen_self (m : Half) (page : Nat) : (m.gen page).self = m.self := rfl
@[simp] theorem Half.gen_dir (m : Half) (page : Nat) : (m.gen page).dir = m.dir := rfl
@[simp] theorem Half.gen_accs (m : Half) (page : Nat) : (m.gen page).accs = m.accs := rfl
@[simp] theorem Half.gen_stalled (m : Half) (page : Nat) : (m.gen page).stalled = m.stalled := rfl
@[simp] theorem Half.gen_up (m : Half) (page : Nat) : (m.gen page).up = m.up := rfl
@[simp] theorem Half.gen_tai (m : Half) (page : Nat) : (m.gen page).tai = m.tai := rfl
@[simp] theorem Half.gen_sess (m : Half) (page : Nat) : (m.gen page).sess = m.sess := rfl
@[simp] theorem Half.gen_rates (m : Half) (page : Nat) : (m.gen page).rates = m.rates := rfl
@[simp] theorem Half.gen_fwds (m : Half) (page : Nat) : (m.gen page).fwds = m.fwds := rfl
@[simp] theorem Half.gen_ptab (m : Half) (page : Nat) : (m.gen page).ptab = m.ptab := rfl
@[simp] theorem Half.gen_shf (m : Half) (page : Nat) : (m.gen page).shf = m.shf := rfl
@[simp] theorem Half.gen_drl (m : Half) (page : Nat) : (m.gen page).drl = m.drl := rfl
@[simp] theorem Half.gen_tlr (m : Half) (page : Nat) : (m.gen page).tlr = m.tlr := rfl
@[simp] theorem Half.gen_nrg (m : Half) (page : Nat) : (m.gen page).nrg = m.nrg := rfl
@[simp] theorem Half.gen_uio (m : Half) (page : Nat) : (m.gen page).uio = m.uio := rfl
@[simp] theorem Half.gen_can (m : Half) (page : Nat) : (m.gen page).can = m.can := rfl
@[simp] theorem Half.gen_ser (m : Half) (page : Nat) : (m.gen page).ser = m.ser := rfl
@[simp] theorem Half.gen_dali (m : Half) (page : Nat) : (m.gen page).dali = m.dali := rfl
@[simp] theorem Half.gen_mac (m : Half) (page : Nat) : (m.gen page).mac = m.mac := rfl
@[simp] theorem Half.gen_prp (m : Half) (page : Nat) : (m.gen page).prp = m.prp := rfl
@[simp] theorem Half.gen_mz (m : Half) (page : Nat) : (m.gen page).mz = m.mz := rfl
@[simp] theorem Half.gen_fost (m : Half) (page : Nat) : (m.gen page).fost = m.fost := rfl
@[simp] theorem Half.gen_tim (m : Half) (page : Nat) : (m.gen page).tim = m.tim := rfl
@[simp] theorem Half.gen_grn (m : Half) (page : Nat) : (m.gen page).grn = m.grn := rfl
@[simp] theorem Half.gen_upd (m : Half) (page : Nat) : (m.gen page).upd = m.upd := rfl
@[simp] theorem Half.gen_sec (m : Half) (page : Nat) : (m.gen page).sec = m.sec := rfl
@[simp] theorem Half.gen_evr (m : Half) (page : Nat) : (m.gen page).evr = m.evr := rfl
@[simp] theorem Half.gen_hlth (m : Half) (page : Nat) : (m.gen page).hlth = m.hlth := rfl
@[simp] theorem Half.gen_wdogAt (m : Half) (page : Nat) : (m.gen page).wdogAt = m.wdogAt := rfl
@[simp] theorem Half.gen_lpddr (m : Half) (page : Nat) : (m.gen page).lpddr = m.lpddr := rfl
@[simp] theorem Half.gen_cores (m : Half) (page : Nat) : (m.gen page).cores = m.cores := rfl
@[simp] theorem Half.gen_tcm (m : Half) (page : Nat) : (m.gen page).tcm = m.tcm := rfl
@[simp] theorem Half.gen_que (m : Half) (page : Nat) : (m.gen page).que = m.que := rfl
@[simp] theorem Half.gen_tmpl (m : Half) (page : Nat) : (m.gen page).tmpl = m.tmpl := rfl
@[simp] theorem Half.gen_sent (m : Half) (page : Nat) : (m.gen page).sent = m.sent := rfl
@[simp] theorem Half.gen_outRecs (m : Half) (page : Nat) : (m.gen page).outRecs = m.outRecs := rfl
@[simp] theorem Half.gen_fresh (m : Half) (page : Nat) : (m.gen page).fresh = m.fresh := rfl
@[simp] theorem Half.wrD_self (m : Half) (k : Nat) (d : Dword) : (m.wrD k d).self = m.self := rfl
@[simp] theorem Half.wrD_dir (m : Half) (k : Nat) (d : Dword) : (m.wrD k d).dir = m.dir := rfl
@[simp] theorem Half.wrD_accs (m : Half) (k : Nat) (d : Dword) : (m.wrD k d).accs = m.accs := rfl
@[simp] theorem Half.wrD_stalled (m : Half) (k : Nat) (d : Dword) : (m.wrD k d).stalled = m.stalled := rfl
@[simp] theorem Half.wrD_up (m : Half) (k : Nat) (d : Dword) : (m.wrD k d).up = m.up := rfl
@[simp] theorem Half.wrD_tai (m : Half) (k : Nat) (d : Dword) : (m.wrD k d).tai = m.tai := rfl
@[simp] theorem Half.wrD_sess (m : Half) (k : Nat) (d : Dword) : (m.wrD k d).sess = m.sess := rfl
@[simp] theorem Half.wrD_rates (m : Half) (k : Nat) (d : Dword) : (m.wrD k d).rates = m.rates := rfl
@[simp] theorem Half.wrD_fwds (m : Half) (k : Nat) (d : Dword) : (m.wrD k d).fwds = m.fwds := rfl
@[simp] theorem Half.wrD_ptab (m : Half) (k : Nat) (d : Dword) : (m.wrD k d).ptab = m.ptab := rfl
@[simp] theorem Half.wrD_shf (m : Half) (k : Nat) (d : Dword) : (m.wrD k d).shf = m.shf := rfl
@[simp] theorem Half.wrD_drl (m : Half) (k : Nat) (d : Dword) : (m.wrD k d).drl = m.drl := rfl
@[simp] theorem Half.wrD_tlr (m : Half) (k : Nat) (d : Dword) : (m.wrD k d).tlr = m.tlr := rfl
@[simp] theorem Half.wrD_nrg (m : Half) (k : Nat) (d : Dword) : (m.wrD k d).nrg = m.nrg := rfl
@[simp] theorem Half.wrD_uio (m : Half) (k : Nat) (d : Dword) : (m.wrD k d).uio = m.uio := rfl
@[simp] theorem Half.wrD_can (m : Half) (k : Nat) (d : Dword) : (m.wrD k d).can = m.can := rfl
@[simp] theorem Half.wrD_ser (m : Half) (k : Nat) (d : Dword) : (m.wrD k d).ser = m.ser := rfl
@[simp] theorem Half.wrD_dali (m : Half) (k : Nat) (d : Dword) : (m.wrD k d).dali = m.dali := rfl
@[simp] theorem Half.wrD_mac (m : Half) (k : Nat) (d : Dword) : (m.wrD k d).mac = m.mac := rfl
@[simp] theorem Half.wrD_prp (m : Half) (k : Nat) (d : Dword) : (m.wrD k d).prp = m.prp := rfl
@[simp] theorem Half.wrD_mz (m : Half) (k : Nat) (d : Dword) : (m.wrD k d).mz = m.mz := rfl
@[simp] theorem Half.wrD_fost (m : Half) (k : Nat) (d : Dword) : (m.wrD k d).fost = m.fost := rfl
@[simp] theorem Half.wrD_tim (m : Half) (k : Nat) (d : Dword) : (m.wrD k d).tim = m.tim := rfl
@[simp] theorem Half.wrD_grn (m : Half) (k : Nat) (d : Dword) : (m.wrD k d).grn = m.grn := rfl
@[simp] theorem Half.wrD_upd (m : Half) (k : Nat) (d : Dword) : (m.wrD k d).upd = m.upd := rfl
@[simp] theorem Half.wrD_sec (m : Half) (k : Nat) (d : Dword) : (m.wrD k d).sec = m.sec := rfl
@[simp] theorem Half.wrD_evr (m : Half) (k : Nat) (d : Dword) : (m.wrD k d).evr = m.evr := rfl
@[simp] theorem Half.wrD_hlth (m : Half) (k : Nat) (d : Dword) : (m.wrD k d).hlth = m.hlth := rfl
@[simp] theorem Half.wrD_wdogAt (m : Half) (k : Nat) (d : Dword) : (m.wrD k d).wdogAt = m.wdogAt := rfl
@[simp] theorem Half.wrD_lpddr (m : Half) (k : Nat) (d : Dword) : (m.wrD k d).lpddr = m.lpddr := rfl
@[simp] theorem Half.wrD_cores (m : Half) (k : Nat) (d : Dword) : (m.wrD k d).cores = m.cores := rfl
@[simp] theorem Half.wrD_tcm (m : Half) (k : Nat) (d : Dword) : (m.wrD k d).tcm = m.tcm := rfl
@[simp] theorem Half.wrD_que (m : Half) (k : Nat) (d : Dword) : (m.wrD k d).que = m.que := rfl
@[simp] theorem Half.wrD_tmpl (m : Half) (k : Nat) (d : Dword) : (m.wrD k d).tmpl = m.tmpl := rfl
@[simp] theorem Half.wrD_sent (m : Half) (k : Nat) (d : Dword) : (m.wrD k d).sent = m.sent := rfl
@[simp] theorem Half.wrD_outRecs (m : Half) (k : Nat) (d : Dword) : (m.wrD k d).outRecs = m.outRecs := rfl
@[simp] theorem Half.wrD_fresh (m : Half) (k : Nat) (d : Dword) : (m.wrD k d).fresh = m.fresh := rfl
@[simp] theorem Half.stick_self (m : Half) (k n : Nat) : (m.stick k n).self = m.self := rfl
@[simp] theorem Half.stick_dir (m : Half) (k n : Nat) : (m.stick k n).dir = m.dir := rfl
@[simp] theorem Half.stick_accs (m : Half) (k n : Nat) : (m.stick k n).accs = m.accs := rfl
@[simp] theorem Half.stick_stalled (m : Half) (k n : Nat) : (m.stick k n).stalled = m.stalled := rfl
@[simp] theorem Half.stick_up (m : Half) (k n : Nat) : (m.stick k n).up = m.up := rfl
@[simp] theorem Half.stick_tai (m : Half) (k n : Nat) : (m.stick k n).tai = m.tai := rfl
@[simp] theorem Half.stick_sess (m : Half) (k n : Nat) : (m.stick k n).sess = m.sess := rfl
@[simp] theorem Half.stick_rates (m : Half) (k n : Nat) : (m.stick k n).rates = m.rates := rfl
@[simp] theorem Half.stick_fwds (m : Half) (k n : Nat) : (m.stick k n).fwds = m.fwds := rfl
@[simp] theorem Half.stick_ptab (m : Half) (k n : Nat) : (m.stick k n).ptab = m.ptab := rfl
@[simp] theorem Half.stick_shf (m : Half) (k n : Nat) : (m.stick k n).shf = m.shf := rfl
@[simp] theorem Half.stick_drl (m : Half) (k n : Nat) : (m.stick k n).drl = m.drl := rfl
@[simp] theorem Half.stick_tlr (m : Half) (k n : Nat) : (m.stick k n).tlr = m.tlr := rfl
@[simp] theorem Half.stick_nrg (m : Half) (k n : Nat) : (m.stick k n).nrg = m.nrg := rfl
@[simp] theorem Half.stick_uio (m : Half) (k n : Nat) : (m.stick k n).uio = m.uio := rfl
@[simp] theorem Half.stick_can (m : Half) (k n : Nat) : (m.stick k n).can = m.can := rfl
@[simp] theorem Half.stick_ser (m : Half) (k n : Nat) : (m.stick k n).ser = m.ser := rfl
@[simp] theorem Half.stick_dali (m : Half) (k n : Nat) : (m.stick k n).dali = m.dali := rfl
@[simp] theorem Half.stick_mac (m : Half) (k n : Nat) : (m.stick k n).mac = m.mac := rfl
@[simp] theorem Half.stick_prp (m : Half) (k n : Nat) : (m.stick k n).prp = m.prp := rfl
@[simp] theorem Half.stick_mz (m : Half) (k n : Nat) : (m.stick k n).mz = m.mz := rfl
@[simp] theorem Half.stick_fost (m : Half) (k n : Nat) : (m.stick k n).fost = m.fost := rfl
@[simp] theorem Half.stick_tim (m : Half) (k n : Nat) : (m.stick k n).tim = m.tim := rfl
@[simp] theorem Half.stick_grn (m : Half) (k n : Nat) : (m.stick k n).grn = m.grn := rfl
@[simp] theorem Half.stick_upd (m : Half) (k n : Nat) : (m.stick k n).upd = m.upd := rfl
@[simp] theorem Half.stick_sec (m : Half) (k n : Nat) : (m.stick k n).sec = m.sec := rfl
@[simp] theorem Half.stick_evr (m : Half) (k n : Nat) : (m.stick k n).evr = m.evr := rfl
@[simp] theorem Half.stick_hlth (m : Half) (k n : Nat) : (m.stick k n).hlth = m.hlth := rfl
@[simp] theorem Half.stick_wdogAt (m : Half) (k n : Nat) : (m.stick k n).wdogAt = m.wdogAt := rfl
@[simp] theorem Half.stick_lpddr (m : Half) (k n : Nat) : (m.stick k n).lpddr = m.lpddr := rfl
@[simp] theorem Half.stick_cores (m : Half) (k n : Nat) : (m.stick k n).cores = m.cores := rfl
@[simp] theorem Half.stick_tcm (m : Half) (k n : Nat) : (m.stick k n).tcm = m.tcm := rfl
@[simp] theorem Half.stick_que (m : Half) (k n : Nat) : (m.stick k n).que = m.que := rfl
@[simp] theorem Half.stick_tmpl (m : Half) (k n : Nat) : (m.stick k n).tmpl = m.tmpl := rfl
@[simp] theorem Half.stick_sent (m : Half) (k n : Nat) : (m.stick k n).sent = m.sent := rfl
@[simp] theorem Half.stick_outRecs (m : Half) (k n : Nat) : (m.stick k n).outRecs = m.outRecs := rfl
@[simp] theorem Half.stick_fresh (m : Half) (k n : Nat) : (m.stick k n).fresh = m.fresh := rfl
@[simp] theorem Half.ev_self (m : Half) (c p0 p1 p2 p3 : Nat) : (m.ev c p0 p1 p2 p3).self = m.self := rfl
@[simp] theorem Half.ev_regs (m : Half) (c p0 p1 p2 p3 : Nat) : (m.ev c p0 p1 p2 p3).regs = m.regs := rfl
@[simp] theorem Half.ev_dir (m : Half) (c p0 p1 p2 p3 : Nat) : (m.ev c p0 p1 p2 p3).dir = m.dir := rfl
@[simp] theorem Half.ev_accs (m : Half) (c p0 p1 p2 p3 : Nat) : (m.ev c p0 p1 p2 p3).accs = m.accs := rfl
@[simp] theorem Half.ev_stalled (m : Half) (c p0 p1 p2 p3 : Nat) : (m.ev c p0 p1 p2 p3).stalled = m.stalled := rfl
@[simp] theorem Half.ev_up (m : Half) (c p0 p1 p2 p3 : Nat) : (m.ev c p0 p1 p2 p3).up = m.up := rfl
@[simp] theorem Half.ev_tai (m : Half) (c p0 p1 p2 p3 : Nat) : (m.ev c p0 p1 p2 p3).tai = m.tai := rfl
@[simp] theorem Half.ev_sess (m : Half) (c p0 p1 p2 p3 : Nat) : (m.ev c p0 p1 p2 p3).sess = m.sess := rfl
@[simp] theorem Half.ev_rates (m : Half) (c p0 p1 p2 p3 : Nat) : (m.ev c p0 p1 p2 p3).rates = m.rates := rfl
@[simp] theorem Half.ev_fwds (m : Half) (c p0 p1 p2 p3 : Nat) : (m.ev c p0 p1 p2 p3).fwds = m.fwds := rfl
@[simp] theorem Half.ev_ptab (m : Half) (c p0 p1 p2 p3 : Nat) : (m.ev c p0 p1 p2 p3).ptab = m.ptab := rfl
@[simp] theorem Half.ev_shf (m : Half) (c p0 p1 p2 p3 : Nat) : (m.ev c p0 p1 p2 p3).shf = m.shf := rfl
@[simp] theorem Half.ev_drl (m : Half) (c p0 p1 p2 p3 : Nat) : (m.ev c p0 p1 p2 p3).drl = m.drl := rfl
@[simp] theorem Half.ev_tlr (m : Half) (c p0 p1 p2 p3 : Nat) : (m.ev c p0 p1 p2 p3).tlr = m.tlr := rfl
@[simp] theorem Half.ev_nrg (m : Half) (c p0 p1 p2 p3 : Nat) : (m.ev c p0 p1 p2 p3).nrg = m.nrg := rfl
@[simp] theorem Half.ev_uio (m : Half) (c p0 p1 p2 p3 : Nat) : (m.ev c p0 p1 p2 p3).uio = m.uio := rfl
@[simp] theorem Half.ev_can (m : Half) (c p0 p1 p2 p3 : Nat) : (m.ev c p0 p1 p2 p3).can = m.can := rfl
@[simp] theorem Half.ev_ser (m : Half) (c p0 p1 p2 p3 : Nat) : (m.ev c p0 p1 p2 p3).ser = m.ser := rfl
@[simp] theorem Half.ev_dali (m : Half) (c p0 p1 p2 p3 : Nat) : (m.ev c p0 p1 p2 p3).dali = m.dali := rfl
@[simp] theorem Half.ev_mac (m : Half) (c p0 p1 p2 p3 : Nat) : (m.ev c p0 p1 p2 p3).mac = m.mac := rfl
@[simp] theorem Half.ev_prp (m : Half) (c p0 p1 p2 p3 : Nat) : (m.ev c p0 p1 p2 p3).prp = m.prp := rfl
@[simp] theorem Half.ev_mz (m : Half) (c p0 p1 p2 p3 : Nat) : (m.ev c p0 p1 p2 p3).mz = m.mz := rfl
@[simp] theorem Half.ev_fost (m : Half) (c p0 p1 p2 p3 : Nat) : (m.ev c p0 p1 p2 p3).fost = m.fost := rfl
@[simp] theorem Half.ev_tim (m : Half) (c p0 p1 p2 p3 : Nat) : (m.ev c p0 p1 p2 p3).tim = m.tim := rfl
@[simp] theorem Half.ev_grn (m : Half) (c p0 p1 p2 p3 : Nat) : (m.ev c p0 p1 p2 p3).grn = m.grn := rfl
@[simp] theorem Half.ev_upd (m : Half) (c p0 p1 p2 p3 : Nat) : (m.ev c p0 p1 p2 p3).upd = m.upd := rfl
@[simp] theorem Half.ev_sec (m : Half) (c p0 p1 p2 p3 : Nat) : (m.ev c p0 p1 p2 p3).sec = m.sec := rfl
@[simp] theorem Half.ev_hlth (m : Half) (c p0 p1 p2 p3 : Nat) : (m.ev c p0 p1 p2 p3).hlth = m.hlth := rfl
@[simp] theorem Half.ev_wdogAt (m : Half) (c p0 p1 p2 p3 : Nat) : (m.ev c p0 p1 p2 p3).wdogAt = m.wdogAt := rfl
@[simp] theorem Half.ev_lpddr (m : Half) (c p0 p1 p2 p3 : Nat) : (m.ev c p0 p1 p2 p3).lpddr = m.lpddr := rfl
@[simp] theorem Half.ev_cores (m : Half) (c p0 p1 p2 p3 : Nat) : (m.ev c p0 p1 p2 p3).cores = m.cores := rfl
@[simp] theorem Half.ev_tcm (m : Half) (c p0 p1 p2 p3 : Nat) : (m.ev c p0 p1 p2 p3).tcm = m.tcm := rfl
@[simp] theorem Half.ev_que (m : Half) (c p0 p1 p2 p3 : Nat) : (m.ev c p0 p1 p2 p3).que = m.que := rfl
@[simp] theorem Half.ev_tmpl (m : Half) (c p0 p1 p2 p3 : Nat) : (m.ev c p0 p1 p2 p3).tmpl = m.tmpl := rfl
@[simp] theorem Half.ev_sent (m : Half) (c p0 p1 p2 p3 : Nat) : (m.ev c p0 p1 p2 p3).sent = m.sent := rfl
@[simp] theorem Half.ev_outRecs (m : Half) (c p0 p1 p2 p3 : Nat) : (m.ev c p0 p1 p2 p3).outRecs = m.outRecs := rfl
@[simp] theorem Half.ev_fresh (m : Half) (c p0 p1 p2 p3 : Nat) : (m.ev c p0 p1 p2 p3).fresh = m.fresh := rfl
@[simp] theorem Half.updAcc_self (m : Half) (n : Nat) (f : Acc → Acc) : (m.updAcc n f).self = m.self := rfl
@[simp] theorem Half.updAcc_regs (m : Half) (n : Nat) (f : Acc → Acc) : (m.updAcc n f).regs = m.regs := rfl
@[simp] theorem Half.updAcc_dir (m : Half) (n : Nat) (f : Acc → Acc) : (m.updAcc n f).dir = m.dir := rfl
@[simp] theorem Half.updAcc_stalled (m : Half) (n : Nat) (f : Acc → Acc) : (m.updAcc n f).stalled = m.stalled := rfl
@[simp] theorem Half.updAcc_up (m : Half) (n : Nat) (f : Acc → Acc) : (m.updAcc n f).up = m.up := rfl
@[simp] theorem Half.updAcc_tai (m : Half) (n : Nat) (f : Acc → Acc) : (m.updAcc n f).tai = m.tai := rfl
@[simp] theorem Half.updAcc_sess (m : Half) (n : Nat) (f : Acc → Acc) : (m.updAcc n f).sess = m.sess := rfl
@[simp] theorem Half.updAcc_rates (m : Half) (n : Nat) (f : Acc → Acc) : (m.updAcc n f).rates = m.rates := rfl
@[simp] theorem Half.updAcc_fwds (m : Half) (n : Nat) (f : Acc → Acc) : (m.updAcc n f).fwds = m.fwds := rfl
@[simp] theorem Half.updAcc_ptab (m : Half) (n : Nat) (f : Acc → Acc) : (m.updAcc n f).ptab = m.ptab := rfl
@[simp] theorem Half.updAcc_shf (m : Half) (n : Nat) (f : Acc → Acc) : (m.updAcc n f).shf = m.shf := rfl
@[simp] theorem Half.updAcc_drl (m : Half) (n : Nat) (f : Acc → Acc) : (m.updAcc n f).drl = m.drl := rfl
@[simp] theorem Half.updAcc_tlr (m : Half) (n : Nat) (f : Acc → Acc) : (m.updAcc n f).tlr = m.tlr := rfl
@[simp] theorem Half.updAcc_nrg (m : Half) (n : Nat) (f : Acc → Acc) : (m.updAcc n f).nrg = m.nrg := rfl
@[simp] theorem Half.updAcc_uio (m : Half) (n : Nat) (f : Acc → Acc) : (m.updAcc n f).uio = m.uio := rfl
@[simp] theorem Half.updAcc_can (m : Half) (n : Nat) (f : Acc → Acc) : (m.updAcc n f).can = m.can := rfl
@[simp] theorem Half.updAcc_ser (m : Half) (n : Nat) (f : Acc → Acc) : (m.updAcc n f).ser = m.ser := rfl
@[simp] theorem Half.updAcc_dali (m : Half) (n : Nat) (f : Acc → Acc) : (m.updAcc n f).dali = m.dali := rfl
@[simp] theorem Half.updAcc_mac (m : Half) (n : Nat) (f : Acc → Acc) : (m.updAcc n f).mac = m.mac := rfl
@[simp] theorem Half.updAcc_prp (m : Half) (n : Nat) (f : Acc → Acc) : (m.updAcc n f).prp = m.prp := rfl
@[simp] theorem Half.updAcc_mz (m : Half) (n : Nat) (f : Acc → Acc) : (m.updAcc n f).mz = m.mz := rfl
@[simp] theorem Half.updAcc_fost (m : Half) (n : Nat) (f : Acc → Acc) : (m.updAcc n f).fost = m.fost := rfl
@[simp] theorem Half.updAcc_tim (m : Half) (n : Nat) (f : Acc → Acc) : (m.updAcc n f).tim = m.tim := rfl
@[simp] theorem Half.updAcc_grn (m : Half) (n : Nat) (f : Acc → Acc) : (m.updAcc n f).grn = m.grn := rfl
@[simp] theorem Half.updAcc_upd (m : Half) (n : Nat) (f : Acc → Acc) : (m.updAcc n f).upd = m.upd := rfl
@[simp] theorem Half.updAcc_sec (m : Half) (n : Nat) (f : Acc → Acc) : (m.updAcc n f).sec = m.sec := rfl
@[simp] theorem Half.updAcc_evr (m : Half) (n : Nat) (f : Acc → Acc) : (m.updAcc n f).evr = m.evr := rfl
@[simp] theorem Half.updAcc_hlth (m : Half) (n : Nat) (f : Acc → Acc) : (m.updAcc n f).hlth = m.hlth := rfl
@[simp] theorem Half.updAcc_wdogAt (m : Half) (n : Nat) (f : Acc → Acc) : (m.updAcc n f).wdogAt = m.wdogAt := rfl
@[simp] theorem Half.updAcc_lpddr (m : Half) (n : Nat) (f : Acc → Acc) : (m.updAcc n f).lpddr = m.lpddr := rfl
@[simp] theorem Half.updAcc_cores (m : Half) (n : Nat) (f : Acc → Acc) : (m.updAcc n f).cores = m.cores := rfl
@[simp] theorem Half.updAcc_tcm (m : Half) (n : Nat) (f : Acc → Acc) : (m.updAcc n f).tcm = m.tcm := rfl
@[simp] theorem Half.updAcc_que (m : Half) (n : Nat) (f : Acc → Acc) : (m.updAcc n f).que = m.que := rfl
@[simp] theorem Half.updAcc_tmpl (m : Half) (n : Nat) (f : Acc → Acc) : (m.updAcc n f).tmpl = m.tmpl := rfl
@[simp] theorem Half.updAcc_sent (m : Half) (n : Nat) (f : Acc → Acc) : (m.updAcc n f).sent = m.sent := rfl
@[simp] theorem Half.updAcc_outRecs (m : Half) (n : Nat) (f : Acc → Acc) : (m.updAcc n f).outRecs = m.outRecs := rfl
@[simp] theorem Half.updAcc_fresh (m : Half) (n : Nat) (f : Acc → Acc) : (m.updAcc n f).fresh = m.fresh := rfl
@[simp] theorem Half.answer_self (m : Half) (r : Req) (st : Nat) (v : Dword) : (m.answer r st v).self = m.self := rfl
@[simp] theorem Half.answer_regs (m : Half) (r : Req) (st : Nat) (v : Dword) : (m.answer r st v).regs = m.regs := rfl
@[simp] theorem Half.answer_dir (m : Half) (r : Req) (st : Nat) (v : Dword) : (m.answer r st v).dir = m.dir := rfl
@[simp] theorem Half.answer_stalled (m : Half) (r : Req) (st : Nat) (v : Dword) : (m.answer r st v).stalled = m.stalled := rfl
@[simp] theorem Half.answer_up (m : Half) (r : Req) (st : Nat) (v : Dword) : (m.answer r st v).up = m.up := rfl
@[simp] theorem Half.answer_tai (m : Half) (r : Req) (st : Nat) (v : Dword) : (m.answer r st v).tai = m.tai := rfl
@[simp] theorem Half.answer_sess (m : Half) (r : Req) (st : Nat) (v : Dword) : (m.answer r st v).sess = m.sess := rfl
@[simp] theorem Half.answer_rates (m : Half) (r : Req) (st : Nat) (v : Dword) : (m.answer r st v).rates = m.rates := rfl
@[simp] theorem Half.answer_fwds (m : Half) (r : Req) (st : Nat) (v : Dword) : (m.answer r st v).fwds = m.fwds := rfl
@[simp] theorem Half.answer_ptab (m : Half) (r : Req) (st : Nat) (v : Dword) : (m.answer r st v).ptab = m.ptab := rfl
@[simp] theorem Half.answer_shf (m : Half) (r : Req) (st : Nat) (v : Dword) : (m.answer r st v).shf = m.shf := rfl
@[simp] theorem Half.answer_drl (m : Half) (r : Req) (st : Nat) (v : Dword) : (m.answer r st v).drl = m.drl := rfl
@[simp] theorem Half.answer_tlr (m : Half) (r : Req) (st : Nat) (v : Dword) : (m.answer r st v).tlr = m.tlr := rfl
@[simp] theorem Half.answer_nrg (m : Half) (r : Req) (st : Nat) (v : Dword) : (m.answer r st v).nrg = m.nrg := rfl
@[simp] theorem Half.answer_uio (m : Half) (r : Req) (st : Nat) (v : Dword) : (m.answer r st v).uio = m.uio := rfl
@[simp] theorem Half.answer_can (m : Half) (r : Req) (st : Nat) (v : Dword) : (m.answer r st v).can = m.can := rfl
@[simp] theorem Half.answer_ser (m : Half) (r : Req) (st : Nat) (v : Dword) : (m.answer r st v).ser = m.ser := rfl
@[simp] theorem Half.answer_dali (m : Half) (r : Req) (st : Nat) (v : Dword) : (m.answer r st v).dali = m.dali := rfl
@[simp] theorem Half.answer_mac (m : Half) (r : Req) (st : Nat) (v : Dword) : (m.answer r st v).mac = m.mac := rfl
@[simp] theorem Half.answer_prp (m : Half) (r : Req) (st : Nat) (v : Dword) : (m.answer r st v).prp = m.prp := rfl
@[simp] theorem Half.answer_mz (m : Half) (r : Req) (st : Nat) (v : Dword) : (m.answer r st v).mz = m.mz := rfl
@[simp] theorem Half.answer_fost (m : Half) (r : Req) (st : Nat) (v : Dword) : (m.answer r st v).fost = m.fost := rfl
@[simp] theorem Half.answer_tim (m : Half) (r : Req) (st : Nat) (v : Dword) : (m.answer r st v).tim = m.tim := rfl
@[simp] theorem Half.answer_grn (m : Half) (r : Req) (st : Nat) (v : Dword) : (m.answer r st v).grn = m.grn := rfl
@[simp] theorem Half.answer_upd (m : Half) (r : Req) (st : Nat) (v : Dword) : (m.answer r st v).upd = m.upd := rfl
@[simp] theorem Half.answer_sec (m : Half) (r : Req) (st : Nat) (v : Dword) : (m.answer r st v).sec = m.sec := rfl
@[simp] theorem Half.answer_evr (m : Half) (r : Req) (st : Nat) (v : Dword) : (m.answer r st v).evr = m.evr := rfl
@[simp] theorem Half.answer_hlth (m : Half) (r : Req) (st : Nat) (v : Dword) : (m.answer r st v).hlth = m.hlth := rfl
@[simp] theorem Half.answer_wdogAt (m : Half) (r : Req) (st : Nat) (v : Dword) : (m.answer r st v).wdogAt = m.wdogAt := rfl
@[simp] theorem Half.answer_lpddr (m : Half) (r : Req) (st : Nat) (v : Dword) : (m.answer r st v).lpddr = m.lpddr := rfl
@[simp] theorem Half.answer_cores (m : Half) (r : Req) (st : Nat) (v : Dword) : (m.answer r st v).cores = m.cores := rfl
@[simp] theorem Half.answer_tcm (m : Half) (r : Req) (st : Nat) (v : Dword) : (m.answer r st v).tcm = m.tcm := rfl
@[simp] theorem Half.answer_que (m : Half) (r : Req) (st : Nat) (v : Dword) : (m.answer r st v).que = m.que := rfl
@[simp] theorem Half.answer_tmpl (m : Half) (r : Req) (st : Nat) (v : Dword) : (m.answer r st v).tmpl = m.tmpl := rfl
@[simp] theorem Half.answer_sent (m : Half) (r : Req) (st : Nat) (v : Dword) : (m.answer r st v).sent = m.sent := rfl
@[simp] theorem Half.answer_outRecs (m : Half) (r : Req) (st : Nat) (v : Dword) : (m.answer r st v).outRecs = m.outRecs := rfl
@[simp] theorem Half.answer_fresh (m : Half) (r : Req) (st : Nat) (v : Dword) : (m.answer r st v).fresh = m.fresh := rfl
@[simp] theorem Half.ageStaged_self (m : Half) (n : Nat) : (m.ageStaged n).self = m.self := rfl
@[simp] theorem Half.ageStaged_regs (m : Half) (n : Nat) : (m.ageStaged n).regs = m.regs := rfl
@[simp] theorem Half.ageStaged_dir (m : Half) (n : Nat) : (m.ageStaged n).dir = m.dir := rfl
@[simp] theorem Half.ageStaged_stalled (m : Half) (n : Nat) : (m.ageStaged n).stalled = m.stalled := rfl
@[simp] theorem Half.ageStaged_up (m : Half) (n : Nat) : (m.ageStaged n).up = m.up := rfl
@[simp] theorem Half.ageStaged_tai (m : Half) (n : Nat) : (m.ageStaged n).tai = m.tai := rfl
@[simp] theorem Half.ageStaged_sess (m : Half) (n : Nat) : (m.ageStaged n).sess = m.sess := rfl
@[simp] theorem Half.ageStaged_rates (m : Half) (n : Nat) : (m.ageStaged n).rates = m.rates := rfl
@[simp] theorem Half.ageStaged_fwds (m : Half) (n : Nat) : (m.ageStaged n).fwds = m.fwds := rfl
@[simp] theorem Half.ageStaged_ptab (m : Half) (n : Nat) : (m.ageStaged n).ptab = m.ptab := rfl
@[simp] theorem Half.ageStaged_shf (m : Half) (n : Nat) : (m.ageStaged n).shf = m.shf := rfl
@[simp] theorem Half.ageStaged_drl (m : Half) (n : Nat) : (m.ageStaged n).drl = m.drl := rfl
@[simp] theorem Half.ageStaged_tlr (m : Half) (n : Nat) : (m.ageStaged n).tlr = m.tlr := rfl
@[simp] theorem Half.ageStaged_nrg (m : Half) (n : Nat) : (m.ageStaged n).nrg = m.nrg := rfl
@[simp] theorem Half.ageStaged_uio (m : Half) (n : Nat) : (m.ageStaged n).uio = m.uio := rfl
@[simp] theorem Half.ageStaged_can (m : Half) (n : Nat) : (m.ageStaged n).can = m.can := rfl
@[simp] theorem Half.ageStaged_ser (m : Half) (n : Nat) : (m.ageStaged n).ser = m.ser := rfl
@[simp] theorem Half.ageStaged_dali (m : Half) (n : Nat) : (m.ageStaged n).dali = m.dali := rfl
@[simp] theorem Half.ageStaged_mac (m : Half) (n : Nat) : (m.ageStaged n).mac = m.mac := rfl
@[simp] theorem Half.ageStaged_prp (m : Half) (n : Nat) : (m.ageStaged n).prp = m.prp := rfl
@[simp] theorem Half.ageStaged_mz (m : Half) (n : Nat) : (m.ageStaged n).mz = m.mz := rfl
@[simp] theorem Half.ageStaged_fost (m : Half) (n : Nat) : (m.ageStaged n).fost = m.fost := rfl
@[simp] theorem Half.ageStaged_tim (m : Half) (n : Nat) : (m.ageStaged n).tim = m.tim := rfl
@[simp] theorem Half.ageStaged_grn (m : Half) (n : Nat) : (m.ageStaged n).grn = m.grn := rfl
@[simp] theorem Half.ageStaged_upd (m : Half) (n : Nat) : (m.ageStaged n).upd = m.upd := rfl
@[simp] theorem Half.ageStaged_sec (m : Half) (n : Nat) : (m.ageStaged n).sec = m.sec := rfl
@[simp] theorem Half.ageStaged_evr (m : Half) (n : Nat) : (m.ageStaged n).evr = m.evr := rfl
@[simp] theorem Half.ageStaged_hlth (m : Half) (n : Nat) : (m.ageStaged n).hlth = m.hlth := rfl
@[simp] theorem Half.ageStaged_wdogAt (m : Half) (n : Nat) : (m.ageStaged n).wdogAt = m.wdogAt := rfl
@[simp] theorem Half.ageStaged_lpddr (m : Half) (n : Nat) : (m.ageStaged n).lpddr = m.lpddr := rfl
@[simp] theorem Half.ageStaged_cores (m : Half) (n : Nat) : (m.ageStaged n).cores = m.cores := rfl
@[simp] theorem Half.ageStaged_tcm (m : Half) (n : Nat) : (m.ageStaged n).tcm = m.tcm := rfl
@[simp] theorem Half.ageStaged_que (m : Half) (n : Nat) : (m.ageStaged n).que = m.que := rfl
@[simp] theorem Half.ageStaged_tmpl (m : Half) (n : Nat) : (m.ageStaged n).tmpl = m.tmpl := rfl
@[simp] theorem Half.ageStaged_sent (m : Half) (n : Nat) : (m.ageStaged n).sent = m.sent := rfl
@[simp] theorem Half.ageStaged_outRecs (m : Half) (n : Nat) : (m.ageStaged n).outRecs = m.outRecs := rfl
@[simp] theorem Half.ageStaged_fresh (m : Half) (n : Nat) : (m.ageStaged n).fresh = m.fresh := rfl
@[simp] theorem Half.dropStaged_self (m : Half) (n k w : Nat) : (m.dropStaged n k w).self = m.self := rfl
@[simp] theorem Half.dropStaged_regs (m : Half) (n k w : Nat) : (m.dropStaged n k w).regs = m.regs := rfl
@[simp] theorem Half.dropStaged_dir (m : Half) (n k w : Nat) : (m.dropStaged n k w).dir = m.dir := rfl
@[simp] theorem Half.dropStaged_stalled (m : Half) (n k w : Nat) : (m.dropStaged n k w).stalled = m.stalled := rfl
@[simp] theorem Half.dropStaged_up (m : Half) (n k w : Nat) : (m.dropStaged n k w).up = m.up := rfl
@[simp] theorem Half.dropStaged_tai (m : Half) (n k w : Nat) : (m.dropStaged n k w).tai = m.tai := rfl
@[simp] theorem Half.dropStaged_sess (m : Half) (n k w : Nat) : (m.dropStaged n k w).sess = m.sess := rfl
@[simp] theorem Half.dropStaged_rates (m : Half) (n k w : Nat) : (m.dropStaged n k w).rates = m.rates := rfl
@[simp] theorem Half.dropStaged_fwds (m : Half) (n k w : Nat) : (m.dropStaged n k w).fwds = m.fwds := rfl
@[simp] theorem Half.dropStaged_ptab (m : Half) (n k w : Nat) : (m.dropStaged n k w).ptab = m.ptab := rfl
@[simp] theorem Half.dropStaged_shf (m : Half) (n k w : Nat) : (m.dropStaged n k w).shf = m.shf := rfl
@[simp] theorem Half.dropStaged_drl (m : Half) (n k w : Nat) : (m.dropStaged n k w).drl = m.drl := rfl
@[simp] theorem Half.dropStaged_tlr (m : Half) (n k w : Nat) : (m.dropStaged n k w).tlr = m.tlr := rfl
@[simp] theorem Half.dropStaged_nrg (m : Half) (n k w : Nat) : (m.dropStaged n k w).nrg = m.nrg := rfl
@[simp] theorem Half.dropStaged_uio (m : Half) (n k w : Nat) : (m.dropStaged n k w).uio = m.uio := rfl
@[simp] theorem Half.dropStaged_can (m : Half) (n k w : Nat) : (m.dropStaged n k w).can = m.can := rfl
@[simp] theorem Half.dropStaged_ser (m : Half) (n k w : Nat) : (m.dropStaged n k w).ser = m.ser := rfl
@[simp] theorem Half.dropStaged_dali (m : Half) (n k w : Nat) : (m.dropStaged n k w).dali = m.dali := rfl
@[simp] theorem Half.dropStaged_mac (m : Half) (n k w : Nat) : (m.dropStaged n k w).mac = m.mac := rfl
@[simp] theorem Half.dropStaged_prp (m : Half) (n k w : Nat) : (m.dropStaged n k w).prp = m.prp := rfl
@[simp] theorem Half.dropStaged_mz (m : Half) (n k w : Nat) : (m.dropStaged n k w).mz = m.mz := rfl
@[simp] theorem Half.dropStaged_fost (m : Half) (n k w : Nat) : (m.dropStaged n k w).fost = m.fost := rfl
@[simp] theorem Half.dropStaged_tim (m : Half) (n k w : Nat) : (m.dropStaged n k w).tim = m.tim := rfl
@[simp] theorem Half.dropStaged_grn (m : Half) (n k w : Nat) : (m.dropStaged n k w).grn = m.grn := rfl
@[simp] theorem Half.dropStaged_upd (m : Half) (n k w : Nat) : (m.dropStaged n k w).upd = m.upd := rfl
@[simp] theorem Half.dropStaged_sec (m : Half) (n k w : Nat) : (m.dropStaged n k w).sec = m.sec := rfl
@[simp] theorem Half.dropStaged_evr (m : Half) (n k w : Nat) : (m.dropStaged n k w).evr = m.evr := rfl
@[simp] theorem Half.dropStaged_hlth (m : Half) (n k w : Nat) : (m.dropStaged n k w).hlth = m.hlth := rfl
@[simp] theorem Half.dropStaged_wdogAt (m : Half) (n k w : Nat) : (m.dropStaged n k w).wdogAt = m.wdogAt := rfl
@[simp] theorem Half.dropStaged_lpddr (m : Half) (n k w : Nat) : (m.dropStaged n k w).lpddr = m.lpddr := rfl
@[simp] theorem Half.dropStaged_cores (m : Half) (n k w : Nat) : (m.dropStaged n k w).cores = m.cores := rfl
@[simp] theorem Half.dropStaged_tcm (m : Half) (n k w : Nat) : (m.dropStaged n k w).tcm = m.tcm := rfl
@[simp] theorem Half.dropStaged_que (m : Half) (n k w : Nat) : (m.dropStaged n k w).que = m.que := rfl
@[simp] theorem Half.dropStaged_tmpl (m : Half) (n k w : Nat) : (m.dropStaged n k w).tmpl = m.tmpl := rfl
@[simp] theorem Half.dropStaged_sent (m : Half) (n k w : Nat) : (m.dropStaged n k w).sent = m.sent := rfl
@[simp] theorem Half.dropStaged_outRecs (m : Half) (n k w : Nat) : (m.dropStaged n k w).outRecs = m.outRecs := rfl
@[simp] theorem Half.dropStaged_fresh (m : Half) (n k w : Nat) : (m.dropStaged n k w).fresh = m.fresh := rfl
@[simp] theorem Half.setView_self (m : Half) (n k : Nat) (v : Word) : (m.setView n k v).self = m.self := rfl
@[simp] theorem Half.setView_regs (m : Half) (n k : Nat) (v : Word) : (m.setView n k v).regs = m.regs := rfl
@[simp] theorem Half.setView_dir (m : Half) (n k : Nat) (v : Word) : (m.setView n k v).dir = m.dir := rfl
@[simp] theorem Half.setView_stalled (m : Half) (n k : Nat) (v : Word) : (m.setView n k v).stalled = m.stalled := rfl
@[simp] theorem Half.setView_up (m : Half) (n k : Nat) (v : Word) : (m.setView n k v).up = m.up := rfl
@[simp] theorem Half.setView_tai (m : Half) (n k : Nat) (v : Word) : (m.setView n k v).tai = m.tai := rfl
@[simp] theorem Half.setView_sess (m : Half) (n k : Nat) (v : Word) : (m.setView n k v).sess = m.sess := rfl
@[simp] theorem Half.setView_rates (m : Half) (n k : Nat) (v : Word) : (m.setView n k v).rates = m.rates := rfl
@[simp] theorem Half.setView_fwds (m : Half) (n k : Nat) (v : Word) : (m.setView n k v).fwds = m.fwds := rfl
@[simp] theorem Half.setView_ptab (m : Half) (n k : Nat) (v : Word) : (m.setView n k v).ptab = m.ptab := rfl
@[simp] theorem Half.setView_shf (m : Half) (n k : Nat) (v : Word) : (m.setView n k v).shf = m.shf := rfl
@[simp] theorem Half.setView_drl (m : Half) (n k : Nat) (v : Word) : (m.setView n k v).drl = m.drl := rfl
@[simp] theorem Half.setView_tlr (m : Half) (n k : Nat) (v : Word) : (m.setView n k v).tlr = m.tlr := rfl
@[simp] theorem Half.setView_nrg (m : Half) (n k : Nat) (v : Word) : (m.setView n k v).nrg = m.nrg := rfl
@[simp] theorem Half.setView_uio (m : Half) (n k : Nat) (v : Word) : (m.setView n k v).uio = m.uio := rfl
@[simp] theorem Half.setView_can (m : Half) (n k : Nat) (v : Word) : (m.setView n k v).can = m.can := rfl
@[simp] theorem Half.setView_ser (m : Half) (n k : Nat) (v : Word) : (m.setView n k v).ser = m.ser := rfl
@[simp] theorem Half.setView_dali (m : Half) (n k : Nat) (v : Word) : (m.setView n k v).dali = m.dali := rfl
@[simp] theorem Half.setView_mac (m : Half) (n k : Nat) (v : Word) : (m.setView n k v).mac = m.mac := rfl
@[simp] theorem Half.setView_prp (m : Half) (n k : Nat) (v : Word) : (m.setView n k v).prp = m.prp := rfl
@[simp] theorem Half.setView_mz (m : Half) (n k : Nat) (v : Word) : (m.setView n k v).mz = m.mz := rfl
@[simp] theorem Half.setView_fost (m : Half) (n k : Nat) (v : Word) : (m.setView n k v).fost = m.fost := rfl
@[simp] theorem Half.setView_tim (m : Half) (n k : Nat) (v : Word) : (m.setView n k v).tim = m.tim := rfl
@[simp] theorem Half.setView_grn (m : Half) (n k : Nat) (v : Word) : (m.setView n k v).grn = m.grn := rfl
@[simp] theorem Half.setView_upd (m : Half) (n k : Nat) (v : Word) : (m.setView n k v).upd = m.upd := rfl
@[simp] theorem Half.setView_sec (m : Half) (n k : Nat) (v : Word) : (m.setView n k v).sec = m.sec := rfl
@[simp] theorem Half.setView_evr (m : Half) (n k : Nat) (v : Word) : (m.setView n k v).evr = m.evr := rfl
@[simp] theorem Half.setView_hlth (m : Half) (n k : Nat) (v : Word) : (m.setView n k v).hlth = m.hlth := rfl
@[simp] theorem Half.setView_wdogAt (m : Half) (n k : Nat) (v : Word) : (m.setView n k v).wdogAt = m.wdogAt := rfl
@[simp] theorem Half.setView_lpddr (m : Half) (n k : Nat) (v : Word) : (m.setView n k v).lpddr = m.lpddr := rfl
@[simp] theorem Half.setView_cores (m : Half) (n k : Nat) (v : Word) : (m.setView n k v).cores = m.cores := rfl
@[simp] theorem Half.setView_tcm (m : Half) (n k : Nat) (v : Word) : (m.setView n k v).tcm = m.tcm := rfl
@[simp] theorem Half.setView_que (m : Half) (n k : Nat) (v : Word) : (m.setView n k v).que = m.que := rfl
@[simp] theorem Half.setView_tmpl (m : Half) (n k : Nat) (v : Word) : (m.setView n k v).tmpl = m.tmpl := rfl
@[simp] theorem Half.setView_sent (m : Half) (n k : Nat) (v : Word) : (m.setView n k v).sent = m.sent := rfl
@[simp] theorem Half.setView_outRecs (m : Half) (n k : Nat) (v : Word) : (m.setView n k v).outRecs = m.outRecs := rfl
@[simp] theorem Half.setView_fresh (m : Half) (n k : Nat) (v : Word) : (m.setView n k v).fresh = m.fresh := rfl
@[simp] theorem Half.setSlot_self (m : Half) (i : Nat) (x : Slot) : (m.setSlot i x).self = m.self := rfl
@[simp] theorem Half.setSlot_regs (m : Half) (i : Nat) (x : Slot) : (m.setSlot i x).regs = m.regs := rfl
@[simp] theorem Half.setSlot_dir (m : Half) (i : Nat) (x : Slot) : (m.setSlot i x).dir = m.dir := rfl
@[simp] theorem Half.setSlot_accs (m : Half) (i : Nat) (x : Slot) : (m.setSlot i x).accs = m.accs := rfl
@[simp] theorem Half.setSlot_stalled (m : Half) (i : Nat) (x : Slot) : (m.setSlot i x).stalled = m.stalled := rfl
@[simp] theorem Half.setSlot_up (m : Half) (i : Nat) (x : Slot) : (m.setSlot i x).up = m.up := rfl
@[simp] theorem Half.setSlot_tai (m : Half) (i : Nat) (x : Slot) : (m.setSlot i x).tai = m.tai := rfl
@[simp] theorem Half.setSlot_sess (m : Half) (i : Nat) (x : Slot) : (m.setSlot i x).sess = m.sess := rfl
@[simp] theorem Half.setSlot_rates (m : Half) (i : Nat) (x : Slot) : (m.setSlot i x).rates = m.rates := rfl
@[simp] theorem Half.setSlot_fwds (m : Half) (i : Nat) (x : Slot) : (m.setSlot i x).fwds = m.fwds := rfl
@[simp] theorem Half.setSlot_ptab (m : Half) (i : Nat) (x : Slot) : (m.setSlot i x).ptab = m.ptab := rfl
@[simp] theorem Half.setSlot_drl (m : Half) (i : Nat) (x : Slot) : (m.setSlot i x).drl = m.drl := rfl
@[simp] theorem Half.setSlot_tlr (m : Half) (i : Nat) (x : Slot) : (m.setSlot i x).tlr = m.tlr := rfl
@[simp] theorem Half.setSlot_nrg (m : Half) (i : Nat) (x : Slot) : (m.setSlot i x).nrg = m.nrg := rfl
@[simp] theorem Half.setSlot_uio (m : Half) (i : Nat) (x : Slot) : (m.setSlot i x).uio = m.uio := rfl
@[simp] theorem Half.setSlot_can (m : Half) (i : Nat) (x : Slot) : (m.setSlot i x).can = m.can := rfl
@[simp] theorem Half.setSlot_ser (m : Half) (i : Nat) (x : Slot) : (m.setSlot i x).ser = m.ser := rfl
@[simp] theorem Half.setSlot_dali (m : Half) (i : Nat) (x : Slot) : (m.setSlot i x).dali = m.dali := rfl
@[simp] theorem Half.setSlot_mac (m : Half) (i : Nat) (x : Slot) : (m.setSlot i x).mac = m.mac := rfl
@[simp] theorem Half.setSlot_prp (m : Half) (i : Nat) (x : Slot) : (m.setSlot i x).prp = m.prp := rfl
@[simp] theorem Half.setSlot_mz (m : Half) (i : Nat) (x : Slot) : (m.setSlot i x).mz = m.mz := rfl
@[simp] theorem Half.setSlot_fost (m : Half) (i : Nat) (x : Slot) : (m.setSlot i x).fost = m.fost := rfl
@[simp] theorem Half.setSlot_tim (m : Half) (i : Nat) (x : Slot) : (m.setSlot i x).tim = m.tim := rfl
@[simp] theorem Half.setSlot_grn (m : Half) (i : Nat) (x : Slot) : (m.setSlot i x).grn = m.grn := rfl
@[simp] theorem Half.setSlot_upd (m : Half) (i : Nat) (x : Slot) : (m.setSlot i x).upd = m.upd := rfl
@[simp] theorem Half.setSlot_sec (m : Half) (i : Nat) (x : Slot) : (m.setSlot i x).sec = m.sec := rfl
@[simp] theorem Half.setSlot_evr (m : Half) (i : Nat) (x : Slot) : (m.setSlot i x).evr = m.evr := rfl
@[simp] theorem Half.setSlot_hlth (m : Half) (i : Nat) (x : Slot) : (m.setSlot i x).hlth = m.hlth := rfl
@[simp] theorem Half.setSlot_wdogAt (m : Half) (i : Nat) (x : Slot) : (m.setSlot i x).wdogAt = m.wdogAt := rfl
@[simp] theorem Half.setSlot_lpddr (m : Half) (i : Nat) (x : Slot) : (m.setSlot i x).lpddr = m.lpddr := rfl
@[simp] theorem Half.setSlot_cores (m : Half) (i : Nat) (x : Slot) : (m.setSlot i x).cores = m.cores := rfl
@[simp] theorem Half.setSlot_tcm (m : Half) (i : Nat) (x : Slot) : (m.setSlot i x).tcm = m.tcm := rfl
@[simp] theorem Half.setSlot_que (m : Half) (i : Nat) (x : Slot) : (m.setSlot i x).que = m.que := rfl
@[simp] theorem Half.setSlot_tmpl (m : Half) (i : Nat) (x : Slot) : (m.setSlot i x).tmpl = m.tmpl := rfl
@[simp] theorem Half.setSlot_sent (m : Half) (i : Nat) (x : Slot) : (m.setSlot i x).sent = m.sent := rfl
@[simp] theorem Half.setSlot_outRecs (m : Half) (i : Nat) (x : Slot) : (m.setSlot i x).outRecs = m.outRecs := rfl
@[simp] theorem Half.setSlot_fresh (m : Half) (i : Nat) (x : Slot) : (m.setSlot i x).fresh = m.fresh := rfl
@[simp] theorem Half.sealed_self (m : Half) : m.sealed.self = m.self := rfl
@[simp] theorem Half.sealed_regs (m : Half) : m.sealed.regs = m.regs := rfl
@[simp] theorem Half.sealed_dir (m : Half) : m.sealed.dir = m.dir := rfl
@[simp] theorem Half.sealed_accs (m : Half) : m.sealed.accs = m.accs := rfl
@[simp] theorem Half.sealed_stalled (m : Half) : m.sealed.stalled = m.stalled := rfl
@[simp] theorem Half.sealed_up (m : Half) : m.sealed.up = m.up := rfl
@[simp] theorem Half.sealed_tai (m : Half) : m.sealed.tai = m.tai := rfl
@[simp] theorem Half.sealed_sess (m : Half) : m.sealed.sess = m.sess := rfl
@[simp] theorem Half.sealed_rates (m : Half) : m.sealed.rates = m.rates := rfl
@[simp] theorem Half.sealed_fwds (m : Half) : m.sealed.fwds = m.fwds := rfl
@[simp] theorem Half.sealed_ptab (m : Half) : m.sealed.ptab = m.ptab := rfl
@[simp] theorem Half.sealed_drl (m : Half) : m.sealed.drl = m.drl := rfl
@[simp] theorem Half.sealed_tlr (m : Half) : m.sealed.tlr = m.tlr := rfl
@[simp] theorem Half.sealed_nrg (m : Half) : m.sealed.nrg = m.nrg := rfl
@[simp] theorem Half.sealed_uio (m : Half) : m.sealed.uio = m.uio := rfl
@[simp] theorem Half.sealed_can (m : Half) : m.sealed.can = m.can := rfl
@[simp] theorem Half.sealed_ser (m : Half) : m.sealed.ser = m.ser := rfl
@[simp] theorem Half.sealed_dali (m : Half) : m.sealed.dali = m.dali := rfl
@[simp] theorem Half.sealed_mac (m : Half) : m.sealed.mac = m.mac := rfl
@[simp] theorem Half.sealed_prp (m : Half) : m.sealed.prp = m.prp := rfl
@[simp] theorem Half.sealed_mz (m : Half) : m.sealed.mz = m.mz := rfl
@[simp] theorem Half.sealed_fost (m : Half) : m.sealed.fost = m.fost := rfl
@[simp] theorem Half.sealed_tim (m : Half) : m.sealed.tim = m.tim := rfl
@[simp] theorem Half.sealed_grn (m : Half) : m.sealed.grn = m.grn := rfl
@[simp] theorem Half.sealed_upd (m : Half) : m.sealed.upd = m.upd := rfl
@[simp] theorem Half.sealed_sec (m : Half) : m.sealed.sec = m.sec := rfl
@[simp] theorem Half.sealed_evr (m : Half) : m.sealed.evr = m.evr := rfl
@[simp] theorem Half.sealed_hlth (m : Half) : m.sealed.hlth = m.hlth := rfl
@[simp] theorem Half.sealed_wdogAt (m : Half) : m.sealed.wdogAt = m.wdogAt := rfl
@[simp] theorem Half.sealed_lpddr (m : Half) : m.sealed.lpddr = m.lpddr := rfl
@[simp] theorem Half.sealed_cores (m : Half) : m.sealed.cores = m.cores := rfl
@[simp] theorem Half.sealed_tcm (m : Half) : m.sealed.tcm = m.tcm := rfl
@[simp] theorem Half.sealed_que (m : Half) : m.sealed.que = m.que := rfl
@[simp] theorem Half.sealed_tmpl (m : Half) : m.sealed.tmpl = m.tmpl := rfl
@[simp] theorem Half.sealed_sent (m : Half) : m.sealed.sent = m.sent := rfl
@[simp] theorem Half.sealed_outRecs (m : Half) : m.sealed.outRecs = m.outRecs := rfl
@[simp] theorem Half.sealed_fresh (m : Half) : m.sealed.fresh = m.fresh := rfl

@[simp] theorem State.withPending_a (s : State) (q : List Instr) : (s.withPending q).a = s.a := rfl
@[simp] theorem State.withPending_b (s : State) (q : List Instr) : (s.withPending q).b = s.b := rfl
@[simp] theorem State.withPending_yoke (s : State) (q : List Instr) : (s.withPending q).yoke = s.yoke := rfl
@[simp] theorem State.withPending_pending (s : State) (q : List Instr) : (s.withPending q).pending = q := rfl
@[simp] theorem State.set_yoke (s : State) (h : HalfId) (m : Half) : (s.set h m).yoke = s.yoke := by cases h <;> rfl
@[simp] theorem State.upd_yoke (s : State) (h : HalfId) (f : Half → Half) : (s.upd h f).yoke = s.yoke := by cases h <;> rfl
@[simp] theorem State.both_yoke (s : State) (f : Half → Half) : (s.both f).yoke = s.yoke := rfl
@[simp] theorem State.set_pending (s : State) (h : HalfId) (m : Half) : (s.set h m).pending = s.pending := by cases h <;> rfl
@[simp] theorem State.upd_pending (s : State) (h : HalfId) (f : Half → Half) : (s.upd h f).pending = s.pending := by cases h <;> rfl
@[simp] theorem State.both_pending (s : State) (f : Half → Half) : (s.both f).pending = s.pending := rfl
@[simp] theorem State.updYk_a (s : State) (f : Yoke → Yoke) : (s.updYk f).a = s.a := rfl
@[simp] theorem State.updY_a (s : State) (h : HalfId) (f : YHalf → YHalf) : (s.updY h f).a = s.a := by cases h <;> rfl
@[simp] theorem State.updPwr_a (s : State) (f : PwrSt → PwrSt) : (s.updPwr f).a = s.a := rfl
@[simp] theorem State.updYk_b (s : State) (f : Yoke → Yoke) : (s.updYk f).b = s.b := rfl
@[simp] theorem State.updY_b (s : State) (h : HalfId) (f : YHalf → YHalf) : (s.updY h f).b = s.b := by cases h <;> rfl
@[simp] theorem State.updPwr_b (s : State) (f : PwrSt → PwrSt) : (s.updPwr f).b = s.b := rfl
@[simp] theorem State.updYk_pending (s : State) (f : Yoke → Yoke) : (s.updYk f).pending = s.pending := rfl
@[simp] theorem State.updY_pending (s : State) (h : HalfId) (f : YHalf → YHalf) : (s.updY h f).pending = s.pending := by cases h <;> rfl
@[simp] theorem State.updPwr_pending (s : State) (f : PwrSt → PwrSt) : (s.updPwr f).pending = s.pending := rfl
@[simp] theorem State.updYk_yoke (s : State) (f : Yoke → Yoke) : (s.updYk f).yoke = f s.yoke := rfl
@[simp] theorem State.updPwr_yoke_a (s : State) (f : PwrSt → PwrSt) : (s.updPwr f).yoke.a = s.yoke.a := rfl
@[simp] theorem State.updPwr_yoke_b (s : State) (f : PwrSt → PwrSt) : (s.updPwr f).yoke.b = s.yoke.b := rfl
@[simp] theorem State.updPwr_yoke_holder (s : State) (f : PwrSt → PwrSt) : (s.updPwr f).yoke.holder = s.yoke.holder := rfl
@[simp] theorem State.updY_yoke_holder (s : State) (h : HalfId) (f : YHalf → YHalf) : (s.updY h f).yoke.holder = s.yoke.holder := by cases h <;> rfl
@[simp] theorem State.updPwr_yoke_epoch (s : State) (f : PwrSt → PwrSt) : (s.updPwr f).yoke.epoch = s.yoke.epoch := rfl
@[simp] theorem State.updY_yoke_epoch (s : State) (h : HalfId) (f : YHalf → YHalf) : (s.updY h f).yoke.epoch = s.yoke.epoch := by cases h <;> rfl
@[simp] theorem State.updPwr_yoke_renewAt (s : State) (f : PwrSt → PwrSt) : (s.updPwr f).yoke.renewAt = s.yoke.renewAt := rfl
@[simp] theorem State.updY_yoke_renewAt (s : State) (h : HalfId) (f : YHalf → YHalf) : (s.updY h f).yoke.renewAt = s.yoke.renewAt := by cases h <;> rfl
@[simp] theorem State.updPwr_yoke_latched (s : State) (f : PwrSt → PwrSt) : (s.updPwr f).yoke.latched = s.yoke.latched := rfl
@[simp] theorem State.updY_yoke_latched (s : State) (h : HalfId) (f : YHalf → YHalf) : (s.updY h f).yoke.latched = s.yoke.latched := by cases h <;> rfl
@[simp] theorem State.updPwr_yoke_granted (s : State) (f : PwrSt → PwrSt) : (s.updPwr f).yoke.granted = s.yoke.granted := rfl
@[simp] theorem State.updY_yoke_granted (s : State) (h : HalfId) (f : YHalf → YHalf) : (s.updY h f).yoke.granted = s.yoke.granted := by cases h <;> rfl
@[simp] theorem State.updPwr_yoke_hold (s : State) (f : PwrSt → PwrSt) : (s.updPwr f).yoke.hold = s.yoke.hold := rfl
@[simp] theorem State.updY_yoke_hold (s : State) (h : HalfId) (f : YHalf → YHalf) : (s.updY h f).yoke.hold = s.yoke.hold := by cases h <;> rfl
@[simp] theorem State.updPwr_yoke_relay (s : State) (f : PwrSt → PwrSt) : (s.updPwr f).yoke.relay = s.yoke.relay := rfl
@[simp] theorem State.updY_yoke_relay (s : State) (h : HalfId) (f : YHalf → YHalf) : (s.updY h f).yoke.relay = s.yoke.relay := by cases h <;> rfl
@[simp] theorem State.updPwr_yoke_xup (s : State) (f : PwrSt → PwrSt) : (s.updPwr f).yoke.xup = s.yoke.xup := rfl
@[simp] theorem State.updY_yoke_xup (s : State) (h : HalfId) (f : YHalf → YHalf) : (s.updY h f).yoke.xup = s.yoke.xup := by cases h <;> rfl
@[simp] theorem State.updPwr_yoke_retries (s : State) (f : PwrSt → PwrSt) : (s.updPwr f).yoke.retries = s.yoke.retries := rfl
@[simp] theorem State.updY_yoke_retries (s : State) (h : HalfId) (f : YHalf → YHalf) : (s.updY h f).yoke.retries = s.yoke.retries := by cases h <;> rfl
@[simp] theorem State.updPwr_yoke_xfer (s : State) (f : PwrSt → PwrSt) : (s.updPwr f).yoke.xfer = s.yoke.xfer := rfl
@[simp] theorem State.updY_yoke_xfer (s : State) (h : HalfId) (f : YHalf → YHalf) : (s.updY h f).yoke.xfer = s.yoke.xfer := by cases h <;> rfl
@[simp] theorem State.updPwr_yoke_handover (s : State) (f : PwrSt → PwrSt) : (s.updPwr f).yoke.handover = s.yoke.handover := rfl
@[simp] theorem State.updY_yoke_handover (s : State) (h : HalfId) (f : YHalf → YHalf) : (s.updY h f).yoke.handover = s.yoke.handover := by cases h <;> rfl
@[simp] theorem State.updPwr_yoke_outs (s : State) (f : PwrSt → PwrSt) : (s.updPwr f).yoke.outs = s.yoke.outs := rfl
@[simp] theorem State.updY_yoke_outs (s : State) (h : HalfId) (f : YHalf → YHalf) : (s.updY h f).yoke.outs = s.yoke.outs := by cases h <;> rfl
@[simp] theorem State.updPwr_yoke_chall (s : State) (f : PwrSt → PwrSt) : (s.updPwr f).yoke.chall = s.yoke.chall := rfl
@[simp] theorem State.updY_yoke_chall (s : State) (h : HalfId) (f : YHalf → YHalf) : (s.updY h f).yoke.chall = s.yoke.chall := by cases h <;> rfl
@[simp] theorem State.updPwr_yoke_lostAt (s : State) (f : PwrSt → PwrSt) : (s.updPwr f).yoke.lostAt = s.yoke.lostAt := rfl
@[simp] theorem State.updY_yoke_lostAt (s : State) (h : HalfId) (f : YHalf → YHalf) : (s.updY h f).yoke.lostAt = s.yoke.lostAt := by cases h <;> rfl
@[simp] theorem State.updPwr_yoke_recs (s : State) (f : PwrSt → PwrSt) : (s.updPwr f).yoke.recs = s.yoke.recs := rfl
@[simp] theorem State.updY_yoke_recs (s : State) (h : HalfId) (f : YHalf → YHalf) : (s.updY h f).yoke.recs = s.yoke.recs := by cases h <;> rfl
@[simp] theorem State.updPwr_yoke_recsLost (s : State) (f : PwrSt → PwrSt) : (s.updPwr f).yoke.recsLost = s.yoke.recsLost := rfl
@[simp] theorem State.updY_yoke_recsLost (s : State) (h : HalfId) (f : YHalf → YHalf) : (s.updY h f).yoke.recsLost = s.yoke.recsLost := by cases h <;> rfl
@[simp] theorem State.updPwr_yoke_act (s : State) (f : PwrSt → PwrSt) : (s.updPwr f).yoke.act = s.yoke.act := rfl
@[simp] theorem State.updY_yoke_act (s : State) (h : HalfId) (f : YHalf → YHalf) : (s.updY h f).yoke.act = s.yoke.act := by cases h <;> rfl
@[simp] theorem State.updPwr_yoke_arb (s : State) (f : PwrSt → PwrSt) : (s.updPwr f).yoke.arb = s.yoke.arb := rfl
@[simp] theorem State.updY_yoke_arb (s : State) (h : HalfId) (f : YHalf → YHalf) : (s.updY h f).yoke.arb = s.yoke.arb := by cases h <;> rfl
@[simp] theorem State.updPwr_yoke_regs (s : State) (f : PwrSt → PwrSt) : (s.updPwr f).yoke.regs = s.yoke.regs := rfl
@[simp] theorem State.updY_yoke_regs (s : State) (h : HalfId) (f : YHalf → YHalf) : (s.updY h f).yoke.regs = s.yoke.regs := by cases h <;> rfl
@[simp] theorem State.updPwr_yoke_now (s : State) (f : PwrSt → PwrSt) : (s.updPwr f).yoke.now = s.yoke.now := rfl
@[simp] theorem State.updY_yoke_now (s : State) (h : HalfId) (f : YHalf → YHalf) : (s.updY h f).yoke.now = s.yoke.now := by cases h <;> rfl
@[simp] theorem State.updPwr_yoke_rtc (s : State) (f : PwrSt → PwrSt) : (s.updPwr f).yoke.rtc = s.yoke.rtc := rfl
@[simp] theorem State.updY_yoke_rtc (s : State) (h : HalfId) (f : YHalf → YHalf) : (s.updY h f).yoke.rtc = s.yoke.rtc := by cases h <;> rfl
@[simp] theorem State.updY_yoke_pwr (s : State) (h : HalfId) (f : YHalf → YHalf) : (s.updY h f).yoke.pwr = s.yoke.pwr := by cases h <;> rfl
@[simp] theorem State.updPwr_yoke_mgt (s : State) (f : PwrSt → PwrSt) : (s.updPwr f).yoke.mgt = s.yoke.mgt := rfl
@[simp] theorem State.updY_yoke_mgt (s : State) (h : HalfId) (f : YHalf → YHalf) : (s.updY h f).yoke.mgt = s.yoke.mgt := by cases h <;> rfl
@[simp] theorem State.updPwr_yoke_pwr (s : State) (f : PwrSt → PwrSt) : (s.updPwr f).yoke.pwr = f s.yoke.pwr := rfl

@[simp] theorem State.half_a (s : State) : s.half .a = s.a := rfl
@[simp] theorem State.half_b (s : State) : s.half .b = s.b := rfl
@[simp] theorem other_other (h : HalfId) : other (other h) = h := by cases h <;> rfl
@[simp] theorem other_ne (h : HalfId) : other h ≠ h := by cases h <;> decide
@[simp] theorem State.set_half (s : State) (h : HalfId) (m : Half) : (s.set h m).half h = m := by cases h <;> rfl
@[simp] theorem State.set_other (s : State) (h : HalfId) (m : Half) : (s.set h m).half (other h) = s.half (other h) := by
  cases h <;> rfl
@[simp] theorem State.upd_half (s : State) (h : HalfId) (f : Half → Half) : (s.upd h f).half h = f (s.half h) := by
  cases h <;> rfl
@[simp] theorem State.upd_other (s : State) (h : HalfId) (f : Half → Half) : (s.upd h f).half (other h) = s.half (other h) := by
  cases h <;> rfl
@[simp] theorem State.updYk_half (s : State) (f : Yoke → Yoke) (h : HalfId) : (s.updYk f).half h = s.half h := by cases h <;> rfl
@[simp] theorem State.updPwr_half (s : State) (f : PwrSt → PwrSt) (h : HalfId) : (s.updPwr f).half h = s.half h := by
  cases h <;> rfl
@[simp] theorem State.updY_half (s : State) (h : HalfId) (f : YHalf → YHalf) (g : HalfId) : (s.updY h f).half g = s.half g := by
  cases g <;> simp [State.half]
@[simp] theorem State.updY_yh (s : State) (h : HalfId) (f : YHalf → YHalf) : (s.updY h f).yh h = f (s.yh h) := by
  cases h <;> rfl
@[simp] theorem State.updY_yh_other (s : State) (h : HalfId) (f : YHalf → YHalf) : (s.updY h f).yh (other h) = s.yh (other h) := by
  cases h <;> rfl
@[simp] theorem State.set_self (s : State) (h : HalfId) : s.set h (s.half h) = s := by cases h <;> rfl
theorem State.upd_eq (s : State) (h : HalfId) (f : Half → Half) : s.upd h f = s.set h (f (s.half h)) := rfl

/-- What a register reads after a register is written. -/
theorem Half.rd_wr (m : Half) (k j : Nat) (v : Word) : (m.wr k v).rd j = if k = j then v else m.rd j :=
  sget_sset regReset m.regs k j v
@[simp] theorem Half.rd_wr_same (m : Half) (k : Nat) (v : Word) : (m.wr k v).rd k = v := by simp [Half.rd_wr]
theorem Half.rd_wr_other (m : Half) {k j : Nat} (v : Word) (h : k ≠ j) : (m.wr k v).rd j = m.rd j := by simp [Half.rd_wr, h]
@[simp] theorem Half.rd_irq_same (m : Half) (p i : Nat) (h : i < 32) : flag ((m.irq p i).rd (pgIrqRaw p)) i = true := by
  simp [Half.irq, Half.wrB, h]
theorem Half.rd_irq_other (m : Half) (p i k : Nat) (h : pgIrqRaw p ≠ k) : (m.irq p i).rd k = m.rd k := Half.rd_wr_other m _ h
@[simp] theorem Half.rd_wrB_same (m : Half) (k i : Nat) (b : Bool) (h : i < 32) : flag ((m.wrB k i b).rd k) i = b := by
  simp [Half.wrB, h]
@[simp] theorem Half.rd_of_regs (m : Half) (k : Nat) : sget (regReset k) m.regs k = m.rd k := rfl
@[simp] theorem Half.ev_rd (m : Half) (c p0 p1 p2 p3 : Nat) (j : Nat) : (m.ev c p0 p1 p2 p3).rd j = m.rd j := rfl
@[simp] theorem Half.updAcc_rd (m : Half) (n : Nat) (f : Acc → Acc) (j : Nat) : (m.updAcc n f).rd j = m.rd j := rfl
@[simp] theorem Half.answer_rd (m : Half) (r : Req) (st : Nat) (v : Dword) (j : Nat) : (m.answer r st v).rd j = m.rd j := rfl
@[simp] theorem Half.ageStaged_rd (m : Half) (n : Nat) (j : Nat) : (m.ageStaged n).rd j = m.rd j := rfl
@[simp] theorem Half.dropStaged_rd (m : Half) (n k w : Nat) (j : Nat) : (m.dropStaged n k w).rd j = m.rd j := rfl
@[simp] theorem Half.setView_rd (m : Half) (n k : Nat) (v : Word) (j : Nat) : (m.setView n k v).rd j = m.rd j := rfl
@[simp] theorem Half.setSlot_rd (m : Half) (i : Nat) (x : Slot) (j : Nat) : (m.setSlot i x).rd j = m.rd j := rfl
@[simp] theorem Half.sealed_rd (m : Half) (j : Nat) : m.sealed.rd j = m.rd j := rfl
@[simp] theorem Half.sealed_slots (m : Half) : m.sealed.shf.slots = m.shf.slots := rfl
@[simp] theorem Half.sealed_acc (m : Half) (n : Nat) : m.sealed.acc n = m.acc n := rfl
theorem Half.sealed_eq (m : Half) (h : m.shf.toYoke = []) : m.sealed = m := by
  simp only [Half.sealed, ← h]
@[simp] theorem Half.acc_updAcc (m : Half) (n : Nat) (f : Acc → Acc) : (m.updAcc n f).acc n = f (m.acc n) := by
  simp [Half.acc, Half.updAcc]
theorem Half.acc_updAcc_other (m : Half) {n j : Nat} (f : Acc → Acc) (h : n ≠ j) : (m.updAcc n f).acc j = m.acc j := by
  simp only [Half.acc, Half.updAcc]; exact sget_sset_other _ _ _ _ h
@[simp] theorem Half.answered_answer (m : Half) (r : Req) (st : Nat) (v : Dword) : (m.answer r st v).answered r = ⟨st, v⟩ := by
  simp [Half.answered, Half.answer]
@[simp] theorem Half.wr_acc (m : Half) (k : Nat) (v : Word) (n : Nat) : (m.wr k v).acc n = m.acc n := rfl
@[simp] theorem Half.ev_acc (m : Half) (c p0 p1 p2 p3 n : Nat) : (m.ev c p0 p1 p2 p3).acc n = m.acc n := rfl
@[simp] theorem Half.ev_arising (m : Half) (c p0 p1 p2 p3 : Nat) :
    (m.ev c p0 p1 p2 p3).evr.arising = m.evr.arising ++ [⟨c, p0, p1, p2, p3, m.tai⟩] := rfl
@[simp] theorem Half.slot_setSlot (m : Half) (i : Nat) (x : Slot) : (m.setSlot i x).slot i = x := by
  simp [Half.slot, Half.setSlot]

end Sys2Proof.Machine
end

