-- ==== Sys2Proof/Laws/Run.lean ====
section
/-! SUPPORT. What a command of one half's engines, and a distributed input, do to the module when no handover waits: each half that
takes it becomes what its own engines make of it, and nothing else changes but the Yoke's pages that a sheaf writes. -/
namespace Sys2Proof.Machine

theorem State.quiet_runs {s : State} {h : HalfId} (q : s.quiet h = true) : s.runs h = true := by
  simp only [State.quiet, Bool.and_eq_true] at q; exact q.1.1

theorem State.quiet_handover {s : State} {h : HalfId} (q : s.quiet h = true) : s.yoke.handover = none := by
  simp only [State.quiet, Bool.and_eq_true, Option.isNone_iff_eq_none] at q; exact q.1.2

theorem State.quiet_toYoke {s : State} {h : HalfId} (q : s.quiet h = true) : (s.half h).shf.toYoke = [] := by
  simp only [State.quiet, Bool.and_eq_true, List.isEmpty_iff] at q; exact q.2

theorem State.handoverStep_none (s : State) (n : s.yoke.handover = none) : s.handoverStep = s := by
  simp [State.handoverStep, n]

/-- What flush does when no handover waits. -/
theorem State.flush_eq (s : State) (h : HalfId) (n : s.yoke.handover = none) :
    ∃ r, s.flush h = { s.upd h Half.sealed with yoke := { s.yoke with regs := r } } := by
  unfold State.flush
  split
  · rename_i e
    refine ⟨s.yoke.regs, ?_⟩
    rw [State.handoverStep_none s n, State.upd_eq, Half.sealed_eq _ e]
    simp
  · exact ⟨_, State.handoverStep_none _ n⟩

/-- flush with nothing to carry changes nothing. -/
theorem State.flush_id (s : State) (h : HalfId) (n : s.yoke.handover = none) (e : (s.half h).shf.toYoke = []) : s.flush h = s := by
  unfold State.flush
  rw [e]
  exact State.handoverStep_none s n

theorem State.flush_half (s : State) (h : HalfId) (n : s.yoke.handover = none) : (s.flush h).half h = (s.half h).sealed := by
  obtain ⟨r, e⟩ := s.flush_eq h n
  rw [e]; cases h <;> rfl

theorem State.flush_other (s : State) (h : HalfId) (n : s.yoke.handover = none) :
    (s.flush h).half (other h) = s.half (other h) := by
  obtain ⟨r, e⟩ := s.flush_eq h n
  rw [e]; cases h <;> rfl

theorem State.flush_yoke (s : State) (h : HalfId) (n : s.yoke.handover = none) :
    (s.flush h).yoke = { s.yoke with regs := (s.flush h).yoke.regs } := by
  obtain ⟨r, e⟩ := s.flush_eq h n
  rw [e]

theorem State.flush_pending_none (s : State) (h : HalfId) (n : s.yoke.handover = none) : (s.flush h).pending = s.pending := by
  obtain ⟨r, e⟩ := s.flush_eq h n
  rw [e]; simp

/-- A change of one half that is undisturbed, by its own engines. -/
theorem State.onHalf_upd_half (s : State) (h : HalfId) (f : Half → Half) (q : s.quiet h = true) :
    (s.onHalf h (fun s => s.upd h f)).half h = (f (s.half h)).sealed := by
  rw [State.onHalf, if_pos (State.quiet_runs q), State.flush_half _ _ (by simpa using State.quiet_handover q), State.upd_half]

theorem State.local_half (s : State) (h : HalfId) (f : View → Half → Half) (q : s.quiet h = true) :
    (s.local_ h f).half h = (f (s.view h) (s.half h)).sealed := by
  rw [State.local_, State.onHalf, if_pos (State.quiet_runs q), State.flush_half _ _ (by simpa using State.quiet_handover q),
    State.upd_half]

/-- An engine's command that leaves no word for the Yoke: the module with that half replaced. -/
theorem State.local_eq (s : State) (h : HalfId) (f : View → Half → Half) (q : s.quiet h = true)
    (e : (f (s.view h) (s.half h)).shf.toYoke = []) : s.local_ h f = s.set h (f (s.view h) (s.half h)) := by
  rw [State.local_, State.onHalf, if_pos (State.quiet_runs q), State.flush_id _ _ (by simpa using State.quiet_handover q)
    (by simpa using e)]
  rfl

/-- The other half, and everything of the Yoke but its pages, stay. -/
theorem State.local_frame (s : State) (h : HalfId) (f : View → Half → Half) (n : s.yoke.handover = none) :
    (s.local_ h f).half (other h) = s.half (other h) ∧ (s.local_ h f).yoke = { s.yoke with regs := (s.local_ h f).yoke.regs } ∧
      (s.local_ h f).pending = s.pending := by
  rw [State.local_, State.onHalf]
  split
  · have n' : (s.upd h (f (s.view h))).yoke.handover = none := by simpa using n
    refine ⟨?_, ?_, ?_⟩
    · rw [State.flush_other _ _ n', State.upd_other]
    · have := State.flush_yoke _ h n'
      simpa using this
    · rw [State.flush_pending_none _ _ n', State.upd_pending]
  · exact ⟨rfl, rfl, rfl⟩

theorem State.runs_of_yoke (s t : State) (h : HalfId) (r : Sparse Word) (e : t.yoke = { s.yoke with regs := r }) :
    t.runs h = s.runs h := by
  obtain ⟨a, b, y, p⟩ := t
  cases e; cases h <;> rfl

theorem State.view_of_yoke (s t : State) (h : HalfId) (r : Sparse Word) (e : t.yoke = { s.yoke with regs := r })
    (u : t.half h = s.half h) : t.view h = s.view h := by
  cases h <;> simp_all [State.view, State.role, State.yh, State.lease, State.half]

/-- One half's turn in a distributed input, where no handover waits. -/
theorem State.turn_frame (s : State) (h : HalfId) (f : Half → Half) (n : s.yoke.handover = none) :
    ((s.upd h f).flush h).half h = (f (s.half h)).sealed ∧ ((s.upd h f).flush h).half (other h) = s.half (other h) ∧
      (∃ r, ((s.upd h f).flush h).yoke = { s.yoke with regs := r }) ∧ ((s.upd h f).flush h).pending = s.pending := by
  have n' : (s.upd h f).yoke.handover = none := by simpa using n
  refine ⟨?_, ?_, ⟨_, by simpa using State.flush_yoke _ h n'⟩, ?_⟩
  · rw [State.flush_half _ _ n', State.upd_half]
  · rw [State.flush_other _ _ n', State.upd_other]
  · rw [State.flush_pending_none _ _ n', State.upd_pending]

/-- A distributed input that reaches half h: its engines make of it what they make of it alone. -/
theorem State.onInput_half (s : State) (h : HalfId) (f : HalfId → View → Half → Half) (q : s.quiet h = true) :
    (s.onInput (fun h s => s.upd h (f h (s.view h)))).half h = (f h (s.view h) (s.half h)).sealed := by
  have n := State.quiet_handover q
  have r := State.quiet_runs q
  cases h with
  | a =>
    obtain ⟨h1, -, ⟨rg, h3⟩, -⟩ := State.turn_frame s .a (f .a (s.view .a)) n
    simp only [State.onInput, r, if_true]
    split
    · have n2 : ((s.upd .a (f .a (s.view .a))).flush .a).yoke.handover = none := by rw [h3]; exact n
      have := (State.turn_frame _ .b (f .b (((s.upd .a (f .a (s.view .a))).flush .a).view .b)) n2).2.1
      simp only [other] at this
      rw [this, h1]
    · exact h1
  | b =>
    simp only [State.onInput]
    have k : ∃ s1, s1 = (if s.runs .a = true then (s.upd .a (f .a (s.view .a))).flush .a else s) := ⟨_, rfl⟩
    obtain ⟨s1, hs1⟩ := k
    rw [← hs1]
    have k : s1.half .b = s.half .b ∧ ∃ rg, s1.yoke = { s.yoke with regs := rg } := by
      rw [hs1]
      split
      · obtain ⟨-, h2, h3, -⟩ := State.turn_frame s .a (f .a (s.view .a)) n
        exact ⟨h2, h3⟩
      · exact ⟨rfl, s.yoke.regs, rfl⟩
    obtain ⟨k1, rg, k2⟩ := k
    have r1 : s1.runs .b = true := by rw [State.runs_of_yoke s s1 .b rg k2]; exact r
    rw [if_pos r1, (State.turn_frame s1 .b _ (by rw [k2]; exact n)).1, State.view_of_yoke s s1 .b rg k2 k1, k1]

theorem State.input_half (s : State) (h : HalfId) (f : View → Half → Half) (q : s.quiet h = true) :
    (s.input f).half h = (f (s.view h) (s.half h)).sealed :=
  State.onInput_half s h (fun _ => f) q

theorem State.quietBus_quiet {s : State} {h : HalfId} (q : s.quietBus h = true) : s.quiet h = true := by
  simp only [State.quietBus, Bool.and_eq_true] at q; exact q.1

theorem State.quietBus_pfw {s : State} {h : HalfId} (q : s.quietBus h = true) : s.yoke.pwr.pfw = false := by
  simp only [State.quietBus, Bool.and_eq_true, Bool.not_eq_true'] at q; exact q.2

theorem State.busLocal_eq_local (s : State) (h : HalfId) (f : View → Half → Half) (q : s.quietBus h = true) :
    s.busLocal h f = s.local_ h f := by
  rw [State.busLocal, State.quietBus_pfw q]; rfl

theorem State.busInput_eq_input (s : State) (h : HalfId) (f : View → Half → Half) (q : s.quietBus h = true) :
    s.busInput f = s.input f := by
  rw [State.busInput, State.quietBus_pfw q]; rfl

theorem State.busLocal_half (s : State) (h : HalfId) (f : View → Half → Half) (q : s.quietBus h = true) :
    (s.busLocal h f).half h = (f (s.view h) (s.half h)).sealed := by
  rw [State.busLocal_eq_local s h f q, State.local_half s h f (State.quietBus_quiet q)]

theorem State.busInput_half (s : State) (h : HalfId) (f : View → Half → Half) (q : s.quietBus h = true) :
    (s.busInput f).half h = (f (s.view h) (s.half h)).sealed := by
  rw [State.busInput_eq_input s h f q, State.input_half s h f (State.quietBus_quiet q)]

end Sys2Proof.Machine
end

