-- ==== Sys2Proof/Laws/Access.lean ====
section
/-! SUPPORT. What a register write that passes checks 1 to 5 of Table 2.12 leaves (R54, R552), and one that the register's rule
refuses. -/
namespace Sys2Proof.Machine

@[simp] theorem Half.pgError_shf (m : Half) (p code : Nat) (st : Stamp) : (m.pgError p code st).shf = m.shf := by
  delta Half.pgError
  split
  · apply Half.wrN_shf
  · rfl
@[simp] theorem Half.accRecord_shf (m : Half) (r : Req) (a st : Nat) : (m.accRecord r a st).shf = m.shf := by
  cases r with
  | core c =>
    delta Half.accRecord
    apply Eq.trans
    · apply Half.wrN_shf
    · apply Half.wrN_shf
  | mgt => rfl
  | ipp _ => rfl
@[simp] theorem Half.refuseAt_shf (m : Half) (r : Req) (a w st code : Nat) : (m.refuseAt r a w st code).shf = m.shf := by
  unfold Half.refuseAt
  simp only [Half.answer_shf, Half.accRecord_shf, Half.pgError_shf]
  split <;> rfl
@[simp] theorem Half.settle_shf (m : Half) (r : Req) (k code : Nat) : (m.settle r k code).shf = m.shf := by
  unfold Half.settle; split
  · rfl
  · exact Half.refuseAt_shf _ _ _ _ _ _

/-- The half as an accepted write of requester r to the register at k leaves it: the staged words go, and the answer is OK. -/
theorem Half.settle_ok (m : Half) (r : Req) (k : Nat) :
    m.settle r k 0 = (m.dropStaged (reqNum r) (regShape k).1 (regShape k).2.1).answer r 0 0 := rfl

/-- A word that the checks pass on to its register's rule leaves the half as the access left it. -/
theorem Half.admitWord_eq (m : Half) (r : Req) (k : Nat) (v : Word) (a : (m.admitWord r k v).2 = true) :
    m.admitWord r k v = (m, true) := by
  unfold Half.admitWord at *
  revert a
  simp only
  split
  · split_ifs <;> simp
  · simp

theorem Half.admit_eq (m : Half) (r : Req) (k : Nat) (v : Word) (a : m.admits r k v = true) :
    m.admission r k v = (m.ageStaged (reqNum r), true) := by
  unfold Half.admits Half.admission at *
  split at a
  · cases a
  · rename_i c
    rw [if_neg c]
    exact Half.admitWord_eq _ r k v a

/-- A write that passes the checks leaves the half as its accesses left it, and the register's rule decides. -/
theorem Half.guard_admits (m : Half) (r : Req) (k : Nat) (v : Word) (eff : Half → Half × Nat) (a : m.admits r k v = true) :
    m.guard r k v eff = (eff (m.ageStaged (reqNum r))).1.settle r k (eff (m.ageStaged (reqNum r))).2 := by
  unfold Half.guard
  rw [Half.admit_eq m r k v a]

theorem State.admits_reaches {s : State} {h : HalfId} {r : Req} {k : Nat} {v : Word} (a : s.admits h r k v = true) :
    s.reaches h r = true := by simp only [State.admits, Bool.and_eq_true] at a; exact a.1

theorem State.admits_half {s : State} {h : HalfId} {r : Req} {k : Nat} {v : Word} (a : s.admits h r k v = true) :
    (s.half h).admits r k v = true := by simp only [State.admits, Bool.and_eq_true] at a; exact a.2

theorem State.reaches_quiet {s : State} {h : HalfId} {r : Req} (a : s.reaches h r = true) : s.quiet h = true := by
  simp only [State.reaches, Bool.and_eq_true] at a; exact a.1

/-- A request that reaches half h, whoever makes it: the half becomes what the request makes of it. -/
theorem State.onReq_half (s : State) (h : HalfId) (r : Req) (f : HalfId → View → Half → Half) (q : s.reaches h r = true) :
    (s.onReq h r (fun h s => s.upd h (f h (s.view h)))).half h = (f h (s.view h) (s.half h)).sealed := by
  have qq := State.reaches_quiet q
  have run := State.quiet_runs qq
  have st : s.yoke.pwr.state ≠ 3 := by
    simp only [State.runs, Bool.and_eq_true, decide_eq_true_eq] at run; exact run.1.1.2
  cases r with
  | ipp st => exact State.onInput_half s h f qq
  | mgt =>
    simp only [State.onReq, if_neg st]
    exact State.onHalf_upd_half s h (f h (s.view h)) qq
  | core c =>
    have st2 : s.yoke.pwr.state ≠ 2 := by
      simp only [State.reaches, Bool.and_eq_true, decide_eq_true_eq] at q; exact q.2
    simp only [State.onReq, if_neg st2]
    exact State.onHalf_upd_half s h (f h (s.view h)) qq

/-- A register command whose rule accepts the write (code 0): the half as the rule left it, aside from the accessor's staged words and
answer. -/
theorem State.regCmdV_half (s : State) (h : HalfId) (r : Req) (k : Nat) (v : Word) (eff : View → Half → Half × Nat)
    (a : s.admits h r k v = true) :
    (s.regCmdV h r k v eff).half h
      = ((eff (s.view h) ((s.half h).ageStaged (reqNum r))).1.settle r k
          (eff (s.view h) ((s.half h).ageStaged (reqNum r))).2).sealed := by
  have := State.onReq_half s h r (fun _ y m => m.guard r k v (eff y)) (State.admits_reaches a)
  rw [Half.guard_admits _ _ _ _ _ (State.admits_half a)] at this
  exact this

theorem State.regCmd_half (s : State) (h : HalfId) (r : Req) (k : Nat) (v : Word) (eff : Half → Half × Nat)
    (a : s.admits h r k v = true) :
    (s.regCmd h r k v eff).half h
      = ((eff ((s.half h).ageStaged (reqNum r))).1.settle r k (eff ((s.half h).ageStaged (reqNum r))).2).sealed :=
  State.regCmdV_half s h r k v (fun _ => eff) a

/-- A request of one requester that reaches half h runs there, and nowhere else. -/
theorem State.onReq_one (s : State) (h : HalfId) (r : Req) (f : HalfId → State → State) (o : ownReq r = true)
    (q : s.reaches h r = true) : s.onReq h r f = (f h s).flush h := by
  have qq := State.reaches_quiet q
  have run := State.quiet_runs qq
  have st : s.yoke.pwr.state ≠ 3 := by
    have := run
    simp only [State.runs, Bool.and_eq_true, decide_eq_true_eq] at this; exact this.1.1.2
  cases r with
  | ipp st => simp [ownReq] at o
  | mgt => simp only [State.onReq, if_neg st, State.onHalf, run, if_true]
  | core c =>
    have st2 : s.yoke.pwr.state ≠ 2 := by
      simp only [State.reaches, Bool.and_eq_true, decide_eq_true_eq] at q; exact q.2
    simp only [State.onReq, if_neg st2, State.onHalf, run, if_true]

/-- A register command whose effect reaches beyond the half, from one requester: the module as the rule leaves it, with the accessor's
answer. -/
theorem State.regCmdS_eq (s s2 : State) (h : HalfId) (r : Req) (k : Nat) (v : Word) (eff : HalfId → State → State × Nat) (code : Nat)
    (o : ownReq r = true) (a : s.admits h r k v = true) (e : eff h (s.upd h (·.ageStaged (reqNum r))) = (s2, code))
    (n : s2.yoke.handover = none) (y : (s2.half h).shf.toYoke = []) :
    s.regCmdS h r k v eff = s2.upd h (fun m => m.settle r k code) := by
  have e1 : s.guard h r k v (eff h) = s2.upd h (fun m => m.settle r k code) := by
    unfold State.guard
    rw [Half.admit_eq _ _ _ _ (State.admits_half a)]
    simp only
    rw [show s.set h ((s.half h).ageStaged (reqNum r)) = s.upd h (·.ageStaged (reqNum r)) from rfl, e]
  unfold State.regCmdS
  rw [State.onReq_one s h r _ o (State.admits_reaches a)]
  simp only [e1]
  refine State.flush_id _ h (by simpa using n) ?_
  rw [State.upd_half]
  rw [Half.settle_shf]; exact y

/-- The same, where words of a sheaf may go to the Yoke's pages: each half, and the Yoke aside from its pages. -/
theorem State.regCmdS_parts (s s2 : State) (h : HalfId) (r : Req) (k : Nat) (v : Word) (eff : HalfId → State → State × Nat)
    (code : Nat) (o : ownReq r = true) (a : s.admits h r k v = true)
    (e : eff h (s.upd h (·.ageStaged (reqNum r))) = (s2, code)) (n : s2.yoke.handover = none) :
    (s.regCmdS h r k v eff).half h = ((s2.half h).settle r k code).sealed ∧
      (s.regCmdS h r k v eff).half (other h) = s2.half (other h) ∧
      (∃ rg, (s.regCmdS h r k v eff).yoke = { s2.yoke with regs := rg }) ∧ (s.regCmdS h r k v eff).pending = s2.pending := by
  have e1 : s.guard h r k v (eff h) = s2.upd h (fun m => m.settle r k code) := by
    unfold State.guard
    rw [Half.admit_eq _ _ _ _ (State.admits_half a)]
    simp only
    rw [show s.set h ((s.half h).ageStaged (reqNum r)) = s.upd h (·.ageStaged (reqNum r)) from rfl, e]
  unfold State.regCmdS
  rw [State.onReq_one s h r _ o (State.admits_reaches a)]
  simp only [e1]
  exact State.turn_frame s2 h _ n

theorem State.yokeCmd_one (s : State) (h : HalfId) (r : Req) (k : Nat) (v : Word) (eff : HalfId → State → State × Nat)
    (o : ownReq r = true) : s.yokeCmd h r k v eff = s.regCmdS h r k v eff := by
  cases r <;> first | rfl | simp [ownReq] at o

/-- The half as an accepted write of requester r to the register at k leaves it, once its rule has made it m. -/
def Half.done (m : Half) (r : Req) (k : Nat) : Half := (m.settle r k 0).sealed

@[simp] theorem Half.done_rd (m : Half) (r : Req) (k j : Nat) : (m.done r k).rd j = m.rd j := rfl

@[simp] theorem Half.done_answered (m : Half) (r : Req) (k : Nat) : (m.done r k).answered r = ⟨0, 0⟩ := by
  unfold Half.done
  rw [Half.settle_ok]
  simp [Half.answered, Half.answer]

/-- A register command that its rule accepts. -/
theorem State.regCmdV_done (s : State) (h : HalfId) (r : Req) (k : Nat) (v : Word) (eff : View → Half → Half × Nat) (m : Half)
    (a : s.admits h r k v = true) (e : eff (s.view h) ((s.half h).ageStaged (reqNum r)) = (m, 0)) :
    (s.regCmdV h r k v eff).half h = m.done r k := by
  rw [State.regCmdV_half _ _ _ _ _ _ a, e]; rfl

theorem State.regCmd_done (s : State) (h : HalfId) (r : Req) (k : Nat) (v : Word) (eff : Half → Half × Nat) (m : Half)
    (a : s.admits h r k v = true) (e : eff ((s.half h).ageStaged (reqNum r)) = (m, 0)) :
    (s.regCmd h r k v eff).half h = m.done r k := by
  rw [State.regCmd_half _ _ _ _ _ _ a, e]; rfl

/-- A write to a register of one word that has no rule of its own. -/
theorem Half.plainWrite_one (m : Half) (n k : Nat) (v : Word) (row : RegRow) (j : Nat × Nat) (hr : regRow k = some (row, j))
    (hp : row.perAcc = false) (hw : row.words = 1) :
    m.plainWrite n k v = if row.gen ∧ plainValue row (m.rd k) v ≠ m.rd k then (m.wr k (plainValue row (m.rd k) v)).gen (k / 4096)
      else m.wr k (plainValue row (m.rd k) v) := by
  obtain ⟨j1, j2⟩ := j
  unfold Half.plainWrite
  rw [hr]
  simp [hp, hw]

theorem Half.plainWrite_rd (m : Half) (n k : Nat) (v : Word) (row : RegRow) (j : Nat × Nat) (hr : regRow k = some (row, j))
    (hp : row.perAcc = false) (hw : row.words = 1) (hg : k ≠ pgGen (k / 4096)) :
    (m.plainWrite n k v).rd k = plainValue row (m.rd k) v := by
  rw [Half.plainWrite_one _ _ _ _ _ _ hr hp hw]
  split
  · rw [Half.gen, Half.wrN, Half.rd_wr_other _ _ (Ne.symm hg), Half.rd_wr_same]
  · rw [Half.rd_wr_same]

end Sys2Proof.Machine
end

