-- ==== Sys2Proof/Laws/Drill.lean ====
section
/-! SUPPORT. What one Drill instruction does to the module when its engine stands at it (R189 to R195). -/
namespace Sys2Proof.Machine

@[simp] theorem Half.task_updTask (m : Half) (t : Nat) (f : Task → Task) : (m.updTask t f).task t = f (m.task t) := by
  simp [Half.task, Half.updTask]
theorem Half.task_updTask_other (m : Half) {t i : Nat} (f : Task → Task) (h : i ≠ t) : (m.updTask t f).task i = m.task i := by
  simp only [Half.task, Half.updTask]; exact sget_sset_other _ _ _ _ (Ne.symm h)
@[simp] theorem Half.task_fetched (m : Half) (t : Nat) : (m.fetched t).task t = m.past t := by simp [Half.fetched]
@[simp] theorem Half.updTask_shf (m : Half) (t : Nat) (f : Task → Task) : (m.updTask t f).shf = m.shf := rfl
@[simp] theorem Half.updTask_jobs (m : Half) (t : Nat) (f : Task → Task) : (m.updTask t f).drl.jobs = m.drl.jobs := rfl
@[simp] theorem Half.updTask_active (m : Half) (t : Nat) (f : Task → Task) : (m.updTask t f).drl.active = m.drl.active := rfl
@[simp] theorem Half.updTask_ptab (m : Half) (t : Nat) (f : Task → Task) : (m.updTask t f).ptab = m.ptab := rfl
@[simp] theorem Half.updTask_sans (m : Half) (t : Nat) (f : Task → Task) : (m.updTask t f).sansTasks = m.sansTasks := rfl
@[simp] theorem Half.fetched_shf (m : Half) (t : Nat) : (m.fetched t).shf = m.shf := rfl
@[simp] theorem Half.fetched_jobs (m : Half) (t : Nat) : (m.fetched t).drl.jobs = m.drl.jobs := rfl
@[simp] theorem Half.fetched_sans (m : Half) (t : Nat) : (m.fetched t).sansTasks = m.sansTasks := rfl
@[simp] theorem Half.fetched_code (m : Half) (t a : Nat) : (m.fetched t).code a = m.code a := rfl
@[simp] theorem Half.fetched_taskCfg (m : Half) (t a : Nat) : (m.fetched t).taskCfg a = m.taskCfg a := rfl
@[simp] theorem Half.fetched_timer (m : Half) (t a : Nat) : (m.fetched t).timer a = m.timer a := rfl
@[simp] theorem Half.fetched_counter (m : Half) (t a : Nat) : (m.fetched t).counter a = m.counter a := rfl
@[simp] theorem Half.fetched_marker (m : Half) (t a : Nat) : (m.fetched t).marker a = m.marker a := rfl

@[simp] theorem Half.past_ins (m : Half) (t : Nat) : (m.past t).ins = (m.task t).ins := rfl
@[simp] theorem Half.past_outs (m : Half) (t : Nat) : (m.past t).outs = (m.task t).outs := rfl
@[simp] theorem Half.past_locals (m : Half) (t : Nat) : (m.past t).locals = (m.task t).locals := rfl
@[simp] theorem Half.past_lb (m : Half) (t : Nat) : (m.past t).lb = (m.task t).lb := rfl
@[simp] theorem Half.past_acc (m : Half) (t : Nat) : (m.past t).acc = (m.task t).acc := rfl
@[simp] theorem Half.past_stack (m : Half) (t : Nat) : (m.past t).stack = (m.task t).stack := rfl
@[simp] theorem Half.past_v (m : Half) (t : Nat) : (m.past t).v = (m.task t).v := rfl
@[simp] theorem Half.fetched_iIn (m : Half) (t d u : Nat) : (m.fetched t).iIn t d u = m.iIn t d u := by simp [Half.iIn]
@[simp] theorem Half.fetched_iOut (m : Half) (t d u : Nat) : (m.fetched t).iOut t d u = m.iOut t d u := rfl
@[simp] theorem Half.fetched_iOutBit (m : Half) (t d : Nat) : (m.fetched t).iOutBit t d = m.iOutBit t d := by
  simp only [Half.iOutBit, Half.fetched_iOut, Half.fetched_taskCfg]; rfl

/-- The operands an instruction reads are those of the task as it stood. -/
@[simp] theorem Half.fetched_iBit (m : Half) (t : Nat) (w : Word) : (m.fetched t).iBit t w = m.iBit t w := by
  simp only [Half.iBit, Half.fetched_iIn, Half.fetched_iOutBit, Half.task_fetched, Half.past_outs, Half.past_locals,
    Half.fetched_marker, Half.fetched_timer, Half.fetched_counter]
  rfl
@[simp] theorem Half.fetched_iWord (m : Half) (t pc : Nat) (w : Word) : (m.fetched t).iWord t pc w = m.iWord t pc w := by
  simp only [Half.iWord, Half.fetched_iIn, Half.fetched_iOut, Half.task_fetched, Half.past_outs, Half.past_locals,
    Half.fetched_timer, Half.fetched_counter]
  rfl
@[simp] theorem Half.fetched_iLoad (m : Half) (t pc : Nat) (w : Word) : (m.fetched t).iLoad t pc w = m.iLoad t pc w := by
  simp only [Half.iLoad, Half.fetched_iWord]
  rfl
@[simp] theorem Half.fetched_iTarget (m : Half) (t pc a : Nat) (b : Bool) : (m.fetched t).iTarget pc a b = m.iTarget pc a b := rfl

@[simp] theorem Half.setAcc_jobs (m : Half) (t : Nat) (v : Dword) (f : Bool) : (m.setAcc t v f).drl.jobs = m.drl.jobs := rfl
@[simp] theorem Half.setAcc_shf (m : Half) (t : Nat) (v : Dword) (f : Bool) : (m.setAcc t v f).shf = m.shf := rfl
@[simp] theorem Half.setLb_jobs (m : Half) (t : Nat) (b : Bool) : (m.setLb t b).drl.jobs = m.drl.jobs := rfl
@[simp] theorem Half.setLb_shf (m : Half) (t : Nat) (b : Bool) : (m.setLb t b).shf = m.shf := rfl
@[simp] theorem Half.setV_jobs (m : Half) (t : Nat) (b : Bool) : (m.setV t b).drl.jobs = m.drl.jobs := rfl
@[simp] theorem Half.setV_shf (m : Half) (t : Nat) (b : Bool) : (m.setV t b).shf = m.shf := rfl
@[simp] theorem Half.setLoc_jobs (m : Half) (t i : Nat) (v : Dword) : (m.setLoc t i v).drl.jobs = m.drl.jobs := rfl
@[simp] theorem Half.setLoc_shf (m : Half) (t i : Nat) (v : Dword) : (m.setLoc t i v).shf = m.shf := rfl
@[simp] theorem Half.setOutImg_jobs (m : Half) (t i : Nat) (v : Dword) : (m.setOutImg t i v).drl.jobs = m.drl.jobs := rfl
@[simp] theorem Half.setOutImg_shf (m : Half) (t i : Nat) (v : Dword) : (m.setOutImg t i v).shf = m.shf := rfl
@[simp] theorem Half.setTimer_jobs (m : Half) (a : Nat) (x : Timer) : (m.setTimer a x).drl.jobs = m.drl.jobs := rfl
@[simp] theorem Half.setTimer_shf (m : Half) (a : Nat) (x : Timer) : (m.setTimer a x).shf = m.shf := rfl
@[simp] theorem Half.setCounter_jobs (m : Half) (a : Nat) (x : Counter) : (m.setCounter a x).drl.jobs = m.drl.jobs := rfl
@[simp] theorem Half.setCounter_shf (m : Half) (a : Nat) (x : Counter) : (m.setCounter a x).shf = m.shf := rfl
@[simp] theorem Half.setInt_jobs (m : Half) (t : Nat) (r : Int) : (m.setInt t r).drl.jobs = m.drl.jobs := by simp [Half.setInt]
@[simp] theorem Half.setInt_shf (m : Half) (t : Nat) (r : Int) : (m.setInt t r).shf = m.shf := by simp [Half.setInt]
@[simp] theorem Half.setF_jobs (m : Half) (t : Nat) (r : Fv) : (m.setF t r).drl.jobs = m.drl.jobs := by cases r <;> simp [Half.setF]
@[simp] theorem Half.setF_shf (m : Half) (t : Nat) (r : Fv) : (m.setF t r).shf = m.shf := by cases r <;> simp [Half.setF]
@[simp] theorem Half.setMarker_jobs (m : Half) (a : Nat) (b : Bool) : (m.setMarker a b).drl.jobs = m.drl.jobs := by
  unfold Half.setMarker; split <;> rfl
@[simp] theorem Half.setMarker_shf (m : Half) (a : Nat) (b : Bool) : (m.setMarker a b).shf = m.shf := by
  unfold Half.setMarker; split <;> rfl
@[simp] theorem Half.setMarkers_jobs (m : Half) (a v n : Nat) : (m.setMarkers a v n).drl.jobs = m.drl.jobs := by
  induction n with
  | zero => rfl
  | succ n ih => simpa [Half.setMarkers] using ih
@[simp] theorem Half.setMarkers_shf (m : Half) (a v n : Nat) : (m.setMarkers a v n).shf = m.shf := by
  induction n with
  | zero => rfl
  | succ n ih => simpa [Half.setMarkers] using ih

theorem iRow_of_valid {w : Word} (v : iValid w = true) : (iRow (iOp w)).isNone = false := by
  unfold iValid at v
  split at v
  · simp at v
  · rename_i e; rw [e]; rfl

/-- The engine's instruction, where it raises no execution fault. -/
theorem Half.drlStep_ok (m m2 : Half) (e op t : Nat) (f : Half → Nat → Nat → Word → IRes) (k : m.fetches e op t = true)
    (r : f (m.fetched t) t (m.task t).pc (m.instr t) = .ok m2) : m.drlStep e op f = m2 := by
  simp only [Half.fetches, Bool.and_eq_true, decide_eq_true_eq] at k
  obtain ⟨⟨⟨k1, k2⟩, k3⟩, k4⟩ := k
  have k5 : ¬ m.drl.active.codeLen ≤ (m.task t).pc := by omega
  have k7 : (iRow op).isNone = false := by rw [← k2]; exact iRow_of_valid k3
  have k6 : ¬ m.drl.active.codeLen < (m.task t).pc + 1 + iExt (m.code (m.task t).pc) := by omega
  simp only [Half.drlStep, k1, k5, if_false, k2, k7, ne_eq, not_true_eq_false, k3, Bool.not_true, k6, decide_false,
    Bool.or_false, Bool.false_eq_true]
  change (match f (m.fetched t) t (m.task t).pc (m.instr t) with | .ok m2 => m2 | .error c => _) = m2
  rw [r]

/-- The whole command: the module with that half replaced, where the instruction puts no sheaf before the engine. -/
theorem State.drl_ok (s : State) (h : HalfId) (e : Fin 8) (op t : Nat) (f : Half → Nat → Nat → Word → IRes) (m2 : Half)
    (q : s.quiet h = true) (k : (s.half h).fetches e.val op t = true)
    (r : f ((s.half h).fetched t) t ((s.half h).task t).pc ((s.half h).instr t) = .ok m2)
    (j : m2.drl.jobs = (s.half h).drl.jobs) (y : m2.shf = (s.half h).shf) : s.drl h e op f = s.set h m2 := by
  have a : (if ((s.half h).drlStep e.val op f).drl.jobs = (s.half h).drl.jobs then (s.half h).drlStep e.val op f
      else ((s.half h).drlStep e.val op f).pump (s.view h)) = m2 := by
    rw [Half.drlStep_ok _ m2 _ _ _ _ k r, if_pos j]
  rw [State.drl, State.local_eq _ _ _ q (by simp only [a, y]; exact State.quiet_toYoke q)]
  simp only [a]

/-- The same, for a property of the module after the command. -/
theorem State.drl_runs {s : State} {h : HalfId} {e : Fin 8} {op t : Nat} {f : Half → Nat → Nat → Word → IRes} {m2 : Half}
    {P : State → Prop} (q : s.quiet h = true) (k : (s.half h).fetches e.val op t = true) (p : P (s.set h m2))
    (r : f ((s.half h).fetched t) t ((s.half h).task t).pc ((s.half h).instr t) = .ok m2)
    (j : m2.drl.jobs = (s.half h).drl.jobs) (y : m2.shf = (s.half h).shf) :
    ∃ u, (Host.Outcome.next (s.drl h e op f) : Host.Outcome State Fault Refusal) = .next u ∧ P u :=
  ⟨_, congrArg _ (State.drl_ok s h e op t f m2 q k r j y), p⟩

theorem TaskOnly.fetched (s : State) (h : HalfId) (t : Nat) :
    TaskOnly s (s.set h ((s.half h).fetched t)) h t ((s.half h).past t) := by
  refine ⟨by simp, by simp, fun i hi => ?_, by simp⟩
  rw [State.set_half]; exact Half.task_updTask_other _ _ hi

theorem TaskOnly.updTask {s : State} {h : HalfId} {t : Nat} {x : Task} {m : Half} (k : TaskOnly s (s.set h m) h t x)
    (f : Task → Task) : TaskOnly s (s.set h (m.updTask t f)) h t (f x) := by
  obtain ⟨-, k2, k3, k4⟩ := k
  simp only [State.set_half] at k2 k3 k4
  refine ⟨by simp, by simp [k2], fun i hi => ?_, by simpa using k4⟩
  rw [State.set_half, Half.task_updTask_other _ _ hi, k3 i hi]

/-- R192: ACC, Z and N take an integer result. -/
theorem TaskOnly.setAcc {s : State} {h : HalfId} {t : Nat} {x : Task} {m : Half} (k : TaskOnly s (s.set h m) h t x) (r : Dword) :
    TaskOnly s (s.set h (m.setAcc t r false)) h t { x with acc := r, z := decide (r = 0), n := r.getLsbD 63 } := by
  have := k.updTask (fun x => { x with acc := r, z := decide (r = 0) || (false && decide (r.toNat = 2 ^ 63)), n := r.getLsbD 63 })
  simpa only [Half.setAcc, Bool.false_and, Bool.or_false] using this

theorem TaskOnly.setLb {s : State} {h : HalfId} {t : Nat} {x : Task} {m : Half} (k : TaskOnly s (s.set h m) h t x) (b : Bool) :
    TaskOnly s (s.set h (m.setLb t b)) h t { x with lb := b } := k.updTask (fun x => { x with lb := b })

theorem TaskOnly.setV {s : State} {h : HalfId} {t : Nat} {x : Task} {m : Half} (k : TaskOnly s (s.set h m) h t x) (b : Bool) :
    TaskOnly s (s.set h (m.setV t b)) h t { x with v := x.v || b } := k.updTask (fun x => { x with v := x.v || b })

theorem clampInt_eq (r : Int) : clampInt (-(2 ^ 63)) (2 ^ 63 - 1) r
    = (max (-2 ^ 63) (min (2 ^ 63 - 1) r), decide (r < -2 ^ 63) || decide (2 ^ 63 - 1 < r)) := by
  unfold clampInt
  split
  · simp; omega
  · split <;> simp <;> omega

/-- R197: ACC takes a saturated integer result, and V shows that it was. -/
theorem TaskOnly.setInt {s : State} {h : HalfId} {t : Nat} {x : Task} {m : Half} (k : TaskOnly s (s.set h m) h t x) (r : Int) :
    TaskOnly s (s.set h (m.setInt t r)) h t
      (let c : Dword := BitVec.ofInt 64 (max (-2 ^ 63) (min (2 ^ 63 - 1) r))
       { x with acc := c, z := decide (c = 0), n := c.getLsbD 63, v := x.v || (decide (r < -2 ^ 63) || decide (2 ^ 63 - 1 < r)) }) := by
  have e : m.setInt t r = (m.setAcc t (BitVec.ofInt 64 (max (-2 ^ 63) (min (2 ^ 63 - 1) r))) false).setV t
      (decide (r < -2 ^ 63) || decide (2 ^ 63 - 1 < r)) := by
    simp only [Half.setInt, clampInt_eq]
  rw [e]
  exact (k.setAcc _).setV _

/-- R192: ACC, Z and N take a binary64 result: a zero of either sign sets Z. -/
theorem TaskOnly.setAccF {s : State} {h : HalfId} {t : Nat} {x : Task} {m : Half} (k : TaskOnly s (s.set h m) h t x) (r : Dword) :
    TaskOnly s (s.set h (m.setAcc t r true)) h t
      { x with acc := r, z := decide (r = 0) || decide (r.toNat = 2 ^ 63), n := r.getLsbD 63 } := by
  have := k.updTask (fun x => { x with acc := r, z := decide (r = 0) || (true && decide (r.toNat = 2 ^ 63)), n := r.getLsbD 63 })
  simpa only [Half.setAcc, Bool.true_and] using this

/-- R197: a binary64 result. -/
theorem Half.setF_eq (m : Half) (t : Nat) (r : Fv) : m.setF t r =
    if r = .nan then (m.setAcc t 0 true).setV t true
    else if f64.infBits ≤ fenc f64 r % 2 ^ 63 then
      (m.setAcc t (BitVec.ofNat 64 (f64.signed ((fenc f64 r).testBit 63) f64.maxBits)) true).setV t true
    else (m.setAcc t (BitVec.ofNat 64 (fenc f64 r)) true).setV t false := by
  unfold Half.setF
  cases r with
  | nan => rfl
  | inf n => by_cases hi : f64.infBits ≤ fenc f64 (.inf n) % 2 ^ 63 <;> simp only [reduceCtorEq, hi, decide_true, decide_false,
      Bool.false_eq_true, if_true, if_false]
  | fin n a b => by_cases hi : f64.infBits ≤ fenc f64 (.fin n a b) % 2 ^ 63 <;> simp only [reduceCtorEq, hi, decide_true,
      decide_false, Bool.false_eq_true, if_true, if_false]

@[simp] theorem Half.fetched_periodActs (m : Half) (t : Nat) : (m.fetched t).periodActs t = m.periodActs t := by
  simp only [Half.periodActs, Half.outsForced, Half.fetched_taskCfg, Half.task_fetched]
  rfl

theorem Half.iTarget_ok (m : Half) (pc a : Nat) (back : Bool) (l : a < m.drl.active.codeLen) (x : a ∉ m.drl.active.ext)
    (d : if back then a ≤ pc else pc < a) : m.iTarget pc a back = .ok () := by
  have : ¬ (m.drl.active.codeLen ≤ a ∨ (if back = true then pc < a else a ≤ pc)) := by
    cases back <;> simp at d ⊢ <;> omega
  simp only [Half.iTarget, if_neg this, if_neg x]

theorem TaskOnly.self (s : State) (h : HalfId) (t : Nat) : TaskOnly s (s.set h (s.half h)) h t ((s.half h).task t) :=
  ⟨by simp, by simp, fun i _ => by simp, by simp⟩

end Sys2Proof.Machine
end

