-- ==== Sys2Proof/Laws/Memory.lean ====
section
/-! SUPPORT. Addressed memory: a byte that is written reads back, every other byte stays, and every operation keeps the canonical form. -/
namespace Sys2Proof.Machine

theorem memPut_wf (mem : Sparse Byte) (a : Nat) (bs : List Byte) (h : Memory.wf mem = true) : Memory.wf (memPut mem a bs) = true := by
  induction bs generalizing mem a with
  | nil => exact h
  | cons b bs ih => exact ih _ _ (swf_sset (fun _ => (0 : Byte)) mem a b h)

/-- A store to LPDDR or to a buffer keeps the form of the half's memories. -/
theorem Half.poke_wf (m : Half) (a : Nat) (bs : List Byte) (h : m.memWf = true) : (m.poke a bs).memWf = true := by
  simp only [Half.memWf, Bool.and_eq_true] at h ⊢
  exact ⟨memPut_wf _ _ _ h.1, h.2⟩

/-- A write to the granary's volatile array keeps the form of the half's memories. -/
theorem Half.gPut_wf (m : Half) (off : Nat) (bs : List Byte) (h : m.memWf = true) : (m.gPut off bs).memWf = true := by
  simp only [Half.memWf, Bool.and_eq_true] at h ⊢
  exact ⟨h.1, memPut_wf _ _ _ h.2⟩

/-- A commit of several granary pages (R435) keeps the form. -/
theorem Half.gPutPages_wf (m : Half) (l : List (Nat × List Byte)) (h : m.memWf = true) : (m.gPutPages l).memWf = true := by
  induction l generalizing m with
  | nil => exact h
  | cons e l ih => exact ih _ (Half.gPut_wf m _ _ h)

theorem sget_memPut_outside (mem : Sparse Byte) (a i : Nat) (bs : List Byte) (h : i < a ∨ a + bs.length ≤ i) :
    sget 0 (memPut mem a bs) i = sget 0 mem i := by
  induction bs generalizing mem a with
  | nil => rfl
  | cons b bs ih =>
    simp only [List.length_cons] at h
    simp only [memPut]
    rw [ih _ _ (by omega), memSet, sget_sset_other _ _ _ _ (by omega)]

theorem sget_memPut_inside (mem : Sparse Byte) (a i : Nat) (bs : List Byte) (h : i < bs.length) :
    sget 0 (memPut mem a bs) (a + i) = bs.getD i 0 := by
  induction bs generalizing mem a i with
  | nil => simp at h
  | cons b bs ih =>
    simp only [memPut]
    cases i with
    | zero => rw [sget_memPut_outside _ _ _ _ (by omega)]; simp [memSet]
    | succ i =>
      have := ih (memSet mem a b) (a + 1) i (by simpa using h)
      rw [show a + (i + 1) = a + 1 + i by omega, this]
      simp

/-- A byte outside the bytes stored reads as before. -/
theorem Half.peek_poke_outside (m : Half) (a i : Nat) (bs : List Byte) (h : i < a ∨ a + bs.length ≤ i) :
    (m.poke a bs).peek i = m.peek i := sget_memPut_outside _ _ _ _ h

/-- A byte that is stored reads as stored. -/
theorem Half.peek_poke_inside (m : Half) (a i : Nat) (bs : List Byte) (h : i < bs.length) :
    (m.poke a bs).peek (a + i) = bs.getD i 0 := sget_memPut_inside _ _ _ _ h

theorem leBytes_length (n x : Nat) : (leBytes n x).length = n := by
  induction n generalizing x with
  | zero => rfl
  | succ n ih => simp [leBytes, ih]

theorem leBytes_getD (n x i : Nat) (h : i < n) : (leBytes n x).getD i 0 = BitVec.ofNat 8 (x / 256 ^ i) := by
  induction n generalizing x i with
  | zero => omega
  | succ n ih =>
    cases i with
    | zero => simp [leBytes]
    | succ i =>
      simp only [leBytes, List.getD_cons_succ]
      rw [ih _ _ (by omega), Nat.div_div_eq_div_mul, pow_succ, Nat.mul_comm]

@[simp] theorem Half.peek_wr (m : Half) (k : Nat) (v : Word) (a : Nat) : (m.wr k v).peek a = m.peek a := rfl
@[simp] theorem Half.peek_updAcc (m : Half) (n : Nat) (f : Acc → Acc) (a : Nat) : (m.updAcc n f).peek a = m.peek a := rfl
@[simp] theorem Half.peek_answer (m : Half) (r : Req) (st : Nat) (v : Dword) (a : Nat) : (m.answer r st v).peek a = m.peek a := rfl
@[simp] theorem Half.peek_sealed (m : Half) (a : Nat) : m.sealed.peek a = m.peek a := rfl

end Sys2Proof.Machine
end

