-- ==== Sys2Proof/WellFormed.lean ====
section
/-! DEFINITION. When a command is one the outside can send: every number it carries fits the field that carries it. Operands whose type
already bounds them need no check. -/
namespace Sys2Proof

/-- A number of n bits. -/
def fits (n x : Nat) : Bool := decide (x < 2 ^ n)

/-- An IPP datagram's header fields (Table 3.5) and the UDP port of its client. -/
def IppReq.wf (q : IppReq) : Bool :=
  fits 6 q.port && fits 16 q.udp && fits 16 q.magic && fits 8 q.version && fits 8 q.op && fits 16 q.flags && fits 16 q.session
    && fits 16 q.length

/-- A Merzin frame's header fields (Table 15.3), and its payload of at most 1,024 bytes. -/
def MzFrame.wf (f : MzFrame) : Bool :=
  fits 16 f.dest && fits 16 f.src && fits 8 f.stream && fits 16 f.budget && fits 8 f.kind && fits 8 f.flags
    && decide (f.payload.length ≤ 1024)

/-- A Merzin frame as a port receives it: the 23 bits of its link counter. -/
def MzRx.wf (r : MzRx) : Bool := r.frame.wf && fits 23 r.counter

/-- A CAN frame's identifier, DLC and data (ISO 11898-1). -/
def CanFrame.wf (f : CanFrame) : Bool :=
  fits (if f.ext then 29 else 11) f.id && fits 4 f.dlc && decide (f.data.length ≤ (if f.fd then 64 else 8)) && !(f.fd && f.rtr)

/-- An MS/TP frame's fields (clause 9). -/
def MstpFrame.wf (f : MstpFrame) : Bool := fits 8 f.type && fits 8 f.dest && fits 8 f.src && decide (f.data.length ≤ 1497)

/-- An OSDP reply's fields. -/
def OsdpReply.wf (f : OsdpReply) : Bool := fits 7 f.addr && fits 8 f.code && fits 2 f.seq

/-- A DALI forward frame of 16 or 24 bits. -/
def DaliForward.wf (f : DaliForward) : Bool := fits (if f.long then 24 else 16) f.frame

/-- A PTP message's fields (IEEE 1588-2019), and its port (R425). -/
def PtpMsg.wf (x : PtpMsg) : Bool :=
  decide (1 ≤ x.port) && decide (x.port ≤ 3) && fits 4 x.type && fits 8 x.domain && fits 64 x.src && fits 16 x.srcPort && fits 16 x.seq
    && fits 64 x.reqId && fits 16 x.reqPort && fits 64 x.gm && fits 8 x.prio1 && fits 8 x.clkClass && fits 8 x.accuracy
    && fits 16 x.variance && fits 8 x.prio2 && fits 16 x.steps && decide (-32768 ≤ x.utcOff) && decide (x.utcOff ≤ 32767)

/-- An MGT write transaction's LEN (R471). -/
def MgtReq.wf (x : MgtReq) : Bool := fits 8 x.len && decide (x.payload.length ≤ 255)

/-- An access's size in bytes, and its address. -/
def accessWf (addr size : Nat) : Bool := (decide (size = 1) || decide (size = 2) || decide (size = 4) || decide (size = 8)) && fits 64 addr

/-- A command is well-formed. -/
def Instr.wf : Instr → Bool
  | .registerWrite _ _ a n _ => accessWf a n
  | .rsSnapshotRead _ _ a n => accessWf a n
  | .stagingWrite _ _ a _ => fits 64 a
  | .stagedWordDiscard _ _ a => fits 64 a
  | .wakeOnAccess _ x => accessWf x.addr x.size
  | .wakeAccessReady _ p => fits 12 p
  | .wakeTimeout _ p => fits 12 p
  | .softReset _ _ p _ => fits 12 p
  | .errClr _ _ p _ => fits 12 p
  | .irqClear _ _ p _ => fits 12 p
  | .snapTake _ _ p => fits 12 p
  | .snapRelease _ _ p => fits 12 p
  | .readPoint q => q.wf
  | .writePoint q => q.wf
  | .subscribe q => q.wf
  | .unsubscribe q => q.wf
  | .readPage q => q.wf
  | .writePage q => q.wf
  | .ippSheaf q => q.wf
  | .readEvents q => q.wf
  | .ippFreeze q => q.wf
  | .ippActivate q => q.wf
  | .repeatIntervalEnd _ b => fits 14 b
  | .notifyIntervalEnd _ e => fits 14 e
  | .sourceStale _ b => fits 15 b
  | .msgDeferred _ _ k => fits 6 k
  | .mzPrepareReceive f => f.wf
  | .mzVoteReceive f => f.wf
  | .mzCommitReceive f => f.wf
  | .mzAbortReceive f => f.wf
  | .mzAckReceive f => f.wf
  | .mzOutcomeReceive f => f.wf
  | .mzWakeReceive f => f.wf
  | .mzPublishReceive f => f.wf
  | .mzPointWriteReceive f => f.wf
  | .mzIppReqReceive f => f.wf
  | .mzIppRspReceive f => f.wf
  | .mzAppReceive f => f.wf
  | .mzHeartbeatReceive f => f.wf
  | .fosterPackReceive f => f.wf
  | .fosterAckReceive f => f.wf
  | .query f => f.wf
  | .fosterStatus f => f.wf
  | .pull f => f.wf
  | .fosterRelease f => f.wf
  | .released f => f.wf
  | .claimed f => f.wf
  | .fosterDormant f => f.wf
  | .canFrameStored _ f => f.wf
  | .canFrameSent _ o => decide (o < 3072)
  | .canTxError _ o _ => decide (o < 3072)
  | .mstpFrameReceived _ f => f.wf
  | .osdpReply _ f => f.wf
  | .daliPoll _ _ b => fits 15 b
  | .daliForwardReceived _ f => f.wf
  | .mzHeaderReceived _ r => r.wf
  | .mzFrameTail _ r => r.wf
  | .mzLinkReceive _ f => f.wf
  | .ptpSyncReceive x => x.wf
  | .ptpAnnounceReceive x => x.wf
  | .ptpDelayReqReceive x => x.wf
  | .ptpDelayRespReceive x => x.wf
  | .ptpMessageSend _ p k => decide (1 ≤ p) && decide (p ≤ 3) && decide (k ≤ 2)
  | .announceReceiptTimeout p _ => decide (1 ≤ p) && decide (p ≤ 3)
  | .wake n _ => decide (1 ≤ n) && decide (n ≤ 7)
  | .mgtAddressMatch a => fits 7 a
  | .getStatus x => x.wf
  | .mgtRead x => x.wf
  | .mgtWrite x => x.wf
  | .setState x => x.wf
  | .mgtWake x => x.wf
  | .pagePowerAnswer _ p _ => fits 12 p
  | .powerDelayExpiry _ p => fits 12 p
  | .powerAnswerTimeout _ p => fits 12 p
  | .paceWindowEnd .. | .restart .. | .clrAccStat .. | .clrOffline .. | .moduleAddrWrite .. | .sessionIdleTimeout .. | .remoteTimeout ..
  | .tenBindWrite .. | .sessClose .. | .flushTenant .. | .fenceClr .. | .portsClr .. | .ptabWriteSubmit .. | .pointWriteApply ..
  | .covEnWrite .. | .configure .. | .deconfigure .. | .relinquishAll .. | .ptabCfgWrite .. | .ptabCovWrite .. | .bindingCommit ..
  | .ptabClr .. | .shfOpen .. | .sheafAdd .. | .shfCommit .. | .shfAbort .. | .sheafOpenTimeout .. | .journalWaitTimeout ..
  | .sheafDeadline .. | .commitRepeat .. | .coordinatorOrphan .. | .outcomeQuery .. | .participantOrphaned .. | .taskRelease ..
  | .safeStateRetry .. | .resume .. | .stop .. | .start .. | .clrStats .. | .drillRunWrite .. | .drlClr .. | .programSwap ..
  | .shadowVerified .. | .swapDrainEnd .. | .swapDrainTimeout .. | .forceSet .. | .forceRelease .. | .forcePersist .. | .drlNop ..
  | .drlLdb .. | .drlAndb .. | .drlOrb .. | .drlXorb .. | .drlBpush .. | .drlBpopa .. | .drlBpopo .. | .drlBpopx .. | .drlNotb ..
  | .drlSetb .. | .drlClrb .. | .drlStb .. | .drlSetif .. | .drlClrif .. | .drlRise .. | .drlFall .. | .drlLdw .. | .drlStw ..
  | .drlAdd .. | .drlSub .. | .drlMul .. | .drlDiv .. | .drlRem .. | .drlFadd .. | .drlFsub .. | .drlFmul .. | .drlFdiv .. | .drlWand ..
  | .drlWor .. | .drlWxor .. | .drlShl .. | .drlShr .. | .drlAsr .. | .drlCmp .. | .drlFcmp .. | .drlItf .. | .drlFti .. | .drlNeg ..
  | .drlAbs .. | .drlTon .. | .drlTof .. | .drlTp .. | .drlTonr .. | .drlTrst .. | .drlCtu .. | .drlCtd .. | .drlCrst .. | .drlCld ..
  | .drlCpv .. | .drlSpw .. | .drlSdrv .. | .drlSpulse .. | .drlSprof .. | .drlSevt .. | .drlJmp .. | .drlJt .. | .drlJf .. | .drlCall ..
  | .drlRet .. | .drlLoop .. | .drlEnd .. | .tillerSample .. | .tlrEnable .. | .tlrDisable .. | .tlrClrFlags .. | .tlrManual ..
  | .tlrAuto .. | .tillerRunWrite .. | .tlrClr .. | .energyCycle .. | .nrgWindowEnd .. | .demandMinute .. | .demandIntervalEnd ..
  | .energyRound .. | .energySnapshotRound .. | .nrgCalApply .. | .clrPeak .. | .nrgClrFlags .. | .clrAcc .. | .reactiveLoad ..
  | .mCfgWrite .. | .nrgRunWrite .. | .uioSample .. | .uioEdgeAccept .. | .modeWrite .. | .modeSettleEnd .. | .uioCalApply ..
  | .uioClr .. | .odOvercurrent .. | .odRetry .. | .strikePulseEnd .. | .reflexBindCommit .. | .samplerWake .. | .canTxreq ..
  | .canTxAbort .. | .busOffRecoveryStart .. | .canRecover .. | .busOffRecovered .. | .canAbortAll .. | .canAck .. | .canObjectCommit ..
  | .canModeWrite .. | .canModeEffect .. | .canWakePattern .. | .canClr .. | .serModeWrite .. | .serModeEffect .. | .replyPostponed ..
  | .mstpNoToken .. | .mstpTimerExpiry .. | .osdpPoll .. | .osdpReplyTimeout .. | .asyncFrameEnd .. | .serFrameSend ..
  | .serSlotCommit .. | .serClr .. | .daliTxSubmit .. | .daliSettlingEnd .. | .daliForwardEnd .. | .daliBackwardFrame ..
  | .daliReplyWindowClose .. | .daliCollision .. | .daliBusDown .. | .daliBusUp .. | .daliModeWrite .. | .daliClr ..
  | .ethFrameReceived .. | .ethFrameTransmit .. | .prpSupervision .. | .prpLanTimeout .. | .prpEntryForget .. | .linkEnergyDetect ..
  | .linkUp .. | .trainingTimeout .. | .linkDown .. | .macTest .. | .macNormal .. | .macRenegotiate .. | .macModeWrite .. | .macClr ..
  | .prpClr .. | .plcaBeaconLost .. | .linkFrameSend .. | .mzSignalDetect .. | .mzSyncTimeout .. | .mzLinkLost .. | .noHalfTimeout ..
  | .dupEntryForget .. | .fwdNsUpdate .. | .wakeTx .. | .mzpKeyCommit .. | .keyCtrlWrite .. | .mzClr .. | .mzpClr .. | .halfReady ..
  | .leaseRenewal .. | .leaseExpiry .. | .handover .. | .handoverTimeout .. | .rejoin .. | .retireSelf .. | .rejoinTimer ..
  | .wdogKick .. | .watchdogExpiry .. | .outputRecord .. | .recordWaitTimeout .. | .challengeDecided .. | .xlinkLost ..
  | .xlinkRetrain .. | .stateTransferRound .. | .stateTransferRetry .. | .yokeLost .. | .yokeRestored .. | .yokeHoldExceeded ..
  | .heartbeatSend .. | .packSend .. | .packRetry .. | .protectionTimeout .. | .absence .. | .busCheckEnd .. | .busRecheck ..
  | .queryTimeout .. | .handback .. | .drop .. | .sendPack .. | .fostFosterWrite .. | .rtcSecond .. | .intervalAlarm ..
  | .timeOfDayAlarm .. | .rtcSet .. | .dstOn .. | .dstOff .. | .clrOsf .. | .clrVlow .. | .clrSwo .. | .compApply .. | .compFactory ..
  | .compWindow .. | .vrtcSwitchover .. | .vlowDetect .. | .oscStopped .. | .holdoverExpiry .. | .rtcReloadCheck .. | .pageSelWrite ..
  | .grnDataWrite .. | .grnCommit .. | .storeGo .. | .periodicStore .. | .storeCapture .. | .storeProgrammed .. | .pfwAssert ..
  | .pfwRelease .. | .inputChanged .. | .reqWorking .. | .reqQuiet .. | .reqFallow .. | .reqDormant .. | .streamOpen .. | .streamAbort ..
  | .winWrite .. | .loadTimeout .. | .slotCopyDone .. | .updActivate .. | .rollback .. | .accept .. | .migDone .. | .migFail ..
  | .migrationTimeout .. | .activationTimeout .. | .yokeReloadDone .. | .probationEnd .. | .ownerKeyCommit .. | .kzqpush .. | .kzqpop ..
  | .aesGcmEncrypt .. | .aesGcmDecrypt .. | .sha384 .. | .ecdsaVerify .. | .ecdh .. | .signId .. | .eventArise .. | .exportWrite ..
  | .evrFreeze .. | .evrRelease .. | .freezeTimeout .. | .discard .. | .clear .. | .thermalSample .. | .thermalCooled .. | .railSample ..
  | .scrubLine .. | .hlthClr .. | .moduleStart .. | .rstNAssert .. | .rstNRelease .. | .canReceiveError .. | .ethCollision ..
  | .trainingNoCommonMode .. | .plcaBeaconReturn .. | .plcaBeaconSend .. | .outputRateLimit .. => true

end Sys2Proof
end

