-- ==== Sys2Proof/Tests/Slice0.lean ====
section
/-! SUPPORT. Tests: ill-formed commands that the checks refuse, small tests of single commands, and for every statement of the
certificate states and operands that meet the premises of each of its clauses. -/
set_option maxRecDepth 100000
set_option linter.unusedVariables false
namespace Sys2Proof.Tests
open Sys2Proof.Machine

/-- The module at work: Half A in charge with the lease, Half B its follower, the relays open. -/
def runS : State :=
  let y := State.reset.yoke
  let own (m : Half) : Half := { m with regs := [(rSysModuleAddr, 0x23)] }
  { State.reset with
    a := own State.reset.a, b := own State.reset.b,
    yoke := { y with a := { y.a with role := .inCharge }, b := { y.b with role := .follower }, holder := some .a, epoch := 1, granted := true,
                     relay := false, xup := true, pwr := { y.pwr with due := false, causes := 0 } } }

/-- A page that is powered, ready and enabled. -/
def pageOn (p : Nat) (m : Half) : Half := { m with dir := sput m.dir p ⟨true, true, false, false, false⟩, regs := sput m.regs (pgCtrl p) 1 }

/-- The working module with the pages of a list on in both halves. -/
def onS (l : List Nat) : State := runS.both (fun m => l.foldl (fun m p => pageOn p m) m)

/-- A state with Half A changed. -/
def inA (s : State) (f : Half → Half) : State := s.set .a (f s.a)

/-- A datagram that fits Table 3.5. -/
def okReq : IppReq := ⟨1, 9, 40000, 0x4947, 1, 1, 0, 0, 1, 0, []⟩
/-- A Merzin frame that fits Table 15.3. -/
def okMz : MzFrame := ⟨0x23, 0x31, 5, 7, 1000, 0x13, 0x1001, 0, []⟩

/-- Each header field of a datagram is checked. -/
theorem test_wf_ipp : (Instr.readPoint okReq).wf = true ∧ (Instr.readPoint { okReq with port := 64 }).wf = false ∧
    (Instr.writePoint { okReq with udp := 65536 }).wf = false ∧ (Instr.subscribe { okReq with magic := 65536 }).wf = false ∧
    (Instr.unsubscribe { okReq with version := 256 }).wf = false ∧ (Instr.readPage { okReq with op := 256 }).wf = false ∧
    (Instr.writePage { okReq with flags := 65536 }).wf = false ∧ (Instr.ippSheaf { okReq with session := 65536 }).wf = false ∧
    (Instr.readEvents { okReq with length := 65536 }).wf = false ∧ (Instr.ippFreeze { okReq with port := 64 }).wf = false ∧
    (Instr.ippActivate { okReq with port := 64 }).wf = false := by decide

/-- Accesses: the size, the address and the page. -/
theorem test_wf_access : (Instr.registerWrite .a (.core 0) 0x40012040 4 0).wf = true ∧
    (Instr.registerWrite .a (.core 0) 0x40012040 3 0).wf = false ∧ (Instr.rsSnapshotRead .a (.core 0) (2 ^ 64) 4).wf = false ∧
    (Instr.stagingWrite .a (.core 0) (2 ^ 64) 0).wf = false ∧ (Instr.stagedWordDiscard .a (.core 0) (2 ^ 64)).wf = false ∧
    (Instr.wakeOnAccess .a ⟨.core 0, 0, 5, false, 0⟩).wf = false ∧ (Instr.wakeAccessReady .a 4096).wf = false ∧
    (Instr.wakeTimeout .a 4096).wf = false ∧ (Instr.softReset .a (.core 0) 4096 0).wf = false ∧
    (Instr.errClr .a (.core 0) 4096 0).wf = false ∧ (Instr.irqClear .a (.core 0) 4096 0).wf = false ∧
    (Instr.snapTake .a (.core 0) 4096).wf = false ∧ (Instr.snapRelease .a (.core 0) 4096).wf = false := by decide

/-- Points, bindings, sheaf messages, DALI polls and CAN objects by their number. -/
theorem test_wf_numbers : (Instr.repeatIntervalEnd .a 16384).wf = false ∧ (Instr.notifyIntervalEnd .a 16384).wf = false ∧
    (Instr.sourceStale .a 32768).wf = false ∧ (Instr.msgDeferred .a 31 64).wf = false ∧
    (Instr.canFrameSent 0 3072).wf = false ∧ (Instr.canFrameSent 0 3071).wf = true ∧ (Instr.daliPoll .a 0 32768).wf = false := by decide

/-- Each field of a Merzin frame, its payload, and the counter of its link tag. -/
theorem test_wf_merzin : (Instr.mzAckReceive okMz).wf = true ∧ (Instr.mzAckReceive { okMz with dest := 65536 }).wf = false ∧
    (Instr.mzAckReceive { okMz with src := 65536 }).wf = false ∧ (Instr.mzAckReceive { okMz with stream := 256 }).wf = false ∧
    (Instr.mzAckReceive { okMz with budget := 65536 }).wf = false ∧ (Instr.mzAckReceive { okMz with kind := 256 }).wf = false ∧
    (Instr.mzAckReceive { okMz with flags := 256 }).wf = false ∧
    (Instr.mzAckReceive { okMz with payload := List.replicate 1025 0 }).wf = false ∧
    (Instr.mzHeaderReceived 0 ⟨okMz, 0, true, 0, 0, 0, 2 ^ 23⟩).wf = false ∧ (Instr.mzHeaderReceived 0 ⟨okMz, 0, true, 0, 0, 0, 5⟩).wf = true ∧
    (Instr.mzFrameTail 0 ⟨{ okMz with src := 65536 }, 0, true, 0, 0, 0, 5⟩).wf = false ∧
    (Instr.mzLinkReceive 0 ⟨{ okMz with kind := 256 }, 0, true, 0, 0, 0, 5⟩).wf = false ∧
    (Instr.mzLinkReceive 0 ⟨{ okMz with kind := 1 }, 0, true, 0, 0, 0, 2 ^ 23⟩).wf = false := by decide

/-- Field-bus frames: identifier, DLC and length of CAN, and the fields of MS/TP, OSDP and DALI. -/
theorem test_wf_buses : (Instr.canFrameStored 0 ⟨false, false, false, false, false, 2048, 0, [], 0, false⟩).wf = false ∧
    (Instr.canFrameStored 0 ⟨true, false, false, false, false, 2048, 0, [], 0, false⟩).wf = true ∧
    (Instr.canFrameStored 0 ⟨true, false, false, false, false, 2 ^ 29, 0, [], 0, false⟩).wf = false ∧
    (Instr.canFrameStored 0 ⟨false, false, false, false, false, 1, 16, [], 0, false⟩).wf = false ∧
    (Instr.canFrameStored 0 ⟨false, false, false, false, false, 1, 8, List.replicate 9 0, 0, false⟩).wf = false ∧
    (Instr.canFrameStored 0 ⟨false, true, false, false, true, 1, 8, [], 0, false⟩).wf = false ∧
    (Instr.mstpFrameReceived 0 ⟨256, 0, 0, [], true, true, true⟩).wf = false ∧ (Instr.mstpFrameReceived 0 ⟨0, 256, 0, [], true, true, true⟩).wf = false ∧
    (Instr.mstpFrameReceived 0 ⟨0, 0, 256, [], true, true, true⟩).wf = false ∧
    (Instr.osdpReply 0 ⟨128, 0, 0, [], true, false⟩).wf = false ∧ (Instr.osdpReply 0 ⟨0, 256, 0, [], true, false⟩).wf = false ∧
    (Instr.osdpReply 0 ⟨0, 0, 4, [], true, false⟩).wf = false ∧ (Instr.daliForwardReceived 0 ⟨65536, false⟩).wf = false ∧
    (Instr.daliForwardReceived 0 ⟨65536, true⟩).wf = true := by decide

/-- PTP messages, their port and their kind; wake reasons; MGT transactions; pages of power answers. -/
theorem test_wf_module : (Instr.ptpSyncReceive ⟨0, 0, 0, 1, 1, 0, false, 0, 0, 0, 0, 0, 0, 0, 0, 0, 0, 0, 0, 0, false, false, false⟩).wf = false ∧
    (Instr.ptpSyncReceive ⟨3, 16, 0, 1, 1, 0, false, 0, 0, 0, 0, 0, 0, 0, 0, 0, 0, 0, 0, 0, false, false, false⟩).wf = false ∧
    (Instr.ptpSyncReceive ⟨3, 0, 0, 1, 1, 0, false, 0, 0, 0, 0, 0, 0, 0, 0, 0, 0, 0, 0, 32768, false, false, false⟩).wf = false ∧
    (Instr.ptpSyncReceive ⟨3, 0, 0, 1, 1, 0, false, 0, 0, 0, 0, 0, 0, 0, 0, 0, 0, 0, 0, 32767, false, false, false⟩).wf = true ∧
    (Instr.ptpMessageSend .a 0 0).wf = false ∧ (Instr.ptpMessageSend .a 3 3).wf = false ∧ (Instr.announceReceiptTimeout 4 true).wf = false ∧
    (Instr.wake 0 []).wf = false ∧ (Instr.wake 8 []).wf = false ∧ (Instr.mgtAddressMatch 128).wf = false ∧
    (Instr.mgtRead ⟨256, [], true⟩).wf = false ∧ (Instr.mgtWrite ⟨0, List.replicate 256 0, true⟩).wf = false ∧
    (Instr.pagePowerAnswer .a 4096 ⟨1, 0⟩).wf = false ∧ (Instr.powerDelayExpiry .a 4096).wf = false ∧
    (Instr.powerAnswerTimeout .a 4096).wf = false := by decide

/-- No row of the table has bits, so no word spells a command and withFetchWord changes nothing. -/
theorem test_no_words : decodeTableWord 32 0 = none ∧ (State.reset.withFetchWord 32 0).pending = [] := by decide

/-- The check value of CRC-32C over the digits 1 to 9. -/
theorem test_crc32c : crc32c [0x31, 0x32, 0x33, 0x34, 0x35, 0x36, 0x37, 0x38, 0x39] = 0xE3069283 := by decide

/-- 2000 was a leap year and 2100 is none: 29 February 2000, and 1 March 2100 the day after 28 February. -/
theorem test_leap_years : monthDays 2000 2 = 29 ∧ monthDays 2100 2 = 28 ∧ dateDay 2100 3 1 = dateDay 2100 2 28 + 1 ∧
    weekday 2000 1 1 = 6 := by decide

/-- The first command of two acts and leaves the queue; the second waits on. -/
theorem test_step_takes_front :
    (match step { State.reset with pending := [.vlowDetect, .rstNAssert] } with
     | .next t => decide (t.pending = [.rstNAssert]) && t.yoke.rtc.vlow
     | _ => false) = true := by decide

/-- An empty queue: only time passes. -/
theorem test_step_idles :
    (match step State.reset with
     | .next t => decide (t.yoke.now = 1) && decide (t.pending = [])
     | _ => false) = true := by decide

/-- The working module with a program of one task on engine 0, which runs at address 0 of the code. -/
def drlS (code : List Word) (f : Task → Task) : State :=
  inA (onS [0x030, 0x038]) (fun m =>
    let c := { taskCfgReset with limit := 100, inputs := [5], outputs := [6, 7] }
    let a := { programReset with valid := true, codeLen := code.length, tasks := [(0, c)], code := (List.range code.length).zip code }
    { m with drl := { m.drl with active := a, tasks := [(0, f { taskReset with st := 3 })] } })
/-- A record of a point of a type, with its class bits. -/
def ptRec (ty : Nat) (tc : BitVec 16) (v : Dword) : PointRec :=
  let r : PointRec := { recReset with typeUnit := BitVec.ofNat 16 (ty * 4096), tc := tc, value := v, quality := 0x01, level := 17, srcBind := 0xFFFF }
  { r with check := recCheck r }
/-- Half A with a commandable INT32 point 5 (level 10 and the default) and a plain point 6. -/
def ptsS (f : Half → Half) : State :=
  inA (onS [0x020, 0x012, 0x0A0, 0x010, 0x0E0]) (fun m =>
    let p := { m.ptab with recs := [(5, ptRec 3 0x8800 7), (6, ptRec 3 0x8000 9)], prio := [(5, { prioReset with vals := [(10, 7)], occ := [10] })] }
    f { m with ptab := p })
/-- A request for the module by building port A. -/
def reqOf (payload : List Byte) : IppReq := ⟨1, 9, 40000, 0x4947, 1, 1, 0, 0, 1, payload.length, payload⟩
/-- A write that waits in the engine's queue. -/
def waitS (i l : Nat) (v : Dword) : State := ptsS (fun m => { m with ptab := { m.ptab with queue := [⟨i, l, false, false, v, none, 0x1001, .ipp⟩] } })
/-- Half A with one slot of the sheaf engine, which accessor 2 owns while it is OPEN. -/
def slotS (i : Nat) (x : Slot) : State :=
  inA (onS [0x021, 0x012, 0x0A0]) (fun m => ({ m with shf := { m.shf with slots := [(i, x)] } }).updAcc 2 (fun a => { a with sheaf := if x.owner = 2 then some i else none }))
/-- An action EVENT. -/
def evAct : Act := ⟨9, 0x09FF, 0, 0x200000001, 0, [], 0, false⟩
/-- A Merzin ring that is open eastwards, with one slot. -/
def ringS (i : Nat) (x : Slot) : State :=
  inA (onS [0x0C0, 0x0C1, 0x021]) (fun m => ({ m with shf := { m.shf with slots := [(i, x)] } }).updMzp 0 (fun p => { p with link := 4, keyed := true }))
def fr (kind : Nat) (payload : List Byte) : MzFrame := ⟨0x23, 0x31, 0x20, 7, 100, kind, 0x5005, 0, payload⟩
/-- A program of one task with no output, its task in a state, and the force region allocated. -/
def taskS (f : Task → Task) : State :=
  inA (drlS [0xC6000000] f) (fun m =>
    { m with regs := sput m.regs (rDrlcFrcBase) 32, grn := { m.grn with cfgMap := (List.range 84).map (fun p => (p, if p < 32 then 0x1F else 0x33)) }
             ptab := { m.ptab with recs := [(5, ptRec 3 0x8000 7), (6, ptRec 3 0x8800 7), (7, ptRec 3 0x8800 7), (8, ptRec 8 0x8800 7)] } })
/-- The same with engine 0's sheaf slot taken. -/
def taskS1 (f : Task → Task) : State := inA (taskS f) (fun m => { m with shf := { m.shf with slots := [(0, { slotReset with state := 3, owner := 8 })] } })
/-- An exchange of programs under way. -/
def swapS (n : Nat) (p : Program) : State := inA (taskS (fun x => { x with st := 1 })) (fun m => { m with drl := { m.drl with swap := n, swapId := 9, shadow := p } })
def progB : Program := { programReset with valid := true, crcOk := true, id := 9, tasks := [(0, taskCfgReset)] }
/-- The last samples of an input at rest. -/
def zeros : List Int := List.replicate 64 0
/-- The energy DSP with one meter of voltage set 0, phase 0 and channel 0, and its area in the granary. -/
def nrgS (run : Word) (f : Meter → Meter) : State :=
  inA (onS [0x060, 0x061, 0x069]) (fun m =>
    { m with regs := sput (sput (sput (sput m.regs rNrgCtrl (0x0F00 + run)) (rNciScale 0 0) 5000) (rNvsCtrl 0) 15) rNrgGrnBase 40
             grn := { m.grn with cfgMap := (List.range 84).map (fun p => (p, if p < 32 then 0x1F else 0x22)) }
             nrg := { m.nrg with meters := [(0, f { meterReset with cfg := 0x80000000 })], minute := -2, ivMin := -16, hist := [(0, zeros), (1, zeros), (2, zeros), (3, zeros), (32, zeros)] }
             tai := 5000000 })
/-- Half a millisecond without zero crossings, with four samples of voltage and current. -/
def cyc (i : Int) : EnergyCycle := ⟨0, 0, [[200000000, 0, -200000000, 0], [0, 0, 0, 0], [0, 0, 0, 0], [0, 0, 0, 0]], [(0, [i, 0, -i, 0])]⟩
/-- A group of terminals with one terminal in a mode. -/
def uioS (t : Nat) (mode : Word) (f : Half → Half) : State :=
  inA (onS [0x050 + t / 16, 0x0E0, 0x050]) (fun m => f { m with regs := sput m.regs (rUiogMode (t / 16) (t % 16)) mode })
def rxW : List Word := [0xB10800FF, 5, 1, 0, 0, 0, 0, 0]
def uioF (m : Half) : Half := { pageOn 0x05F m with regs := sput (sput (pageOn 0x05F m).regs (rUiogMode 15 15) 5) rRfxCtrl 1 }
/-- CAN controller 15 at work in Half A. -/
def canS (f : CanSt → CanSt) : State :=
  inA (onS [0x07F]) (fun m => { m with can := [(15, f { canReset with mode := 1 })], regs := sput m.regs (rCanCtrl 15) 0x11 })
/-- A transmit object with a request pending, single-shot where asked. -/
def canTx (o : Nat) (w0 : Word) (x : CanSt) : CanSt := { x with objs := [(o * 20, w0), (o * 20 + 2, 0x20080000)] }
/-- Serial engine 15 in Half A with a protocol. -/
def serS (proto : Word) (f : SerSt → SerSt) : State :=
  inA (onS [0x08F]) (fun m => { m with ser := [(15, f { serReset with mode := 1, ns := 9 })]
                                       regs := sput (sput (sput m.regs (rSerCtrl 15) (1 + 16 * proto)) (rSerMstp 15) 0x017F05) (rSerQueue 15) 0x80000300 })
/-- The same with a frame of a type waiting in its transmit queue. -/
def serQ (proto : Word) (type : Byte) (f : SerSt → SerSt) : State :=
  inA (serS proto f) (fun m => { m with que := { m.que with q := [(3, [0x80001000])] }
                                        lpddr := [(0x80001000, 5), (0x80001004, 2), (0x80001021, type), (0x80001022, 7), (0x80001040, 0xAA), (0x80001041, 0xBB)] })
def mstp (type dest src : Nat) : MstpFrame := ⟨type, dest, src, [], true, true, true⟩
/-- DALI line 7 of Half A in a state. -/
def daliS (f : DaliSt → DaliSt) : State :=
  inA (onS [0x097]) (fun m => { m with dali := [(7, f { daliReset with mode := 1 })], regs := sput m.regs (rDaliCtrl 7) 1 })
def tx0 : DaliTx := ⟨0xFF93, false, true, false, 5, 0, 0, 3, 0⟩
def tx1 : DaliTx := ⟨0xFF93, false, false, true, 1, 1, 0, 3, 3⟩
/-- A MAC of Half A in a state, its port NORMAL. -/
def macS (p : Nat) (ctrl : Word) (f : MacSt → MacSt) : State :=
  inA (onS [p, 0xA2]) (fun m => { m with mac := [(p, f macReset)], regs := sput m.regs (rMacCtrl p) ctrl })
/-- A frame of 60 bytes for the building pair, with its redundancy control trailer. -/
def rxA (fcs : Bool) : EthRx :=
  ⟨List.replicate 6 0xFF ++ [0, 0, 0, 0, 0, 9] ++ [0x88, 0xB5] ++ List.replicate 40 0 ++ [0, 7, 0xA0, 0x2E, 0x88, 0xFB], false, fcs, true⟩
/-- A frame that waits, with its grain tag right or wrong. -/
def txF (ok : Bool) : EthFrame := let z := EthPay.raw (List.replicate 60 0); ⟨z, 0, if ok then payGrain z else ~~~ payGrain z, none, none⟩
/-- A Merzin port of Half A in a state of Table 15.1, its switch and its ring port open. -/
def mzS (p : Nat) (f : MzpSt → MzpSt) : State :=
  inA (onS [0x0C0, 0x0C1, 0x0C2, 0x0C3, 0x0C4, 0x020]) (fun m => (m.updMzp 0 (fun x => { x with link := 4, keyed := true })).updMzp p f)
def mzF (kind : Nat) (dest : Nat) (payload : List Byte) : MzFrame := ⟨dest, 0x31, 0x85, 7, 1000, kind, 0x1001, 0, payload⟩
/-- A frame as it comes with its header check, its end and its grain tag right, and a link tag of zero. -/
def mzR (f : MzFrame) : MzRx := ⟨f, mzHcheck f, true, mzGrain f, 0, 0, 1⟩
/-- The same with the link tag that the neighbour's port computes. -/
def mzT (s : State) (p nb np : Nat) (slot : Fin 2) (f : MzFrame) : MzRx :=
  { mzR f with slot := slot
               tag := mzLinkTag (s.a.mzKey p slot.val) nb np slot.val ((s.a.mzp p).counter slot.val 1) (mzLinkBytes f (mzHcheck f) (mzGrain f)) }
/-- A LINK frame of module 0x31, from its port 1 of Half B. -/
def mzL : MzFrame := ⟨0xFFFF, 0x31, 0, 7, 1000, 1, 0x5005, 0, leBytes 2 0x31 ++ [1, 1] ++ leBytes 8 5 ++ leBytes 8 6 ++ leBytes 4 7⟩
def flyS (z : MzFlight) : State := inA (mzS 3 (fun x => { x with link := 4 })) (fun m => { m with mz := { m.mz with flights := [z], dups := [(dupKey 0x31 0x85, ⟨7, 0, 0⟩)] } })
/-- Foster slot 1 of Half A, which protects module 0x31, its ring open. -/
def fsS (x : FostSlot) (f : Half → Half) : State :=
  inA (onS [0x0C0, 0x0C1, 0x0F0, 0x020, 0x077]) (fun m => f ((m.updMzp 0 (fun x => { x with link := 4, keyed := true })).updFs 1 (fun _ => { x with addr := 0x31 })))
/-- The protected side, with foster 0x31. -/
def ptS (f : FostSt → FostSt) : State :=
  inA (onS [0x0C0, 0x0C1, 0x0F0, 0x020, 0x077]) (fun m => let m1 := m.updMzp 0 (fun x => { x with link := 4, keyed := true });
    { m1 with regs := sput (sput (sput m1.regs rFostFoster 0x31) rFostCtrl 3) rMzRing 0x310023, fost := f m1.fost, upd := { m1.upd with slots := [(m1.upd.run, { slotEmpty with st := 2, cfg := [0] })] } })
def pk0 : Pack := ⟨6, [0, 0, 0, 0, 0, 0, 1, 0] ++ List.replicate 8 0⟩
def mzQ (kind : Nat) (payload : List Byte) : MzFrame := ⟨0x23, 0x31, 3, 7, 1000, kind, 0x5005, 0, payload⟩
/-- The working module with the Yoke changed. -/
def ykS (f : Yoke → Yoke) : State := runS.updYk f
def ykH (h : HalfId) (f : YHalf → YHalf) (y : Yoke) : Yoke := if h = .a then { y with a := f y.a } else { y with b := f y.b }
/-- The working module with the RTC changed, LOCKED or not. -/
def rtcS (lock : Bool) (f : Rtc → Rtc) : State :=
  (inA (onS [0x003]) (fun m => { m with tim := { m.tim with source := if lock then 2 else 0 } })).updYk (fun y => { y with rtc := f y.rtc })
/-- Half A with PTP port p in a state, its page and both building MACs on. -/
def ptpS (p : Nat) (z : PtpPort) (f : Half → Half) : State :=
  inA (onS [0x0C8, 0xA0, 0xA1, 0xA2]) (fun m => f { m with
    tim := { m.tim with ports := [(p, z)] }, mac := [(0xA0, { macReset with link := 3 })], regs := sput (sput m.regs (rMacCtrl 0xA0) 1) rPtpCtrl 7 })
def anA : PtpAnn := ⟨1, 6, 0x20, 100, 1, 77, 0, Config.clockIdentity + 1, 1, 37, true, false, false⟩
def slS : PtpPort := { ptpReset with st := 9, best := some anA, reqAt := some 5, reqSeq := 4 }
theorem mine (m : Half) (x : PtpMsg) (a : (m.on 0x0C8 && decide (1 ≤ x.port) && decide (x.port ≤ 3) && decide (4 ≤ (m.ptpPort x.port).st)
    && decide (x.domain = m.rdF rPtpCtrl 16 8)) = true) (b : x.src = Config.clockIdentity + 1) : m.ptpMine x = true := by
  unfold Half.ptpMine; rw [a, b]; simp
theorem fromOf (m : Half) (x : PtpMsg) (a : PtpAnn) (h8 : decide (8 ≤ (m.ptpPort x.port).st) = true) (hm : m.tim.master = some a)
    (hs : a.src = x.src) (hp : a.srcPort = x.srcPort) : m.fromMaster x = true := by
  unfold Half.fromMaster; rw [h8, hm]; simp [hs, hp]
def pmsg (type : Nat) : PtpMsg := ⟨1, type, 0, Config.clockIdentity + 1, 1, 4, false, 1000, 900, 0, 0, 0, 77, 1, 6, 0x20, 100, 1, 0, 37, true, false, false⟩
def ms (m : Half) : Half := { m with tim := { m.tim with master := some anA, source := 1 } }
/-- Half A with the granary changed and its page selected. -/
def grS (page : Nat) (f : GrnSt → GrnSt) : State := inA (onS [0x004]) (fun m => let m1 := { m with grn := f m.grn }; m1.setView 2 rGrnPageSel (word page))
def stX : Store := ⟨1, 1, [], 0, some 2⟩
/-- The working module with the power sequencer changed, and the wake enables. -/
def pwrS (en : Word) (f : PwrSt → PwrSt) : State := (onS [0x002, 0x0C0, 0x0C1, 0x0F0]).updYk (fun y => { y with pwr := f y.pwr, regs := sput y.regs rPwrWakeEn en })
def enS (target : Nat) (w : List (HalfId × Nat)) (d : List (HalfId × Nat × Nat)) (q : List (HalfId × Nat)) : State :=
  pwrS 0x1F (fun p => { p with entry := some ⟨target, 7, w, [], d, q, []⟩, tag := 7 })
def mgtS (f : PwrSt → PwrSt) : State := (pwrS 0x1F f).updYk (fun y => { y with regs := sput y.regs rMgtCtrl 0x120 })
def mq (p : List Byte) : MgtReq := ⟨p.length, p, true⟩
/-- Half A with its update unit changed. -/
def updS (f : UpdSt → UpdSt) : State := inA (onS [0x007, 0x009, 0x008]) (fun m => { m with upd := f m.upd })
def ldX (n : Nat) (b : List Byte) (c : Bool) : Load := ⟨n, b, 0, c, 0x3003, 0⟩
def gW : List Word := [0x22CA87AA, 0x37058BBE, 0x1EC7B18E, 0x74AD20F3, 0x623B1D6E, 0x989BA78B, 0xE041F759, 0x382A5482, 0x5DF20255, 0x6C2955BF, 0x385E543A, 0xB70A7672, 0x4ADE1736, 0x6F2C2696, 0xBF989E5D, 0x29DC9292, 0xBD1DF4F8, 0x7C149A28, 0x1331DAE9, 0xC0B8F0B5, 0xCEB1600A, 0x9D817E1D, 0x7C1D437A, 0x5F0EEA90]
/-- The working module, both halves with VALID slots, and an activation. -/
def actS (f : Activation → Activation) (g : Yoke → Yoke) : State :=
  ((onS [0x007]).both (fun m => { m with upd := { m.upd with run := 0, slots := [(0, { slotEmpty with st := 3, ver := 5 }), (1, { slotEmpty with st := 2, ver := 6 })] }, regs := sput m.regs rUpdActVer 6 })).updYk
    (fun y => g { y with act := f y.act })
/-- Half A with descriptor queues. -/
def queS (l : Sparse (List Nat)) (f : Half → Half) : State := inA (onS [0x008]) (fun m => f { m with que := { m.que with q := l } })
/-- A job in queue 5 at 0x1000 with some bytes of its descriptor. -/
def jobS (b : Sparse Byte) : State := queS [(5, [0x1000, 0x1800])] (fun m => { m with regs := sput m.regs rSecJobq 0x80000005, lpddr := b })
def fewS : State := { runS with pending := [.vlowDetect, .rstNAssert] }

/-- What a command that answers a next state leaves has a property. -/
def leaves (o : Host.Outcome State Fault Refusal) (p : State → Bool) : Bool :=
  match o with
  | .next t => p t
  | _ => false

/-- R197: the largest integer plus 1 saturates, and V is set. -/
theorem test_add_saturates : leaves (exec (.drlAdd .a 0) (drlS [0x42700000, 1, 0] (fun x => { x with acc := 0x7FFFFFFFFFFFFFFF })))
    (fun t => decide ((t.a.task 0).acc = 0x7FFFFFFFFFFFFFFF) && (t.a.task 0).v) = true := by decide

/-- R197: a division by zero leaves 0 and sets V. -/
theorem test_div_by_zero : leaves (exec (.drlDiv .a 0) (drlS [0x45700000, 0, 0] (fun x => { x with acc := 9 })))
    (fun t => decide ((t.a.task 0).acc = 0) && (t.a.task 0).v && decide ((t.a.task 0).pc = 3)) = true := by decide

/-- The arithmetic shift of −8 by 1 keeps its sign; the logical one shifts a 0 in. -/
theorem test_shifts : leaves (exec (.drlAsr .a 0) (drlS [0x50700001] (fun x => { x with acc := 0xFFFFFFFFFFFFFFF8 })))
    (fun t => decide ((t.a.task 0).acc = 0xFFFFFFFFFFFFFFFC)) = true ∧
    leaves (exec (.drlShr .a 0) (drlS [0x4F700001] (fun x => { x with acc := 0xFFFFFFFFFFFFFFF8 })))
    (fun t => decide ((t.a.task 0).acc = 0x7FFFFFFFFFFFFFFC)) = true := by decide

/-- 1.5 × 3.0 = 4.5 in binary64. -/
theorem test_fmul : leaves (exec (.drlFmul .a 0) (drlS [0x49700000, 0, 0x40080000] (fun x => { x with acc := 0x3FF8000000000000 })))
    (fun t => decide ((t.a.task 0).acc = 0x4012000000000000)) = true := by decide

/-- SESS.SEL takes 511 and refuses 512 (there are 512 sessions). -/
theorem test_sess_sel : leaves (exec (.registerWrite .a (.core 2) (keyAddr rSessSel) 4 511) (onS [0x012]))
    (fun t => decide ((t.a.answered (.core 2)).status = 0)) = true ∧
    leaves (exec (.registerWrite .a (.core 2) (keyAddr rSessSel) 4 512) (onS [0x012]))
    (fun t => decide ((t.a.answered (.core 2)).status = 5) && decide (t.a.rdF (pgErr 0x012) 0 8 = 5)) = true := by decide

/-- Table 2.12: a word access to an address that is no multiple of 4 is an ALIGN refusal. -/
theorem test_alignment : leaves (exec (.registerWrite .a (.core 2) (keyAddr rSessSel + 2) 4 0) (onS [0x012]))
    (fun t => decide ((t.a.answered (.core 2)).status = 2)) = true := by decide

/-- R409: 28 February 2100 is followed by 1 March, 31 December 2099 by 2100. -/
theorem test_rtc_second : leaves (exec .rtcSecond (rtcS false (fun x => { x with year := 2100, month := 2, day := 28, hour := 23, min := 59, sec := 59 })))
    (fun t => decide (t.yoke.rtc.month = 3) && decide (t.yoke.rtc.day = 1) && decide (t.yoke.rtc.hour = 0)) = true ∧
    leaves (exec .rtcSecond (rtcS false (fun x => { x with year := 2099, month := 12, day := 31, hour := 23, min := 59, sec := 59 })))
    (fun t => decide (t.yoke.rtc.year = 2100) && decide (t.yoke.rtc.month = 1) && decide (t.yoke.rtc.day = 1)) = true := by decide

/-- R383: the lease ends, the half in charge retires and its clean follower takes over under the next EPOCH. -/
theorem test_lease_expiry : leaves (exec .leaseExpiry (runS.updYk (fun y => { y with now := 1000000 }))) (fun t => decide (t.role .a = .retired) && decide (t.role .b = .inCharge) &&
    decide (t.yoke.holder = some .b) && decide (t.yoke.epoch = 2)) = true := by decide

/-- Table 19.9: an MGT command with a bad PEC answers 0xFE. -/
theorem test_mgt_pec : leaves (exec (.getStatus ⟨0, [], false⟩) (mgtS id)) (fun t => decide (t.yoke.mgt.status = 0xFE)) = true := by decide

/-- A queue of one address is empty once it is popped, and its address is what the pop gives. -/
theorem test_queue_pop : leaves (exec (.kzqpop .a 2 ⟨5, false, false⟩) (queS [(5, [0x1000])] id))
    (fun t => decide (t.a.queue 5 = []) && decide (sget 0 t.a.que.popped 2 = 0x1000)) = true := by decide

/-- A granary page takes the accessor's buffer, and the page beside it stays. -/
theorem test_grn_commit : leaves (exec (.grnCommit .a (.core 2) 1) (grS 40 (fun g => { g with cfgMap := [(40, 0x10)], array := [(40 * 64, 9), (41 * 64, 7)] })))
    (fun t => decide (sget 0 t.a.grn.array (40 * 64) = 0) && decide (sget 0 t.a.grn.array (41 * 64) = 7)) = true := by decide

/-- The calendar's first clause at its last second, its second at both ends, its third at its last year. -/
theorem witness_CalendarCounts :
    (let r : Rtc := { rtcReset with year := 2199, month := 12, day := 31, hour := 23, min := 59, sec := 59 }
     2000 ≤ r.year ∧ r.year ≤ 2199 ∧ 1 ≤ r.month ∧ r.month ≤ 12 ∧ 1 ≤ r.day ∧ r.day ≤ monthDays r.year r.month ∧ r.hour ≤ 23 ∧ r.min ≤ 59 ∧
       r.sec ≤ 59) ∧
    (946684800 ≤ 7258118399 ∧ 7258118399 < dateDay 2200 1 1 * 86400 ∧ 946684800 < dateDay 2200 1 1 * 86400) ∧
    (2000 ≤ 2199 ∧ 1 ≤ 11) := by decide

/-- The premises of each clause of StepTakesFront can be met. -/
theorem witness_StepTakesFront :
  (let s : State := fewS; let c : Instr := .vlowDetect; let l : List Instr := [.rstNAssert]; s.pending = c :: l) := by
  decide

/-- The premises of each clause of RolesKept can be met. -/
theorem witness_RolesKept :
  (let s : State := { runS with pending := [.leaseExpiry] }; s.rolesOk = true) ∧
  (let s : State := { runS with pending := [.leaseExpiry] }; let t : State := (match step { runS with pending := [.leaseExpiry] } with | .next t => t | _ => runS); step s = .next t) := by
  refine ⟨?_, ?_⟩
  · decide
  · intros; rfl

/-- The premises of each clause of WriteChecks can be met. -/
theorem witness_WriteChecks :
  (let s : State := onS [0x012]; let h : HalfId := .a; let r : Req := .core 2; let k : Nat := rSessSel; k < 2 ^ 20 ∧ s.reaches h r = true ∧ ownReq r = true) := by
  decide

/-- The premises of each clause of OwnHalfFrame can be met. -/
theorem witness_OwnHalfFrame :
  (let s : State := runS; let c : Instr := .energyRound .a; let h : HalfId := .a; ownHalf c = some h ∧ s.yoke.handover = none) := by
  decide

/-- The premises of each clause of ClearFrame can be met. -/
theorem witness_ClearFrame :
  (let s : State := onS [0x010, 0x011, 0x012]; let c : Instr := .fenceClr .a (.ipp 0x1001) 0xFFFF; let h : HalfId := .a; let r : Req := .ipp 0x1001; let k : Nat := rFenceClr; let v : Word := 0xFFFF; clears c = some (h, r, k, v) ∧ s.admits h r k v = true) := by
  decide

/-- The premises of each clause of SkippedSamples can be met. -/
theorem witness_SkippedSamples :
  (let s : State := inA (inA (onS [0x040]) (fun m => { m with regs := sput m.regs rTlrCtrl 1, tlr := { m.tlr with loops := [(0, { loopReset with st := 2, desc := 3, first := true })], desc := [(3 * 512, 0x101), (3 * 512 + 1, 10), (3 * 512 + 2, 0), (3 * 512 + 3, 0xFFFFFFFF), (3 * 512 + 4, 0xFFFFFFFF), (3 * 512 + 5, 0xFFFFFFFF), (3 * 512 + 6, 0xFFFFFFFF), (3 * 512 + 7, 0xFFFFFFFF), (3 * 512 + 8, 0xFFFFFFFF), (3 * 512 + 9, 0xFFFFFFFF), (3 * 512 + 10, 8), (3 * 512 + 32, 0x00110F06), (3 * 512 + 33, 0x40404000)] }, tai := 10000000 })) (fun m => { m with shf := { m.shf with slots := [(8, { slotReset with state := 3, owner := 16 })] }, tlr := { m.tlr with loops := [(0, { loopReset with st := 2, desc := 3, busy := true })] } }); let h : HalfId := .a; let l : Nat := 0; let m := s.half h; let x := m.loop l; let ms := m.tai.toNat / 1000000; s.quiet h = true ∧ m.shf.cq = [] ∧ m.drl.jobs = [] ∧ (m.slot 8).state ≠ 0 ∧ m.on 0x040 = true ∧ m.rdB rTlrCtrl 0 = true ∧ m.tlrBatch ms = [l] ∧ x.busy = true ∧ x.owed = none ∧ ((∀ p ∈ m.tlrReads [l], m.recOk p = true)) ∧ m.tlr.loops.all (fun e => !e.2.leaving) = true) := by
  decide

/-- The premises of each clause of DrillLogic can be met. -/
theorem witness_DrillLogic :
  (let s : State := drlS [0x0] (fun x => { x with lb := true }); let h : HalfId := .a; let e : Fin 8 := 0; let t : Nat := 0; let m := s.half h; s.quiet h = true ∧ m.fetches e.val 0x00 t = true) ∧
  (let s : State := drlS [0x18000000] (fun x => { x with lb := true }); let h : HalfId := .a; let e : Fin 8 := 0; let t : Nat := 0; let m := s.half h; s.quiet h = true ∧ m.fetches e.val 0x18 t = true) ∧
  (let s : State := drlS [0x19000000] (fun x => { x with lb := true }); let h : HalfId := .a; let e : Fin 8 := 0; let t : Nat := 0; let m := s.half h; s.quiet h = true ∧ m.fetches e.val 0x19 t = true) ∧
  (let s : State := drlS [0x1a000000] (fun x => { x with lb := true }); let h : HalfId := .a; let e : Fin 8 := 0; let t : Nat := 0; let m := s.half h; s.quiet h = true ∧ m.fetches e.val 0x1A t = true) ∧
  (let s : State := drlS [0x10210003] (fun x => { x with lb := true }); let h : HalfId := .a; let e : Fin 8 := 0; let t : Nat := 0; let m := s.half h; let b := false; s.quiet h = true ∧ m.iBit t (m.instr t) = some b ∧ m.fetches e.val 0x10 t = true) ∧
  (let s : State := drlS [0x11210003] (fun x => { x with lb := true }); let h : HalfId := .a; let e : Fin 8 := 0; let t : Nat := 0; let m := s.half h; let b := false; s.quiet h = true ∧ m.iBit t (m.instr t) = some b ∧ m.fetches e.val 0x11 t = true) ∧
  (let s : State := drlS [0x12210003] (fun x => { x with lb := true }); let h : HalfId := .a; let e : Fin 8 := 0; let t : Nat := 0; let m := s.half h; let b := false; s.quiet h = true ∧ m.iBit t (m.instr t) = some b ∧ m.fetches e.val 0x12 t = true) ∧
  (let s : State := drlS [0x13210003] (fun x => { x with lb := true }); let h : HalfId := .a; let e : Fin 8 := 0; let t : Nat := 0; let m := s.half h; let b := false; s.quiet h = true ∧ m.iBit t (m.instr t) = some b ∧ m.fetches e.val 0x13 t = true) ∧
  (let s : State := drlS [0x14000000] (fun x => { x with lb := true, stack := .logic true :: List.replicate 14 (.call 3) }); let h : HalfId := .a; let e : Fin 8 := 0; let t : Nat := 0; let m := s.half h; let x := m.past t; s.quiet h = true ∧ x.stack.length < 16 ∧ m.fetches e.val 0x14 t = true) ∧
  (let s : State := drlS [0x15010000] (fun x => { x with lb := true, stack := .logic true :: List.replicate 15 (.call 3) }); let h : HalfId := .a; let e : Fin 8 := 0; let t : Nat := 0; let m := s.half h; let x := m.past t; let b := true; let l := List.replicate 15 (Stk.call 3); s.quiet h = true ∧ x.stack = .logic b :: l ∧ m.fetches e.val 0x15 t = true) ∧
  (let s : State := drlS [0x16010000] (fun x => { x with lb := true, stack := .logic true :: List.replicate 15 (.call 3) }); let h : HalfId := .a; let e : Fin 8 := 0; let t : Nat := 0; let m := s.half h; let x := m.past t; let b := true; let l := List.replicate 15 (Stk.call 3); s.quiet h = true ∧ x.stack = .logic b :: l ∧ m.fetches e.val 0x16 t = true) ∧
  (let s : State := drlS [0x17010000] (fun x => { x with lb := true, stack := .logic true :: List.replicate 15 (.call 3) }); let h : HalfId := .a; let e : Fin 8 := 0; let t : Nat := 0; let m := s.half h; let x := m.past t; let b := true; let l := List.replicate 15 (Stk.call 3); s.quiet h = true ∧ x.stack = .logic b :: l ∧ m.fetches e.val 0x17 t = true) := by
  refine ⟨?_, ?_, ?_, ?_, ?_, ?_, ?_, ?_, ?_, ?_, ?_, ?_⟩ <;> decide

/-- The premises of each clause of DrillInteger can be met. -/
theorem witness_DrillInteger :
  (let s : State := drlS [0x55000000] (fun x => { x with acc := 0x8000000000000000 }); let h : HalfId := .a; let e : Fin 8 := 0; let t : Nat := 0; let m := s.half h; s.quiet h = true ∧ m.fetches e.val 0x55 t = true) ∧
  (let s : State := drlS [0x56000000] (fun x => { x with acc := -5 }); let h : HalfId := .a; let e : Fin 8 := 0; let t : Nat := 0; let m := s.half h; s.quiet h = true ∧ m.fetches e.val 0x56 t = true) ∧
  (let s : State := drlS [0x42700000, 0x7fffffff, 0x0] (fun x => { x with acc := 0x5 }); let h : HalfId := .a; let e : Fin 8 := 0; let t : Nat := 0; let m := s.half h; let w := (0x7fffffff : Dword); s.quiet h = true ∧ m.iWord t (m.task t).pc (m.instr t) = some w ∧ m.fetches e.val 0x42 t = true) ∧
  (let s : State := drlS [0x43700000, 0xffffffff, 0x0] (fun x => { x with acc := 0x8000000000000000 }); let h : HalfId := .a; let e : Fin 8 := 0; let t : Nat := 0; let m := s.half h; let w := (0xffffffff : Dword); s.quiet h = true ∧ m.iWord t (m.task t).pc (m.instr t) = some w ∧ m.fetches e.val 0x43 t = true) ∧
  (let s : State := drlS [0x44700000, 0xffffffff, 0x0] (fun x => { x with acc := 0xffffffff80000000 }); let h : HalfId := .a; let e : Fin 8 := 0; let t : Nat := 0; let m := s.half h; let w := (0xffffffff : Dword); s.quiet h = true ∧ m.iWord t (m.task t).pc (m.instr t) = some w ∧ m.fetches e.val 0x44 t = true) ∧
  (let s : State := drlS [0x45700000, 0x0, 0x0] (fun x => { x with acc := 0x9 }); let h : HalfId := .a; let e : Fin 8 := 0; let t : Nat := 0; let m := s.half h; let w := (0 : Dword); s.quiet h = true ∧ m.iWord t (m.task t).pc (m.instr t) = some w ∧ m.fetches e.val 0x45 t = true) ∧
  (let s : State := drlS [0x46700000, 0x7, 0x0] (fun x => { x with acc := 0xfffffffffffffff0 }); let h : HalfId := .a; let e : Fin 8 := 0; let t : Nat := 0; let m := s.half h; let w := (7 : Dword); s.quiet h = true ∧ m.iWord t (m.task t).pc (m.instr t) = some w ∧ m.fetches e.val 0x46 t = true) := by
  refine ⟨?_, ?_, ?_, ?_, ?_, ?_, ?_⟩ <;> decide

/-- The premises of each clause of DrillBitwise can be met. -/
theorem witness_DrillBitwise :
  (let s : State := drlS [0x4e70003f] (fun x => { x with acc := 0x8000000000000001 }); let h : HalfId := .a; let e : Fin 8 := 0; let t : Nat := 0; let m := s.half h; s.quiet h = true ∧ m.fetches e.val 0x4E t = true) ∧
  (let s : State := drlS [0x4f70003f] (fun x => { x with acc := 0x8000000000000001 }); let h : HalfId := .a; let e : Fin 8 := 0; let t : Nat := 0; let m := s.half h; s.quiet h = true ∧ m.fetches e.val 0x4F t = true) ∧
  (let s : State := drlS [0x5070003f] (fun x => { x with acc := 0x8000000000000001 }); let h : HalfId := .a; let e : Fin 8 := 0; let t : Nat := 0; let m := s.half h; s.quiet h = true ∧ m.fetches e.val 0x50 t = true) ∧
  (let s : State := drlS [0x4b500fc0] (fun x => { x with acc := 0xf0, lb := true, locals := [(63, 0xff)] }); let h : HalfId := .a; let e : Fin 8 := 0; let t : Nat := 0; let m := s.half h; let w := (0xff : Dword); s.quiet h = true ∧ m.iWord t (m.task t).pc (m.instr t) = some w ∧ m.fetches e.val 0x4B t = true) ∧
  (let s : State := drlS [0x4c500fc0] (fun x => { x with acc := 0xf0, lb := true, locals := [(63, 0xff)] }); let h : HalfId := .a; let e : Fin 8 := 0; let t : Nat := 0; let m := s.half h; let w := (0xff : Dword); s.quiet h = true ∧ m.iWord t (m.task t).pc (m.instr t) = some w ∧ m.fetches e.val 0x4C t = true) ∧
  (let s : State := drlS [0x4d500fc0] (fun x => { x with acc := 0xf0, lb := true, locals := [(63, 0xff)] }); let h : HalfId := .a; let e : Fin 8 := 0; let t : Nat := 0; let m := s.half h; let w := (0xff : Dword); s.quiet h = true ∧ m.iWord t (m.task t).pc (m.instr t) = some w ∧ m.fetches e.val 0x4D t = true) ∧
  (let s : State := drlS [0x515a0fc0] (fun x => { x with acc := 0xf0, lb := true, locals := [(63, 0xff)] }); let h : HalfId := .a; let e : Fin 8 := 0; let t : Nat := 0; let m := s.half h; let w := (0xff : Dword); s.quiet h = true ∧ m.iWord t (m.task t).pc (m.instr t) = some w ∧ m.fetches e.val 0x51 t = true) := by
  refine ⟨?_, ?_, ?_, ?_, ?_, ?_, ?_⟩ <;> decide

/-- The premises of each clause of DrillMoves can be met. -/
theorem witness_DrillMoves :
  (let s : State := drlS [0x40710000, 0x80000000, 0x1] (fun x => { x with acc := 1 }); let h : HalfId := .a; let e : Fin 8 := 0; let t : Nat := 0; let m := s.half h; let w := m.instr t; let v := 0x180000000; let f := false; s.quiet h = true ∧ m.iLoad t (m.task t).pc w = some (v, f) ∧ m.fetches e.val 0x40 t = true) ∧
  (let s : State := drlS [0x41500fc0] (fun x => { x with acc := 0xfedcba9876543210, locals := [(63, 0x1111111122222222)] }); let h : HalfId := .a; let e : Fin 8 := 0; let t : Nat := 0; let m := s.half h; let w := m.instr t; let i := 63; s.quiet h = true ∧ iArea w = 5 ∧ iLoc (iOpd w) 0x3F = some i ∧ m.fetches e.val 0x41 t = true) ∧
  (let s : State := drlS [0x40520000] (fun x => { x with locals := [(0, 0xfedcba9876543210)] }); let h : HalfId := .a; s.quiet h = true) ∧
  (let s : State := drlS [0x1b210005] (fun x => { x with lb := false }); let h : HalfId := .a; let e : Fin 8 := 0; let t : Nat := 0; let m := s.half h; let x := m.past t; let w := m.instr t; let d := iOpd w; let put : Bool → Option Half := fun b => match iArea w with | 1 => (m.iOutBit t d).map (fun p => (m.fetched t).setOutImg t p.1 (dbit (sget 0 x.outs p.1) p.2 b)) | 2 => some ((m.fetched t).setMarker d b) | _ => (iLoc d 0).map (fun i => (m.fetched t).setLoc t i (dbit (sget 0 x.locals i) (d % 64) b)); let m1 := (s.a.fetched 0).setMarker 5 true; s.quiet h = true ∧ put (x.lb != (iMod w).testBit 0) = some m1 ∧ m.fetches e.val 0x1B t = true) ∧
  (let s : State := drlS [0x1c500fff] (fun x => { x with lb := true }); let h : HalfId := .a; let e : Fin 8 := 0; let t : Nat := 0; let m := s.half h; let x := m.past t; let w := m.instr t; let d := iOpd w; let put : Bool → Option Half := fun b => match iArea w with | 1 => (m.iOutBit t d).map (fun p => (m.fetched t).setOutImg t p.1 (dbit (sget 0 x.outs p.1) p.2 b)) | 2 => some ((m.fetched t).setMarker d b) | _ => (iLoc d 0).map (fun i => (m.fetched t).setLoc t i (dbit (sget 0 x.locals i) (d % 64) b)); let m1 := (s.a.fetched 0).setLoc 0 63 (dbit 0 63 true); s.quiet h = true ∧ put true = some m1 ∧ m.fetches e.val 0x1C t = true) ∧
  (let s : State := drlS [0x1d100040] (fun x => { x with lb := true, outs := [(1, 1)] }); let h : HalfId := .a; let e : Fin 8 := 0; let t : Nat := 0; let m := s.half h; let x := m.past t; let w := m.instr t; let d := iOpd w; let put : Bool → Option Half := fun b => match iArea w with | 1 => (m.iOutBit t d).map (fun p => (m.fetched t).setOutImg t p.1 (dbit (sget 0 x.outs p.1) p.2 b)) | 2 => some ((m.fetched t).setMarker d b) | _ => (iLoc d 0).map (fun i => (m.fetched t).setLoc t i (dbit (sget 0 x.locals i) (d % 64) b)); let m1 := (s.a.fetched 0).setOutImg 0 1 (dbit 1 0 false); s.quiet h = true ∧ put false = some m1 ∧ m.fetches e.val 0x1D t = true) ∧
  (let s : State := drlS [0x1e20ffff] (fun x => { x with lb := true }); let h : HalfId := .a; let e : Fin 8 := 0; let t : Nat := 0; let m := s.half h; s.quiet h = true ∧ m.fetches e.val 0x1E t = true) ∧
  (let s : State := drlS [0x1f20ffff] (fun x => { x with lb := true }); let h : HalfId := .a; let e : Fin 8 := 0; let t : Nat := 0; let m := s.half h; s.quiet h = true ∧ m.fetches e.val 0x1F t = true) := by
  refine ⟨?_, ?_, ?_, ?_, ?_, ?_, ?_, ?_⟩ <;> decide

/-- The premises of each clause of DrillFloat can be met. -/
theorem witness_DrillFloat :
  (let s : State := drlS [0x53000000] (fun x => { x with acc := -3 }); let h : HalfId := .a; let e : Fin 8 := 0; let t : Nat := 0; let m := s.half h; s.quiet h = true ∧ m.fetches e.val 0x53 t = true) ∧
  (let s : State := drlS [0x54000000] (fun x => { x with acc := 0xc003000000000000 }); let h : HalfId := .a; let e : Fin 8 := 0; let t : Nat := 0; let m := s.half h; s.quiet h = true ∧ m.fetches e.val 0x54 t = true) ∧
  (let s : State := drlS [0x47700000, 0x0, 0x40080000] (fun x => { x with acc := 0x3ff8000000000000, lb := true }); let h : HalfId := .a; let e : Fin 8 := 0; let t : Nat := 0; let m := s.half h; let w := (0x4008000000000000 : Dword); s.quiet h = true ∧ m.iWord t (m.task t).pc (m.instr t) = some w ∧ m.fetches e.val 0x47 t = true) ∧
  (let s : State := drlS [0x48700000, 0x0, 0x40080000] (fun x => { x with acc := 0x3ff8000000000000, lb := true }); let h : HalfId := .a; let e : Fin 8 := 0; let t : Nat := 0; let m := s.half h; let w := (0x4008000000000000 : Dword); s.quiet h = true ∧ m.iWord t (m.task t).pc (m.instr t) = some w ∧ m.fetches e.val 0x48 t = true) ∧
  (let s : State := drlS [0x49700000, 0x0, 0x40080000] (fun x => { x with acc := 0x3ff8000000000000, lb := true }); let h : HalfId := .a; let e : Fin 8 := 0; let t : Nat := 0; let m := s.half h; let w := (0x4008000000000000 : Dword); s.quiet h = true ∧ m.iWord t (m.task t).pc (m.instr t) = some w ∧ m.fetches e.val 0x49 t = true) ∧
  (let s : State := drlS [0x4a700000, 0x0, 0x0] (fun x => { x with acc := 0x3ff8000000000000, lb := true }); let h : HalfId := .a; let e : Fin 8 := 0; let t : Nat := 0; let m := s.half h; let w := (0 : Dword); s.quiet h = true ∧ m.iWord t (m.task t).pc (m.instr t) = some w ∧ m.fetches e.val 0x4A t = true) ∧
  (let s : State := drlS [0x52720000, 0x0, 0x40080000] (fun x => { x with acc := 0x3ff8000000000000, lb := true }); let h : HalfId := .a; let e : Fin 8 := 0; let t : Nat := 0; let m := s.half h; let w := (0x4008000000000000 : Dword); s.quiet h = true ∧ m.iWord t (m.task t).pc (m.instr t) = some w ∧ m.fetches e.val 0x52 t = true) := by
  refine ⟨?_, ?_, ?_, ?_, ?_, ?_, ?_⟩ <;> decide

/-- The premises of each clause of DrillTimers can be met. -/
theorem witness_DrillTimers :
  (let s : State := drlS [0x80320fff, 0x7fffffff] (fun x => { x with lb := true, relDt := 250 }); let h : HalfId := .a; let e : Fin 8 := 0; let t : Nat := 0; let m := s.half h; let w := m.instr t; let a := iOpd w; s.quiet h = true ∧ a < 4096 ∧ m.fetches e.val 0x80 t = true) ∧
  (let s : State := drlS [0x81320fff, 0x7fffffff] (fun x => { x with lb := true, relDt := 250 }); let h : HalfId := .a; let e : Fin 8 := 0; let t : Nat := 0; let m := s.half h; let w := m.instr t; let a := iOpd w; s.quiet h = true ∧ a < 4096 ∧ m.fetches e.val 0x81 t = true) ∧
  (let s : State := drlS [0x82320fff, 0x7fffffff] (fun x => { x with lb := true, relDt := 250 }); let h : HalfId := .a; let e : Fin 8 := 0; let t : Nat := 0; let m := s.half h; let w := m.instr t; let a := iOpd w; s.quiet h = true ∧ a < 4096 ∧ m.fetches e.val 0x82 t = true) ∧
  (let s : State := drlS [0x83320fff, 0x7fffffff] (fun x => { x with lb := true, relDt := 250 }); let h : HalfId := .a; let e : Fin 8 := 0; let t : Nat := 0; let m := s.half h; let w := m.instr t; let a := iOpd w; s.quiet h = true ∧ a < 4096 ∧ m.fetches e.val 0x83 t = true) ∧
  (let s : State := drlS [0x84300fff] (fun x => { x with lb := true }); let h : HalfId := .a; let e : Fin 8 := 0; let t : Nat := 0; let m := s.half h; let w := m.instr t; let a := iOpd w; s.quiet h = true ∧ a < 4096 ∧ m.fetches e.val 0x84 t = true) ∧
  (let s : State := drlS [0x88400fff] (fun x => { x with lb := true, acc := 0x80000000 }); let h : HalfId := .a; let e : Fin 8 := 0; let t : Nat := 0; let m := s.half h; let w := m.instr t; let a := iOpd w; s.quiet h = true ∧ a < 4096 ∧ m.fetches e.val 0x88 t = true) ∧
  (let s : State := drlS [0x89400fff] (fun x => { x with lb := true, acc := 0x80000000 }); let h : HalfId := .a; let e : Fin 8 := 0; let t : Nat := 0; let m := s.half h; let w := m.instr t; let a := iOpd w; s.quiet h = true ∧ a < 4096 ∧ m.fetches e.val 0x89 t = true) ∧
  (let s : State := drlS [0x8a400fff] (fun x => { x with lb := true, acc := 0x80000000 }); let h : HalfId := .a; let e : Fin 8 := 0; let t : Nat := 0; let m := s.half h; let w := m.instr t; let a := iOpd w; s.quiet h = true ∧ a < 4096 ∧ m.fetches e.val 0x8A t = true) ∧
  (let s : State := drlS [0x8b400fff] (fun x => { x with lb := true, acc := 0x80000000 }); let h : HalfId := .a; let e : Fin 8 := 0; let t : Nat := 0; let m := s.half h; let w := m.instr t; let a := iOpd w; s.quiet h = true ∧ a < 4096 ∧ m.fetches e.val 0x8B t = true) ∧
  (let s : State := drlS [0x8c400fff, 0x80000000] (fun x => { x with lb := true, acc := 0x80000000 }); let h : HalfId := .a; let e : Fin 8 := 0; let t : Nat := 0; let m := s.half h; let w := m.instr t; let a := iOpd w; s.quiet h = true ∧ a < 4096 ∧ m.fetches e.val 0x8C t = true) := by
  refine ⟨?_, ?_, ?_, ?_, ?_, ?_, ?_, ?_, ?_, ?_⟩ <;> decide

/-- The premises of each clause of DrillSheafActions can be met. -/
theorem witness_DrillSheafActions :
  (let s : State := drlS [0xa10000ff] (fun x => { x with lb := true, acc := 0x3ff8000000000000 }); let h : HalfId := .a; let e : Fin 8 := 0; let t : Nat := 0; let m := s.half h; let x := m.past t; s.quiet h = true ∧ (m.periodActs t).length + x.acts.length < 64 ∧ m.fetches e.val 0xA1 t = true) ∧
  (let s : State := drlS [0xa20000ff, 0xea60] (fun x => { x with lb := true, acc := 0x3ff8000000000000 }); let h : HalfId := .a; let e : Fin 8 := 0; let t : Nat := 0; let m := s.half h; let x := m.past t; let ext := (m.code ((m.task t).pc + 1)).toNat; s.quiet h = true ∧ (m.periodActs t).length + x.acts.length < 64 ∧ 1 ≤ ext ∧ ext ≤ 60000 ∧ m.fetches e.val 0xA2 t = true) ∧
  (let s : State := drlS [0xa400003f] (fun x => { x with lb := true, acc := 0x3ff8000000000000 }); let h : HalfId := .a; let e : Fin 8 := 0; let t : Nat := 0; let m := s.half h; let x := m.past t; s.quiet h = true ∧ (m.periodActs t).length + x.acts.length < 64 ∧ m.fetches e.val 0xA4 t = true) ∧
  (let s : State := drlS [0xa0100040, 0x30] (fun x => { x with lb := true, acc := 0x3ff8000000000000 }); let h : HalfId := .a; let e : Fin 8 := 0; let t : Nat := 0; let m := s.half h; let x := m.past t; let w := m.instr t; let d := iOpd w; let ext := (m.code ((m.task t).pc + 1)).toNat; let i := 1; s.quiet h = true ∧ (m.periodActs t).length + x.acts.length < 64 ∧ m.iOut t d 0x3F = some i ∧ ext < 64 ∧ 1 ≤ ext % 32 ∧ ext % 32 ≤ 16 ∧ m.fetches e.val 0xA0 t = true) ∧
  (let s : State := drlS [0xa30001ff] (fun x => { x with lb := true, acc := 0x3ff8000000000000 }); let h : HalfId := .a; let e : Fin 8 := 0; let t : Nat := 0; let m := s.half h; let x := m.past t; let v := fdec f64 0x3ff8000000000000; s.quiet h = true ∧ (m.periodActs t).length + x.acts.length < 64 ∧ fdec f64 x.acc.toNat = v ∧ v ≠ .nan ∧ m.fetches e.val 0xA3 t = true) := by
  refine ⟨?_, ?_, ?_, ?_, ?_⟩ <;> decide

/-- The premises of each clause of DrillControl can be met. -/
theorem witness_DrillControl :
  (let s : State := drlS [0xc0000002, 0x0, 0x0] (fun x => { x with lb := true }); let h : HalfId := .a; let e : Fin 8 := 0; let t : Nat := 0; let m := s.half h; let w := m.instr t; let pc := (m.task t).pc; let tgt := fld w 0 17; s.quiet h = true ∧ pc < tgt ∧ tgt < m.drl.active.codeLen ∧ tgt ∉ m.drl.active.ext ∧ m.fetches e.val 0xC0 t = true) ∧
  (let s : State := drlS [0xc1000002, 0x0, 0x0] (fun x => { x with lb := true }); let h : HalfId := .a; let e : Fin 8 := 0; let t : Nat := 0; let m := s.half h; let w := m.instr t; let pc := (m.task t).pc; let tgt := fld w 0 17; s.quiet h = true ∧ pc < tgt ∧ tgt < m.drl.active.codeLen ∧ tgt ∉ m.drl.active.ext ∧ m.fetches e.val 0xC1 t = true) ∧
  (let s : State := drlS [0xc2000002, 0x0, 0x0] (fun x => { x with lb := true }); let h : HalfId := .a; let e : Fin 8 := 0; let t : Nat := 0; let m := s.half h; let w := m.instr t; let pc := (m.task t).pc; let tgt := fld w 0 17; s.quiet h = true ∧ pc < tgt ∧ tgt < m.drl.active.codeLen ∧ tgt ∉ m.drl.active.ext ∧ m.fetches e.val 0xC2 t = true) ∧
  (let s : State := drlS [0xc3000002, 0x0, 0x0] (fun x => { x with lb := true }); let h : HalfId := .a; let e : Fin 8 := 0; let t : Nat := 0; let m := s.half h; let x := m.past t; let w := m.instr t; let pc := (m.task t).pc; let tgt := fld w 0 17; s.quiet h = true ∧ pc < tgt ∧ tgt < m.drl.active.codeLen ∧ tgt ∉ m.drl.active.ext ∧ x.stack.length < 16 ∧ m.fetches e.val 0xC3 t = true) ∧
  (let s : State := drlS [0xc4000000] (fun x => { x with stack := [.call 9, .logic true] }); let h : HalfId := .a; let e : Fin 8 := 0; let t : Nat := 0; let m := s.half h; let x := m.past t; let a := 9; let l := [Stk.logic true]; s.quiet h = true ∧ x.stack = .call a :: l ∧ m.fetches e.val 0xC4 t = true) ∧
  (let s : State := drlS [0x0, 0xc5500040, 0x0] (fun x => { x with pc := 1, locals := [(1, 1)] }); let h : HalfId := .a; let e : Fin 8 := 0; let t : Nat := 0; let m := s.half h; let w := m.instr t; let pc := (m.task t).pc; let i := 1; s.quiet h = true ∧ iLoc (iOpd w) 0x3F = some i ∧ (m.code (pc + 1)).toNat ≤ pc ∧ (m.code (pc + 1)).toNat < m.drl.active.codeLen ∧ (m.code (pc + 1)).toNat ∉ m.drl.active.ext ∧ m.fetches e.val 0xC5 t = true) ∧
  (let s : State := inA (drlS [0xC6000000] (fun x => { x with steps := 7, maxs := 3, first := true, consec := 1 })) (fun m => { m with drl := { m.drl with active := { m.drl.active with tasks := [(0, { taskCfgReset with limit := 1 })] } } }); let h : HalfId := .a; let e : Fin 8 := 0; let t : Nat := 0; let m := s.half h; let x := m.past t; s.quiet h = true ∧ x.stack = [] ∧ m.periodActs t = [] ∧ x.acts = [] ∧ x.late = false ∧ x.safe = 0 ∧ 0 < (m.taskCfg t).limit ∧ m.fetches e.val 0xC6 t = true) := by
  refine ⟨?_, ?_, ?_, ?_, ?_, ?_, ?_⟩ <;> decide

/-- The premises of each clause of WordAccesses can be met. -/
theorem witness_WordAccesses :
  (let s : State := runS; let h : HalfId := .a; let r : Req := .core 3; let k : Nat := rSysIrqRoute 63; let v : Word := 0xFFFFFFFF; k < 2 ^ 20 ∧ s.reaches h r = true ∧ k ∈ plainRegs ∧ s.admits h r k v = true) ∧
  (let s : State := runS; let h : HalfId := .a; let r : Req := .core 3; let k : Nat := rSysIrqRoute 63; let c : Fin 4 := 3; let addr : Nat := 0xBFFFFFF8; k < 2 ^ 20 ∧ s.reaches h r = true ∧ r = .core c ∧ 0x80000000 ≤ addr ∧ addr + 8 ≤ 0xC0000000) ∧
  (let s : State := onS [0x020]; let h : HalfId := .a; let r : Req := .core 3; let k : Nat := rPtabWr + 4; let v : Word := 5; let m := (s.half h).ageStaged (reqNum r); k < 2 ^ 20 ∧ s.reaches h r = true ∧ ownReq r = true ∧ (m.checkWrite (reqClass r) k v).1 = 0 ∧ regWritable k = true ∧ (m.acc (reqNum r)).sheaf = none ∧ m.heldByOther none k = false ∧ (regShape k).1 ≠ k ∧ 1 < (regShape k).2.1) ∧
  (let s : State := inA runS (fun m => m.updAcc 3 (fun a => { a with staged := [(rPtabWr + 4, ⟨5, 256⟩)] })); let h : HalfId := .a; let r : Req := .core 3; let k : Nat := rPtabWr + 4; let w := (⟨5, 256⟩ : Staged); k < 2 ^ 20 ∧ s.reaches h r = true ∧ sfind ((s.half h).acc (reqNum r)).staged k = some w ∧ 256 ≤ w.age) ∧
  (let s : State := { runS with a := { runS.a with tai := 0x1234567890 } }; let h : HalfId := .a; let r : Req := .core 3; let k : Nat := 0x050; let m := (s.half h).ageStaged (reqNum r); let low : Nat := 0x050; let words : Nat := 2; k < 2 ^ 20 ∧ s.reaches h r = true ∧ ownReq r = true ∧ rsShape k = some (low, words) ∧ k % 4 = 0 ∧ m.checkRead (reqClass r) k = (0, 0) ∧ k / 4096 ∉ (m.acc (reqNum r)).pageSnaps ∧ k = low) ∧
  (let s : State := inA runS (fun m => m.updAcc 3 (fun a => { a with snaps := [(0x054, 7)] })); let h : HalfId := .a; let r : Req := .core 3; let k : Nat := 0x054; let m := (s.half h).ageStaged (reqNum r); let low : Nat := 0x050; let words : Nat := 2; let w := (7 : Word); k < 2 ^ 20 ∧ s.reaches h r = true ∧ ownReq r = true ∧ rsShape k = some (low, words) ∧ k % 4 = 0 ∧ m.checkRead (reqClass r) k = (0, 0) ∧ k / 4096 ∉ (m.acc (reqNum r)).pageSnaps ∧ k ≠ low ∧ sfind (m.acc (reqNum r)).snaps k = some w) := by
  refine ⟨?_, ?_, ?_, ?_, ?_, ?_⟩ <;> decide

/-- The premises of each clause of WakeOnAccess can be met. -/
theorem witness_WakeOnAccess :
  (let s : State := inA runS (fun m => { m with dir := [(0x080, ⟨false, false, false, false, false⟩)], regs := [(pgCtrl 0x080, 0x10)] }); let h : HalfId := .a; let page : Nat := 0x080; let x : Access := ⟨.core 0, 0x40080040, 4, true, 1⟩; s.reaches h x.req = true ∧ inPages x.addr = true ∧ page = (x.addr - 0x40000000) / 4096 ∧ alignOk x.req x.addr x.size = true ∧ (pageBlk page).isSome = true ∧ ((if x.write then (s.half h).rdB (pgAcl page) (8 + reqClass x.req) = true ∧ (s.half h).ready page = false else ((s.half h).checkRead (reqClass x.req) (x.addr - 0x40000000)).1 = 4)) ∧ (s.half h).mayStall x.req page = true) ∧
  (let s : State := inA runS (fun m => { m with dir := [(0x040, ⟨false, false, true, false, false⟩)] }); let h : HalfId := .a; let page : Nat := 0x040; s.quiet h = true ∧ ((s.half h).page page).waking = true ∧ ((∀ x ∈ (s.half h).stalled, x.addr / 4096 % 1024 ≠ page))) ∧
  (let s : State := inA runS (fun m => { m with dir := [(0x040, ⟨false, false, true, false, false⟩)], stalled := [⟨.core 0, 0x40040040, 4, true, 1⟩] }); let h : HalfId := .a; let page : Nat := 0x040; s.quiet h = true ∧ ((s.half h).page page).waking = true ∧ ((∀ x ∈ (s.half h).stalled, x.size ≠ 0))) := by
  refine ⟨?_, ?_, ?_⟩ <;> decide

/-- The premises of each clause of PageHeader can be met. -/
theorem witness_PageHeader :
  (let s : State := onS [0x040, 0x000, 0x001]; let h : HalfId := .a; let r : Req := .core 3; let page : Nat := 0x040; let v : Word := 1; ownReq r = true ∧ s.admits h r (pgCtrl page) (putFlag v 1 true) = true ∧ alwaysOn page = false ∧ (s.half h).inSheaf page = false ∧ (((s.half h).rdB (pgLock page) 0 = false ∨ reqClass r = 1))) ∧
  (let s : State := onS [0x040, 0x000, 0x001]; let h : HalfId := .a; let r : Req := .core 3; let page : Nat := 0x040; let v : Word := 0x101; ownReq r = true ∧ flag v 1 = false ∧ s.admits h r (pgCtrl page) (putFlag v 8 true) = true) ∧
  (let s : State := inA (onS [0x040]) (fun m => { m with regs := sput m.regs (pgIrqRaw 0x040) 7 }); let h : HalfId := .a; let r : Req := .core 3; let page : Nat := 0x040; let v : Word := 0xF; ownReq r = true ∧ s.admits h r (pgIrq page) v = true) ∧
  (let s : State := onS [0x040, 0x000, 0x001]; let h : HalfId := .a; let r : Req := .core 3; let page : Nat := 0x040; ownReq r = true ∧ s.admits h r (pgSnap page) 1 = true ∧ (s.half h).snapOk page = true) ∧
  (let s : State := onS [0x040, 0x000, 0x001]; let h : HalfId := .a; let r : Req := .core 3; let page : Nat := 0x040; ownReq r = true ∧ s.admits h r (pgSnap page) 2 = true) ∧
  (let s : State := onS [0x040, 0x000, 0x001]; let h : HalfId := .a; let r : Req := .core 3; let mask : BitVec 4 := 8; s.admits h r rSysCtrl (word (mask.toNat * 16)) = true) ∧
  (let s : State := onS [0x040, 0x000, 0x001]; let h : HalfId := .a; let r : Req := .core 3; s.admits h r rSysCtrl 1 = true) ∧
  (let s : State := onS [0x040, 0x000, 0x001]; let h : HalfId := .a; let r : Req := .ipp 0x1003; let v := 0xFFFE; s.once h r = true ∧ s.admits h r rSysModuleAddr v = true ∧ fld v 0 16 ≠ 0 ∧ fld v 0 16 ≠ 0xFFFF ∧ fld v 0 16 ≠ (s.half h).addr ∧ (s.half h).crossHeld = false ∧ (s.half h).fost.self ≠ 2 ∧ (s.half h).fost.self ≠ 3 ∧ ((s.half h).fslot 0).st = 0 ∧ ((s.half h).fslot 1).st = 0) ∧
  (let s : State := { runS with yoke := { runS.yoke with relay := true } }; let h : HalfId := .a; let r : Req := .core 3; let cold := true; s.once h r = true ∧ s.admits h r rSysCtrl (putFlag (putFlag 0 31 true) 30 cold) = true ∧ s.yoke.pwr.pfw = false ∧ s.yoke.granted = true) := by
  refine ⟨?_, ?_, ?_, ?_, ?_, ?_, ?_, ?_, ?_⟩ <;> decide

/-- The premises of each clause of SessionsEnd can be met. -/
theorem witness_SessionsEnd :
  (let s : State := inA (onS [0x012, 0x010, 0x011]) (fun m => { m with sess := [(511, { sessReset with gen := 5, isOpen := true, stamp := 0x2048 })] }); let h : HalfId := .a; let i : Fin 512 := 511; let x := (s.half h).ses i.val; s.quiet h = true ∧ x.isOpen = true ∧ x.since + x.idle * oneSec ≤ (s.half h).up) ∧
  (let s : State := inA (onS [0x012, 0x010, 0x011]) (fun m => { m with sess := [(511, { sessReset with gen := 5, isOpen := true, stamp := 0x2048 })] }); let h : HalfId := .a; let r : Req := .ipp 0x1001; let v : Word := 5 * 512 + 511; s.admits h r rSessClose v = true ∧ ((s.half h).ses (v.toNat % 512)).isOpen = true ∧ sessId (v.toNat % 512) ((s.half h).ses (v.toNat % 512)) = v.toNat % 2 ^ 16) ∧
  (let s : State := inA (onS [0x012, 0x010, 0x011]) (fun m => { m with sess := [(511, { sessReset with gen := 5, isOpen := true, stamp := 0x2048 })] }); let h : HalfId := .a; let r : Req := .ipp 0x1001; let v : Word := 1; s.admits h r rSessFlushTenant v = true ∧ v.toNat ≠ 0 ∧ v.toNat ≤ 63) ∧
  (let s : State := inA (onS [0x012, 0x010, 0x011]) (fun m => { m with sess := [(511, { sessReset with gen := 5, isOpen := true, stamp := 0x2048 })] }); let h : HalfId := .a; let r : Req := .ipp 0x1001; let v : Word := 0x81; let n : Fin 8 := 0; s.admits h r (rFenceTenBind n.val) v = true ∧ ¬ (flag v 7 = true ∧ fld v 0 6 = 0) ∧ v &&& 0xBF ≠ (s.half h).rd (rFenceTenBind n.val)) ∧
  (let s : State := onS [0x012, 0x010, 0x011]; let h : HalfId := .a; let r : Req := .ipp 0x1001; let v : Word := 1; s.admits h r rFenceClr v = true ∧ flag v 0 = true) ∧
  (let s : State := onS [0x012, 0x010, 0x011]; let h : HalfId := .a; let r : Req := .ipp 0x1001; let v : Word := 1; s.admits h r rPortsClr v = true ∧ flag v 0 = true) := by
  refine ⟨?_, ?_, ?_, ?_, ?_, ?_⟩ <;> decide

/-- The premises of each clause of IppPointRequests can be met. -/
theorem witness_IppPointRequests :
  (let s : State := ptsS id; let q : IppReq := reqOf (leBytes 4 1 ++ leBytes 4 (pointAddr 0x23 5)); let q1 : IppReq := (s.ippTaken { q with op := 1 }).getD q; let p : Nat := 0xA0; let i : Nat := 5; let h := s.primary; let m := s.half h; i < 0xFFFF ∧ m.addr < 2 ^ 16 ∧ m.heldAway i = false ∧ m.recOk i = true ∧ m.txPage q.port = some p ∧ s.ippTaken { q with op := 1 } = some q1 ∧ q.payload = leBytes 4 1 ++ leBytes 4 (pointAddr m.addr i)) ∧
  (let s : State := ptsS id; let q : IppReq := reqOf (leBytes 4 1 ++ leBytes 4 (pointAddr 0x23 5) ++ leBytes 4 16 ++ leBytes 8 0x80000000); let q1 : IppReq := (s.ippTaken { q with op := 2 }).getD q; let p : Nat := 0xA0; let i : Nat := 5; let h := s.primary; let m := s.half h; let st := m.ippStamp q.port; let l : Nat := 16; let v : Dword := 0x80000000; i < 0xFFFF ∧ m.addr < 2 ^ 16 ∧ m.heldAway i = false ∧ m.recOk i = true ∧ m.txPage q.port = some p ∧ s.ippTaken { q with op := 2 } = some q1 ∧ q.payload = leBytes 4 1 ++ leBytes 4 (pointAddr m.addr i) ++ leBytes 4 l ++ leBytes 8 v.toNat ∧ m.configured i = true ∧ m.commandable i = true ∧ m.forceOf i = none ∧ recType (m.pt i) = 3 ∧ m.fenceWrite (m.tcOf i) st l = 0 ∧ 1 ≤ l ∧ l ≤ 16 ∧ m.ptab.queue = [] ∧ v.toNat < 2 ^ 32) ∧
  (let s : State := ptsS id; let q : IppReq := reqOf (leBytes 4 1 ++ leBytes 4 (pointAddr 0x23 5) ++ leBytes 4 65535); let q1 : IppReq := (s.ippTaken { q with op := 3 }).getD q; let p : Nat := 0xA0; let i : Nat := 5; let h := s.primary; let m := s.half h; let st := m.ippStamp q.port; let ms : Nat := 65535; i < 0xFFFF ∧ m.addr < 2 ^ 16 ∧ m.heldAway i = false ∧ m.recOk i = true ∧ m.txPage q.port = some p ∧ s.ippTaken { q with op := 3 } = some q1 ∧ q.flags.testBit 1 = false ∧ ms < 2 ^ 16 ∧ q.payload = leBytes 4 1 ++ leBytes 4 (pointAddr m.addr i) ++ leBytes 4 ms ∧ m.configured i = true ∧ m.visible (m.tcOf i) st = true ∧ (m.chain i).all (fun e => match m.sub? e with | some x => decide (x.dest ≠ q1.session) | none => true) = true ∧ (m.ses (q1.session % 512)).subs < 256 ∧ (sfree m.ptab.subs 16384).isSome = true) ∧
  (let s : State := ptsS (fun m => { m with ptab := { m.ptab with subs := [(3, ⟨0, 5, 512, 0, none, false, 0xFFFF⟩)], recs := [(5, let r : PointRec := { ptRec 3 0x8800 7 with cov := 3 * 2 ^ 16 }; { r with check := recCheck r })] } }); let q : IppReq := reqOf (leBytes 4 1 ++ leBytes 4 (pointAddr 0x23 5)); let q1 : IppReq := (s.ippTaken { q with op := 4 }).getD q; let p : Nat := 0xA0; let i : Nat := 5; let h := s.primary; let m := s.half h; let e : Nat := 3; let x : Sub := (⟨0, 5, 512, 0, none, false, 0xFFFF⟩ : Sub); i < 0xFFFF ∧ m.addr < 2 ^ 16 ∧ m.heldAway i = false ∧ m.recOk i = true ∧ m.txPage q.port = some p ∧ s.ippTaken { q with op := 4 } = some q1 ∧ q.payload = leBytes 4 1 ++ leBytes 4 (pointAddr m.addr i) ∧ m.chain i = [e] ∧ m.sub? e = some x ∧ x.point = i ∧ x.kind = 0 ∧ x.dest = q1.session ∧ x.link = 0xFFFF ∧ m.sub? 0xFFFF = none) ∧
  (let s : State := ptsS id; let q : IppReq := reqOf (leBytes 4 1 ++ leBytes 4 31); let q1 : IppReq := (s.ippTaken { q with op := 9 }).getD q; let p : Nat := 0xA0; let i : Nat := 5; let h := s.primary; let m := s.half h; let seq : Word := 1; let n : Nat := 31; i < 0xFFFF ∧ m.addr < 2 ^ 16 ∧ m.heldAway i = false ∧ m.recOk i = true ∧ m.txPage q.port = some p ∧ s.ippTaken { q with op := 9 } = some q1 ∧ q.payload = leBytes 4 seq.toNat ++ leBytes 4 n ∧ n < 2 ^ 16) ∧
  (let s : State := ptsS id; let q : IppReq := reqOf (leBytes 4 1); let q1 : IppReq := (s.ippTaken { q with op := 10 }).getD q; let p : Nat := 0xA0; let i : Nat := 5; let h := s.primary; let m := s.half h; i < 0xFFFF ∧ m.addr < 2 ^ 16 ∧ m.heldAway i = false ∧ m.recOk i = true ∧ m.txPage q.port = some p ∧ s.ippTaken { q with op := 10 } = some q1 ∧ q.payload = leBytes 4 1) ∧
  (let s : State := ptsS id; let q : IppReq := reqOf (leBytes 4 0); let q1 : IppReq := (s.ippTaken { q with op := 10 }).getD q; let p : Nat := 0xA0; let i : Nat := 5; let h := s.primary; let m := s.half h; i < 0xFFFF ∧ m.addr < 2 ^ 16 ∧ m.heldAway i = false ∧ m.recOk i = true ∧ m.txPage q.port = some p ∧ s.ippTaken { q with op := 10 } = some q1 ∧ q.payload = leBytes 4 0) := by
  refine ⟨?_, ?_, ?_, ?_, ?_, ?_, ?_⟩ <;> decide

/-- The premises of each clause of IppPageRequests can be met. -/
theorem witness_IppPageRequests :
  (let s : State := ptsS id; let q : IppReq := reqOf (leBytes 4 (pointAddr 0x23 0x010) ++ leBytes 4 (pointAddr 0x80 1)); let q1 : IppReq := (s.ippTaken { q with op := 6 }).getD q; let p : Nat := 0xA0; let h := s.primary; let m := s.half h; let st := m.ippStamp q.port; let page : Nat := 0x010; let off : Nat := 0x80; m.addr < 2 ^ 16 ∧ m.txPage q.port = some p ∧ (s.view h).recov = false ∧ s.ippTaken { q with op := 6 } = some q1 ∧ off % 4 = 0 ∧ 0x40 ≤ off ∧ off ≤ 0xFFC ∧ page < 2 ^ 10 ∧ q.payload = leBytes 4 (pointAddr m.addr page) ++ leBytes 4 (pointAddr off 1) ∧ (pageBlk page).any (fun b => decide (b.1 = .fence) || decide (b.1 = .uiog) || decide (b.1 = .nvs) || decide (b.1 = .nci)) = true ∧ (regRow (page * 4096 + off)).any (fun x => decide (x.1.acc = .rw) && !x.1.perAcc) = true ∧ m.checkRead (stampClass st) (page * 4096 + off) = (0, 0)) ∧
  (let s : State := ptsS id; let q : IppReq := reqOf (leBytes 4 (pointAddr 0x23 0x012) ++ leBytes 4 (pointAddr (rSessSel % 4096) 1) ++ leBytes 4 511); let q1 : IppReq := (s.ippTaken { q with op := 7 }).getD q; let p : Nat := 0xA0; let h := s.primary; let m := s.half h; let st := m.ippStamp q.port; let v : Word := 511; m.addr < 2 ^ 16 ∧ m.txPage q.port = some p ∧ (s.view h).recov = false ∧ s.ippTaken { q with op := 7 } = some q1 ∧ q.payload = leBytes 4 (pointAddr m.addr 0x012) ++ leBytes 4 (pointAddr (rSessSel % 4096) 1) ++ leBytes 4 v.toNat ∧ m.admits (.ipp st) rSessSel v = true ∧ v.toNat ≤ 511) ∧
  (let s : State := (ptsS id).both (fun m => { m with upd := { m.upd with slots := m.upd.slots ++ [(1, { slotEmpty with st := 2, ver := 9 })] } }); let q : IppReq := reqOf (leBytes 4 1 ++ leBytes 4 9); let q1 : IppReq := (s.ippTaken { q with op := 11 }).getD q; let p : Nat := 0xA0; let h := s.primary; let m := s.half h; let st := m.ippStamp q.port; let slot : Nat := 1; let ver : Word := 9; m.addr < 2 ^ 16 ∧ m.txPage q.port = some p ∧ (s.view h).recov = false ∧ s.ippTaken { q with op := 11 } = some q1 ∧ slot < 2 ∧ q.payload = leBytes 4 slot ++ leBytes 4 ver.toNat ∧ s.actCheck slot ver false (stampClass st) = 0) ∧
  (let s : State := ptsS (fun m => { m with fwds := [⟨7, { reqOf [] with op := 1 }, 0xA, [leBytes 4 0 ++ leBytes 4 10], []⟩] }); let q : IppReq := reqOf []; let p : Nat := 0xA0; let h := s.primary; let m := s.half h; let id : Nat := 7; let x : Forward := (⟨7, { reqOf [] with op := 1 }, 0xA, [leBytes 4 0 ++ leBytes 4 10], []⟩ : Forward); m.addr < 2 ^ 16 ∧ m.txPage q.port = some p ∧ (s.view h).recov = false ∧ s.quiet h = true ∧ m.fwds.find? (fun x => decide (x.id = id)) = some x ∧ m.txPage x.req.port = some p ∧ x.req.port ≠ 5) := by
  refine ⟨?_, ?_, ?_, ?_⟩ <;> decide

/-- The premises of each clause of PointWrites can be met. -/
theorem witness_PointWrites :
  (let s : State := ptsS id; let h : HalfId := .a; let r : Req := .core 2; let m := s.half h; let n := reqNum r; let v : Word := 0x01110005; s.admits h r rPtabWr v = true ∧ (m.acc n).sheaf = none ∧ fld v 16 5 ≤ 17) ∧
  (let s : State := waitS 5 17 0xFFFFFFFF; let h : HalfId := .a; let m := s.half h; let w : PWrite := ⟨5, 17, false, false, 0xFFFFFFFF, none, 0x1001, .ipp⟩; let ws : List PWrite := []; let v : Dword := 0xFFFFFFFF; s.quiet h = true ∧ m.ptab.queue = w :: ws ∧ m.queuedFence w = 0 ∧ m.configured w.point = true ∧ m.recOk w.point = true ∧ m.forceOf w.point = none ∧ normalise (recType (m.pt w.point)) w.value = some v ∧ w.relinq = false ∧ 1 ≤ w.level ∧ m.commandable w.point = true ∧ w.level ≤ 17) ∧
  (let s : State := waitS 6 16 3; let h : HalfId := .a; let m := s.half h; let w : PWrite := ⟨6, 16, false, false, 3, none, 0x1001, .ipp⟩; let ws : List PWrite := []; let v : Dword := 3; s.quiet h = true ∧ m.ptab.queue = w :: ws ∧ m.queuedFence w = 0 ∧ m.configured w.point = true ∧ m.recOk w.point = true ∧ m.forceOf w.point = none ∧ normalise (recType (m.pt w.point)) w.value = some v ∧ w.relinq = false ∧ 1 ≤ w.level ∧ m.commandable w.point = false ∧ w.level ≤ 16 ∧ ((w.fromSource = true ∨ (m.pt w.point).srcBind = 0xFFFF))) ∧
  (let s : State := ptsS (fun m => { m with ptab := { m.ptab with outB := [(0, [0x100005 + 0x10000000])], out := [(0, ⟨none, 0, true⟩)] } }); let h : HalfId := .a; let m := s.half h; let b : Nat := 0; s.quiet h = true ∧ (m.outOf b).wait = true ∧ (m.outOf b).lastAt + bTiming (m.outDesc b) * oneMs ≤ m.up ∧ m.recOk (bPoint (m.outDesc b)) = true ∧ 1 ≤ bKind (m.outDesc b) ∧ bKind (m.outDesc b) ≤ 6) ∧
  (let s : State := inA (ptsS (fun m => { m with ptab := { m.ptab with subs := [(3, ⟨0, 5, 512, 0, none, true, 0xFFFF⟩)] } })) (fun m => { m with regs := sput m.regs rPtabCtrl 1 }); let h : HalfId := .a; let m := s.half h; let e : Nat := 3; let x : Sub := (⟨0, 5, 512, 0, none, true, 0xFFFF⟩ : Sub); s.quiet h = true ∧ m.covEn = true ∧ m.sub? e = some x ∧ x.held = true ∧ m.passed x.lastAt x.minNs = true ∧ m.recOk x.point = true) ∧
  (let s : State := inA (ptsS id) (fun m => { m with regs := sput m.regs rPtabCtrl 1 }); let h : HalfId := .a; let r : Req := .core 2; let m := s.half h; let v : Word := 0; s.admits h r rPtabCtrl v = true ∧ m.covEn = true ∧ flag v 0 = false) ∧
  (let s : State := ptsS (fun m => { m with regs := sput m.regs rPtabCtrl 0 }); let h : HalfId := .a; let r : Req := .core 2; let m := s.half h; let v : Word := 1; s.admits h r rPtabCtrl v = true ∧ m.covEn = false ∧ flag v 0 = true) ∧
  (let s : State := ptsS (fun m => { m with ptab := { m.ptab with srcB := [(1, [0x00060101, 0x00640000, 0, 0, 0, 0, 0x100, 0])] } }); let h : HalfId := .a; let m := s.half h; let b : Nat := 1; s.quiet h = true ∧ bEn (m.srcDesc b) = true ∧ bTiming (m.srcDesc b) ≠ 0 ∧ m.configured (bPoint (m.srcDesc b)) = true ∧ (m.pt (bPoint (m.srcDesc b))).quality.getLsbD 1 = false) := by
  refine ⟨?_, ?_, ?_, ?_, ?_, ?_, ?_, ?_⟩ <;> decide

/-- The premises of each clause of PointConfiguration can be met. -/
theorem witness_PointConfiguration :
  (let s : State := inA (ptsS id) (fun m => (m.setView 2 rPtabSel 0x3FFF).setView 2 rPtabCfg 0x30000800); let h : HalfId := .a; let r : Req := .core 2; let m := s.half h; let n := reqNum r; let i := m.selPoint; let c := m.view n rPtabCfg; s.admits h r rPtabCmd 1 = true ∧ i < 0xFFFF ∧ fld c 28 4 < 10 ∧ ((fld c 11 1 = 1 → i < 0x4000)) ∧ m.forceOf i = none ∧ (m.prio i).outb = 0xFFFF) ∧
  (let s : State := inA (ptsS id) (fun m => { m with regs := sput m.regs rPtabSel 6 }); let h : HalfId := .a; let r : Req := .core 2; let m := s.half h; let i := m.selPoint; s.admits h r rPtabCmd 2 = true ∧ m.configured i = true ∧ (m.pt i).srcBind = 0xFFFF ∧ (m.prio i).outb = 0xFFFF ∧ m.forceOf i = none ∧ m.reflexOn i = false) ∧
  (let s : State := inA (ptsS id) (fun m => { m with regs := sput m.regs rPtabSel 5 }); let h : HalfId := .a; let r : Req := .core 2; let m := s.half h; let i := m.selPoint; s.admits h r rPtabCmd 3 = true ∧ m.configured i = true ∧ m.commandable i = true ∧ m.forceOf i = none ∧ (m.prio i).occ ≠ []) ∧
  (let s : State := inA (ptsS id) (fun m => { m with regs := sput m.regs rPtabSel 5 }); let h : HalfId := .a; let r : Req := .core 2; let v : Word := 0x12345FFF; let m := s.half h; let i := m.selPoint; s.admits h r rPtabCfg v = true ∧ m.configured i = true) ∧
  (let s : State := inA (ptsS id) (fun m => { m with regs := sput m.regs rPtabSel 5 }); let h : HalfId := .a; let r : Req := .core 2; let v : Word := 0x12345678; let m := s.half h; let i := m.selPoint; s.admits h r rPtabCov v = true ∧ m.configured i = true) ∧
  (let s : State := ptsS (fun m => { m with ptab := { m.ptab with srcB := [(0, [0, 0, 0, 0, 0, 0, 0x100, 0])] } }); let h : HalfId := .a; let r : Req := .core 2; let v : Word := 0x00060101; let m := s.half h; let n := reqNum r; let g := m.ageStaged n; let out := m.rdB rPtabBindSel 15; let b := m.rdF rPtabBindSel 0 15; let ws := maskWords (bindBits out) (v :: (List.range 7).map (fun j => (g.stagedWord n (rPtabBind + 4 * (j + 1))).getD ((m.bindDesc out b).getD (j + 1) 0))); s.admits h r rPtabBind v = true ∧ ((out = true → b < 16384)) ∧ (m.bindCheck out b ws).1 = 0) ∧
  (let s : State := inA (ptsS (fun m => { m with ptab := { m.ptab with outB := [(0, [0x00050101])], prio := [(5, { prioReset with vals := [(10, 7)], occ := [10], outb := 0 })] } })) (fun m => ({ m with regs := sput m.regs (rUiogMode 0 0) 5 }).updAcc 2 (fun a => { a with staged := [(rRfxBind + 4, ⟨5, 0⟩)] })); let h : HalfId := .a; let r : Req := .core 2; let v : Word := 0x910A0000; let m := s.half h; let n := reqNum r; let g := m.ageStaged n; let k := m.rdF rRfxBindSel 0 10; let ws := maskWords [0xFF1FFFFF, 0xFFFF] (v :: (List.range 5).map (fun j => (g.stagedWord n (rRfxBind + 4 * (j + 1))).getD ((m.reflex k).words.getD (j + 1) 0))); s.admits h r rRfxBind v = true ∧ m.reflexCheck k ws = 0) ∧
  (let s : State := ptsS id; let h : HalfId := .a; let r : Req := .core 2; let v : Word := 1; s.admits h r rPtabClr v = true ∧ flag v 0 = true) := by
  refine ⟨?_, ?_, ?_, ?_, ?_, ?_, ?_, ?_⟩ <;> decide

/-- The premises of each clause of SheafCommands can be met. -/
theorem witness_SheafCommands :
  (let s : State := inA (onS [0x021]) (fun m => { m with shf := { m.shf with slots := (List.range 22).map (fun i => (i + 9, { slotReset with state := 1 })) } }); let h : HalfId := .a; let r : Req := .core 2; let v : Word := 1; let slot : Fin 32 := 31; let m := s.half h; let n := reqNum r; let i := slot.val; s.admits h r rShfOpen v = true ∧ flag v 0 = true ∧ (m.acc n).sheaf = none ∧ m.freeSlot = some i) ∧
  (let s : State := (slotS 31 { slotReset with state := 1, owner := 2, acts := List.replicate 63 evAct }).upd .a (fun m => m.updAcc 2 (fun a => { a with staged := [(rShfAdd + 4, ⟨1, 0⟩), (rShfAdd + 8, ⟨2, 0⟩)] })); let h : HalfId := .a; let r : Req := .core 2; let v : Word := 0x009009C0; let slot : Fin 32 := 31; let m := s.half h; let n := reqNum r; let i := slot.val; let g := m.ageStaged n; let w (j : Nat) : Word := (g.stagedWord n (rShfAdd + 4 * j)).getD 0; let md := fld (w 3) 0 16; let a : Act := ⟨fld v 20 4, fld v 0 16, fld v 24 8, dword (w 1) (w 2), if md = m.addr then 0 else md, if fld v 20 4 = 8 then m.gBuf n else [], reqStamp r, false⟩; s.admits h r rShfAdd v = true ∧ (m.acc n).sheaf = some i ∧ g.actCheck (s.view h) i a = 0) ∧
  (let s : State := slotS 31 { slotReset with state := 1, owner := 2, acts := [evAct] }; let h : HalfId := .a; let r : Req := .core 2; let v : Word := 1; let slot : Fin 32 := 31; let m := s.half h; let n := reqNum r; let i := slot.val; let x := m.slot i; s.admits h r rShfAbort v = true ∧ flag v 0 = true ∧ (m.acc n).sheaf = some i ∧ x.owner = n ∧ x.state = 1 ∧ x.firstPg = 0 ∧ x.rsp = none) ∧
  (let s : State := slotS 31 { slotReset with state := 1, owner := 2, acts := [evAct, evAct] }; let h : HalfId := .a; let r : Req := .core 2; let v : Word := 1; let slot : Fin 32 := 31; let m := s.half h; let n := reqNum r; let i := slot.val; let x := m.slot i; let f : Nat := 5; s.admits h r rShfCommit v = true ∧ flag v 0 = true ∧ (m.acc n).sheaf = some i ∧ x.owner = n ∧ x.state = 1 ∧ x.isCoord = false ∧ x.cross = false ∧ x.rsp = none ∧ x.waitAt = none ∧ ((∀ a ∈ x.acts, a.kind = 9 ∧ a.module_ = 0)) ∧ m.sheavesIdle = true ∧ s.yoke.pwr.pfw = false ∧ m.grn.frozen = false ∧ m.jPlace (jNeed x.acts.length) = some f ∧ ((∀ z ∈ m.uio.held, z.owner ≠ i))) ∧
  (let s : State := (slotS 31 { slotReset with state := 1, owner := 2, acts := [evAct] }).upd .a (fun m => { m with up := 300000000000 }); let h : HalfId := .a; let slot : Fin 32 := 31; let m := s.half h; let i := slot.val; let x := m.slot i; s.quiet h = true ∧ x.state = 1 ∧ i ∉ m.shf.cq ∧ x.openedAt + m.rdF rShfCtrl 0 16 * oneMs ≤ m.up ∧ x.owner ≤ 5 ∧ x.firstPg = 0 ∧ x.rsp = none) ∧
  (let s : State := (slotS 31 { slotReset with state := 1, owner := 2, acts := [evAct], waitAt := some 0 }).upd .a (fun m => { m with up := 1000000, shf := { m.shf with cq := [31] } }); let h : HalfId := .a; let slot : Fin 32 := 31; let m := s.half h; let i := slot.val; let x := m.slot i; let since : Nat := 0; s.quiet h = true ∧ x.waitAt = some since ∧ since + oneMs ≤ m.up ∧ x.state = 1 ∧ m.shf.cq = [i] ∧ m.tlr.jobs = [] ∧ m.drl.jobs = [] ∧ x.owner ≤ 5 ∧ x.firstPg = 0 ∧ x.rsp = none) ∧
  (let s : State := slotS 31 { slotReset with state := 3, owner := 2, acts := [⟨6, 0x0001, 8, 5, 0, [], 0, false⟩, ⟨6, 0x0001, 8, 5, 0, [], 0, false⟩], seq := 5 }; let h : HalfId := .a; let slot : Fin 32 := 31; let m := s.half h; let i := slot.val; let x := m.slot i; let k : Nat := 0; let j : Nat := 1; let a : Act := (⟨6, 0x0001, 8, 5, 0, [], 0, false⟩ : Act); let b : Act := (⟨6, 0x0001, 8, 5, 0, [], 0, false⟩ : Act); s.quiet h = true ∧ x.state = 3 ∧ x.locals[k]? = some a ∧ a.applied = false ∧ isMsg a = true ∧ x.locals[j]? = some b ∧ b.applied = false ∧ j ≠ k ∧ m.grn.frozen = false ∧ m.sheavesIdle = true) ∧
  (let s : State := ptsS (fun m => { m with shf := { m.shf with slots := (List.range 22).map (fun i => (i + 9, { slotReset with state := 1 })) } }); let h : HalfId := .a; let slot : Fin 32 := 31; let m := s.half h; let i := slot.val; let q : IppReq := reqOf (leBytes 4 1 ++ leBytes 4 0 ++ leBytes 2 0x23 ++ [9, 0] ++ leBytes 4 0x09C0 ++ leBytes 8 0x1122334455667788); let q1 : IppReq := (s.ippTaken { q with op := 8 }).getD q; let p : Nat := 0xA0; let target : Nat := 0x09C0; let f : Nat := 5; let d : Dword := 0x1122334455667788; h = s.primary ∧ s.ippTaken { q with op := 8 } = some q1 ∧ q.payload = leBytes 4 1 ++ leBytes 4 0 ++ leBytes 2 m.addr ++ [9, 0] ++ leBytes 4 target ++ leBytes 8 d.toNat ∧ m.addr < 2 ^ 16 ∧ 0x09C0 ≤ target ∧ target ≤ 0x09FF ∧ stampClass (m.ippStamp q.port) ≠ 2 ∧ m.freeSlot = some i ∧ m.sheavesIdle = true ∧ m.grn.frozen = false ∧ m.jPlace 1 = some f ∧ ((∀ z ∈ m.uio.held, z.owner ≠ i)) ∧ m.txPage q.port = some p) := by
  refine ⟨?_, ?_, ?_, ?_, ?_, ?_, ?_, ?_⟩ <;> decide

/-- The premises of each clause of CrossModuleSheaves can be met. -/
theorem witness_CrossModuleSheaves :
  (let s : State := (ringS 31 slotReset).upd .a (fun m => { m with shf := { m.shf with slots := (List.range 22).map (fun i => (i + 9, { slotReset with state := 1 })) } }); let h : HalfId := .a; let slot : Fin 32 := 31; let f : MzFrame := fr 0x20 (leBytes 4 6 ++ leBytes 8 0 ++ [1, 0, 0, 0] ++ [9, 0] ++ leBytes 2 0x09FF ++ leBytes 8 3); let p : Nat := 0; let m := s.half h; let i := slot.val; let seq := mzWord f 0; let target : Nat := 0x09FF; let place : Nat := 5; let d : Dword := 3; s.quiet h = true ∧ s.ringOpen h p = true ∧ m.sheavesIdle = true ∧ f.dest = m.addr ∧ m.partSlot f.src seq = none ∧ m.freeSlot = some i ∧ m.tai.toNat ≤ leAt f.payload 4 8 ∧ leAt f.payload 12 1 = 1 ∧ f.payload.drop 16 = [9, 0] ++ leBytes 2 target ++ leBytes 8 d.toNat ∧ 0x09C0 ≤ target ∧ target ≤ 0x09FF ∧ stampClass f.stamp ≠ 2 ∧ s.yoke.pwr.pfw = false ∧ m.grn.frozen = false ∧ m.jPlace 1 = some place) ∧
  (let s : State := ringS 31 { slotReset with owner := 2, coord := 0x23, coordSeq := 6, cross := true, isCoord := true, acts := [{ evAct with module_ := 0x31 }, { evAct with module_ := 0x32 }], parts := [⟨0x31, false, false⟩, ⟨0x32, false, false⟩], state := 2, deadline := 100 }; let h : HalfId := .a; let slot : Fin 32 := 31; let f : MzFrame := fr 0x21 (leBytes 4 6 ++ [1, 0, 0xFF, 0]); let p : Nat := 0; let m := s.half h; let i := slot.val; let x := m.slot i; let seq := mzWord f 0; s.quiet h = true ∧ s.ringOpen h p = true ∧ m.sheavesIdle = true ∧ m.mzMine f = true ∧ m.coordSlot seq = some i ∧ x.state = 2 ∧ leAt f.payload 4 1 = 1 ∧ m.tai.toNat ≤ x.deadline.toNat ∧ x.parts.any (fun q => decide (q.addr = f.src)) = true ∧ x.parts.any (fun q => decide (q.addr ≠ f.src) && !q.voted) = true) ∧
  (let s : State := ringS 31 { slotReset with owner := 2, coord := 0x23, coordSeq := 6, cross := true, isCoord := true, acts := [{ evAct with module_ := 0x31 }, { evAct with module_ := 0x32 }], parts := [⟨0x31, false, false⟩, ⟨0x32, true, false⟩], state := 2, deadline := 100 }; let h : HalfId := .a; let slot : Fin 32 := 31; let f : MzFrame := fr 0x21 (leBytes 4 6 ++ [1, 0, 0xFF, 0]); let p : Nat := 0; let m := s.half h; let i := slot.val; let x := m.slot i; let seq := mzWord f 0; s.quiet h = true ∧ s.ringOpen h p = true ∧ m.sheavesIdle = true ∧ m.mzMine f = true ∧ m.coordSlot seq = some i ∧ x.state = 2 ∧ leAt f.payload 4 1 = 1 ∧ m.tai.toNat ≤ x.deadline.toNat ∧ x.parts.any (fun q => decide (q.addr = f.src)) = true ∧ x.parts.all (fun q => decide (q.addr = f.src) || q.voted) = true ∧ x.owner ≤ 5) ∧
  (let s : State := (ringS 31 { slotReset with owner := 2, coord := 0x23, coordSeq := 6, cross := true, isCoord := true, acts := [{ evAct with module_ := 0x31 }, { evAct with module_ := 0x32 }], parts := [⟨0x31, false, false⟩, ⟨0x32, true, false⟩], state := 2, deadline := 100 }).upd .a (fun m => { m with tai := 101 }); let h : HalfId := .a; let slot : Fin 32 := 31; let p : Nat := 0; let m := s.half h; let i := slot.val; let x := m.slot i; s.quiet h = true ∧ s.ringOpen h p = true ∧ m.sheavesIdle = true ∧ x.state = 2 ∧ x.isCoord = true ∧ x.deadline.toNat < m.tai.toNat ∧ x.owner ≤ 5 ∧ x.rsp = none) ∧
  (let s : State := ringS 31 { slotReset with owner := 17, coord := 0x31, coordSeq := 6, cross := true, acts := [evAct], state := 2 }; let h : HalfId := .a; let slot : Fin 32 := 31; let f : MzFrame := fr 0x22 (leBytes 4 6 ++ leBytes 4 0); let p : Nat := 0; let m := s.half h; let i := slot.val; let x := m.slot i; let seq := mzWord f 0; s.quiet h = true ∧ s.ringOpen h p = true ∧ m.sheavesIdle = true ∧ m.mzMine f = true ∧ m.partSlot f.src seq = some i ∧ x.owner = 17 ∧ x.state = 2 ∧ x.isCoord = false ∧ m.grn.frozen = false) ∧
  (let s : State := ringS 31 { slotReset with owner := 17, coord := 0x31, coordSeq := 6, cross := true, acts := [evAct], state := 3 }; let h : HalfId := .a; let slot : Fin 32 := 31; let f : MzFrame := fr 0x22 (leBytes 4 6 ++ leBytes 4 0); let p : Nat := 0; let m := s.half h; let i := slot.val; let x := m.slot i; let seq := mzWord f 0; s.quiet h = true ∧ s.ringOpen h p = true ∧ m.sheavesIdle = true ∧ m.mzMine f = true ∧ m.partSlot f.src seq = some i ∧ x.owner = 17 ∧ x.state = 3) ∧
  (let s : State := ringS 31 { slotReset with owner := 17, coord := 0x31, coordSeq := 6, cross := true, acts := [evAct], state := 2 }; let h : HalfId := .a; let slot : Fin 32 := 31; let f : MzFrame := fr 0x23 (leBytes 4 6 ++ leBytes 4 0); let p : Nat := 0; let m := s.half h; let i := slot.val; let x := m.slot i; let seq := mzWord f 0; s.quiet h = true ∧ s.ringOpen h p = true ∧ m.sheavesIdle = true ∧ m.mzMine f = true ∧ m.partSlot f.src seq = some i ∧ x.owner = 17 ∧ x.state = 2 ∧ x.isCoord = false ∧ x.rsp = none) ∧
  (let s : State := ringS 31 { slotReset with owner := 2, coord := 0x23, coordSeq := 6, cross := true, isCoord := true, acts := [{ evAct with module_ := 0x31 }, { evAct with module_ := 0x32 }], parts := [⟨0x31, false, false⟩, ⟨0x32, true, false⟩], state := 3, deadline := 100 }; let h : HalfId := .a; let slot : Fin 32 := 31; let f : MzFrame := fr 0x24 (leBytes 4 6 ++ leBytes 4 0); let p : Nat := 0; let m := s.half h; let i := slot.val; let x := m.slot i; let seq := mzWord f 0; s.quiet h = true ∧ s.ringOpen h p = true ∧ m.sheavesIdle = true ∧ m.mzMine f = true ∧ m.coordSlot seq = some i ∧ x.state = 3 ∧ x.isCoord = true ∧ m.shf.aborts = [] ∧ x.parts.any (fun q => decide (q.addr ≠ f.src) && !q.acked) = true) ∧
  (let s : State := ringS 31 { slotReset with owner := 2, coord := 0x23, coordSeq := 6, cross := true, isCoord := true, acts := [{ evAct with module_ := 0x31 }, { evAct with module_ := 0x32 }], parts := [⟨0x31, false, false⟩, ⟨0x32, true, false⟩], state := 3, deadline := 100 }; let h : HalfId := .a; let slot : Fin 32 := 31; let p : Nat := 0; let m := s.half h; let i := slot.val; let x := m.slot i; s.quiet h = true ∧ s.ringOpen h p = true ∧ m.sheavesIdle = true ∧ x.state = 3 ∧ x.isCoord = true ∧ m.shf.aborts = []) ∧
  (let s : State := (ringS 31 { slotReset with owner := 2, coord := 0x23, coordSeq := 6, cross := true, isCoord := true, acts := [{ evAct with module_ := 0x31 }, { evAct with module_ := 0x32 }], parts := [⟨0x31, false, false⟩, ⟨0x32, true, false⟩], state := 3, deadline := 100 }).upd .a (fun m => { m with up := 300000000000 }); let h : HalfId := .a; let slot : Fin 32 := 31; let p : Nat := 0; let m := s.half h; let i := slot.val; let x := m.slot i; s.quiet h = true ∧ s.ringOpen h p = true ∧ m.sheavesIdle = true ∧ x.state = 3 ∧ x.isCoord = true ∧ m.shf.aborts = [] ∧ x.owner ≤ 5 ∧ x.votedAt + m.rdF rShfCtrl 24 8 * oneSec ≤ m.up ∧ x.locals.all (·.applied) = true) ∧
  (let s : State := ringS 31 { slotReset with owner := 17, coord := 0x31, coordSeq := 6, cross := true, acts := [evAct], state := 2 }; let h : HalfId := .a; let slot : Fin 32 := 31; let p : Nat := 0; let m := s.half h; let i := slot.val; let x := m.slot i; s.quiet h = true ∧ s.ringOpen h p = true ∧ m.sheavesIdle = true ∧ x.state = 2 ∧ x.owner = 17) ∧
  (let s : State := (ringS 31 { slotReset with owner := 17, coord := 0x31, coordSeq := 6, cross := true, acts := [evAct], state := 2 }).upd .a (fun m => { m with up := 300000000000 }); let h : HalfId := .a; let slot : Fin 32 := 31; let p : Nat := 0; let m := s.half h; let i := slot.val; let x := m.slot i; s.quiet h = true ∧ s.ringOpen h p = true ∧ m.sheavesIdle = true ∧ x.state = 2 ∧ x.owner = 17 ∧ x.isCoord = false ∧ x.votedAt + m.rdF rShfCtrl 24 8 * oneSec ≤ m.up ∧ x.rsp = none) ∧
  (let s : State := ringS 31 { slotReset with owner := 17, coord := 0x31, coordSeq := 6, cross := true, acts := [evAct], state := 2 }; let h : HalfId := .a; let f : MzFrame := fr 0x25 (leBytes 4 6 ++ [0, 0, 0, 0]); let p : Nat := 0; let m := s.half h; s.quiet h = true ∧ s.ringOpen h p = true ∧ m.sheavesIdle = true ∧ m.mzMine f = true ∧ leAt f.payload 4 1 = 0) ∧
  (let s : State := ringS 31 { slotReset with owner := 17, coord := 0x31, coordSeq := 6, cross := true, acts := [evAct], state := 2 }; let h : HalfId := .a; let slot : Fin 32 := 31; let f : MzFrame := fr 0x25 (leBytes 4 6 ++ [2, 0, 0, 0]); let p : Nat := 0; let m := s.half h; let i := slot.val; let x := m.slot i; let seq := mzWord f 0; s.quiet h = true ∧ s.ringOpen h p = true ∧ m.sheavesIdle = true ∧ m.mzMine f = true ∧ leAt f.payload 4 1 = 2 ∧ m.partSlot f.src seq = some i ∧ x.state = 2 ∧ x.owner = 17 ∧ x.isCoord = false ∧ x.rsp = none) := by
  refine ⟨?_, ?_, ?_, ?_, ?_, ?_, ?_, ?_, ?_, ?_, ?_, ?_, ?_, ?_⟩ <;> decide

/-- The premises of each clause of DrillTasks can be met. -/
theorem witness_DrillTasks :
  (let s : State := taskS (fun x => { x with st := 1 }); let h : HalfId := .a; let t : Fin 64 := 0; let m := s.half h; let x := m.task t.val; let c := m.taskCfg t.val; s.quiet h = true ∧ m.sheavesIdle = true ∧ m.on (0x030 + c.engine) = true ∧ m.hasTask t.val = true ∧ m.relDue t.val = true ∧ ((∀ i ∈ m.taskReads t.val, m.recOk i = true)) ∧ x.st = 1 ∧ x.safe = 0 ∧ m.drl.swap ≠ 2) ∧
  (let s : State := inA (taskS (fun x => { x with st := 1 })) (fun m => { m with drl := { m.drl with swap := 2 } }); let h : HalfId := .a; let t : Fin 64 := 0; let m := s.half h; let x := m.task t.val; let c := m.taskCfg t.val; s.quiet h = true ∧ m.sheavesIdle = true ∧ m.on (0x030 + c.engine) = true ∧ m.hasTask t.val = true ∧ m.relDue t.val = true ∧ ((∀ i ∈ m.taskReads t.val, m.recOk i = true)) ∧ x.st = 1 ∧ x.safe = 0 ∧ m.drl.swap = 2) ∧
  (let s : State := taskS (fun x => { x with st := 3 }); let h : HalfId := .a; let t : Fin 64 := 0; let m := s.half h; let x := m.task t.val; let c := m.taskCfg t.val; s.quiet h = true ∧ m.sheavesIdle = true ∧ m.on (0x030 + c.engine) = true ∧ m.hasTask t.val = true ∧ m.relDue t.val = true ∧ ((∀ i ∈ m.taskReads t.val, m.recOk i = true)) ∧ x.st ≠ 0 ∧ x.st ≠ 6 ∧ ¬ (x.st = 1 ∧ x.safe = 0) ∧ x.consec + 1 < c.limit ∧ x.consec < 15) ∧
  (let s : State := taskS1 (fun x => { x with st := 4, safe := 2 }); let h : HalfId := .a; let t : Fin 64 := 0; let m := s.half h; let x := m.task t.val; let c := m.taskCfg t.val; s.quiet h = true ∧ m.sheavesIdle = true ∧ x.safe ≠ 0 ∧ (m.slot c.engine).state ≠ 0) ∧
  (let s : State := taskS (fun x => { x with st := 6 }); let h : HalfId := .a; let r : Req := .core 2; let t : Fin 64 := 0; let m := s.half h; let x := m.task t.val; let p := m.rdF rDrlcFrcBase 0 8; let mayFault := m.gMay 3 p && m.gMay 3 (p + 1); m.selTask = t.val ∧ m.hasTask t.val = true ∧ s.admits h r rDrlcTaskCmd 1 = true ∧ x.st = 6 ∧ mayFault = true) ∧
  (let s : State := taskS (fun x => { x with st := 3 }); let h : HalfId := .a; let r : Req := .core 2; let t : Fin 64 := 0; let m := s.half h; let p := m.rdF rDrlcFrcBase 0 8; let mayFault := m.gMay 3 p && m.gMay 3 (p + 1); m.selTask = t.val ∧ m.hasTask t.val = true ∧ s.admits h r rDrlcTaskCmd 2 = true ∧ mayFault = true ∧ m.sheavesIdle = true) ∧
  (let s : State := taskS1 (fun x => { x with st := 3 }); let h : HalfId := .a; let r : Req := .core 2; let t : Fin 64 := 0; let m := s.half h; let x := m.task t.val; let c := m.taskCfg t.val; let p := m.rdF rDrlcFrcBase 0 8; let mayFault := m.gMay 3 p && m.gMay 3 (p + 1); m.selTask = t.val ∧ m.hasTask t.val = true ∧ s.admits h r rDrlcTaskCmd 0x102 = true ∧ x.safe = 0 ∧ mayFault = true ∧ m.sheavesIdle = true ∧ (m.slot c.engine).state ≠ 0) ∧
  (let s : State := taskS (fun x => { x with st := 0 }); let h : HalfId := .a; let r : Req := .core 2; let t : Fin 64 := 0; let m := s.half h; let x := m.task t.val; m.selTask = t.val ∧ m.hasTask t.val = true ∧ s.admits h r rDrlcTaskCmd 3 = true ∧ x.st = 0) ∧
  (let s : State := taskS (fun x => { x with st := 0 }); let h : HalfId := .a; let r : Req := .core 2; let t : Fin 64 := 0; let m := s.half h; m.selTask = t.val ∧ m.hasTask t.val = true ∧ s.admits h r rDrlcTaskCmd 4 = true) ∧
  (let s : State := inA (taskS (fun x => { x with st := 1 })) (fun m => { m with regs := sput m.regs rDrlcCtrl 1 }); let h : HalfId := .a; let r : Req := .core 2; let v : Word := 0; let m := s.half h; let p := m.rdF rDrlcFrcBase 0 8; let mayFault := m.gMay 3 p && m.gMay 3 (p + 1); s.admits h r rDrlcCtrl v = true ∧ m.rdB rDrlcCtrl 0 = true ∧ flag v 0 = false ∧ mayFault = true) ∧
  (let s : State := inA (taskS (fun x => { x with st := 0 })) (fun m => { m with regs := sput m.regs rDrlcCtrl 0 }); let h : HalfId := .a; let r : Req := .core 2; let v : Word := 1; let m := s.half h; s.admits h r rDrlcCtrl v = true ∧ m.rdB rDrlcCtrl 0 = false ∧ flag v 0 = true) ∧
  (let s : State := inA (onS [0x037]) (fun m => { m with regs := sput m.regs (rDrlMinIdle 7) 5 }); let h : HalfId := .a; let r : Req := .core 2; let v : Word := 1; let e : Fin 8 := 7; s.admits h r (rDrlClr e.val) v = true ∧ flag v 0 = true) := by
  refine ⟨?_, ?_, ?_, ?_, ?_, ?_, ?_, ?_, ?_, ?_, ?_, ?_⟩ <;> decide

/-- The premises of each clause of SwapAndForces can be met. -/
theorem witness_SwapAndForces :
  (let s : State := swapS 0 progB; let h : HalfId := .a; let r : Req := .core 2; let v : Word := 9; let m := s.half h; s.admits h r rDrlcSwap v = true ∧ m.drl.swap = 0) ∧
  (let s : State := swapS 1 progB; let h : HalfId := .a; let r : Req := .core 2; let v : Word := 9; let m := s.half h; s.admits h r rDrlcSwap v = true ∧ m.drl.swap ≠ 0) ∧
  (let s : State := swapS 1 progB; let h : HalfId := .a; let m := s.half h; let o := other h; s.quiet h = true ∧ m.drl.swap = 1 ∧ m.drl.shadow.valid = true ∧ m.drl.shadow.crcOk = true ∧ m.drl.shadow.id = m.drl.swapId ∧ (((s.role o ≠ .inCharge ∧ s.role o ≠ .follower) ∨ s.yoke.xup = false ∨ (s.half o).drl.shadow.crc = m.drl.shadow.crc))) ∧
  (let s : State := swapS 1 programReset; let h : HalfId := .a; let m := s.half h; s.quiet h = true ∧ m.drl.swap = 1 ∧ m.drl.shadow.valid = false) ∧
  (let s : State := swapS 2 progB; let h : HalfId := .a; let m := s.half h; s.quiet h = true ∧ m.drl.swap = 2 ∧ m.drained = true ∧ m.sheavesIdle = true ∧ ((∀ e ∈ m.drl.active.tasks, (sfind m.drl.shadow.tasks e.1).isSome = true))) ∧
  (let s : State := swapS 2 progB; let h : HalfId := .a; let m := s.half h; s.quiet h = true ∧ m.drl.swap = 2) ∧
  (let s : State := taskS id; let h : HalfId := .a; let r : Req := .core 2; let v : Word := 0x803F0008; let m := s.half h; let kind : Nat := 2; let addr : Nat := 8; let bit : Nat := 63; let k : Nat := 0; kind = fld v 30 2 ∧ addr = fld v 0 16 ∧ (bit = (if kind = 2 then fld v 16 6 else 0)) ∧ m.mayForce (reqStamp r) = true ∧ s.admits h r rDrlcFrc (putFlag v 28 false) = true ∧ m.forceAt kind addr bit = none ∧ ((flag v 29 = false ∨ stampClass (reqStamp r) = 1)) ∧ (kind = 1 ∨ (kind = 2 ∧ m.configured addr = true ∧ (recType (m.pt addr) = 8 ∨ recType (m.pt addr) = 0))) ∧ m.freeForce = some k ∧ m.forceMay k = true) ∧
  (let s : State := inA (taskS id) (fun m => { m with ptab := { m.ptab with forces := [(255, ⟨1, true, 0, 0xFFFF, 1, 0, 0, 0, 0, 0⟩)] } }); let h : HalfId := .a; let r : Req := .core 2; let v : Word := 0x6000FFFF; let m := s.half h; let kind : Nat := 1; let addr : Nat := 0xFFFF; let bit : Nat := 0; let k : Nat := 255; let f : Force := (⟨1, true, 0, 0xFFFF, 1, 0, 0, 0, 0, 0⟩ : Force); kind = fld v 30 2 ∧ addr = fld v 0 16 ∧ (bit = (if kind = 2 then fld v 16 6 else 0)) ∧ m.mayForce (reqStamp r) = true ∧ s.admits h r rDrlcFrc (putFlag v 28 true) = true ∧ (kind = 1 ∨ kind = 2) ∧ m.forceAt kind addr bit = some (k, f) ∧ ((f.persist = flag v 29 ∨ stampClass (reqStamp r) = 1)) ∧ m.forceMay k = true) ∧
  (let s : State := taskS id; let h : HalfId := .a; let r : Req := .core 2; let v : Word := 0x5000FFFF; let m := s.half h; let kind : Nat := 1; let addr : Nat := 0xFFFF; let bit : Nat := 0; kind = fld v 30 2 ∧ addr = fld v 0 16 ∧ (bit = (if kind = 2 then fld v 16 6 else 0)) ∧ m.mayForce (reqStamp r) = true ∧ s.admits h r rDrlcFrc (putFlag v 28 true) = true ∧ (kind = 1 ∨ kind = 2) ∧ m.forceAt kind addr bit = none) ∧
  (let s : State := inA (taskS id) (fun m => { m with ptab := { m.ptab with forces := [(0, ⟨3, false, 0, 6, 1, 0, 0, 0, 0, 0⟩)] } }); let h : HalfId := .a; let r : Req := .core 2; let v : Word := 0xC0000006; let m := s.half h; let kind : Nat := 3; let addr : Nat := 6; let bit : Nat := 0; let k : Nat := 0; let f : Force := (⟨3, false, 0, 6, 1, 0, 0, 0, 0, 0⟩ : Force); kind = fld v 30 2 ∧ addr = fld v 0 16 ∧ (bit = (if kind = 2 then fld v 16 6 else 0)) ∧ m.mayForce (reqStamp r) = true ∧ s.admits h r rDrlcFrc (putFld v 30 2 3) = true ∧ m.forceAt 3 addr 0 = some (k, f) ∧ ((stampClass (reqStamp r) = 1 ∨ f.persist = flag v 29)) ∧ m.forceMay k = true) := by
  refine ⟨?_, ?_, ?_, ?_, ?_, ?_, ?_, ?_, ?_, ?_⟩ <;> decide

/-- The premises of each clause of TillerLoops can be met. -/
theorem witness_TillerLoops :
  (let s : State := inA (inA (onS [0x040]) (fun m => { m with regs := sput m.regs rTlrCtrl 1, tlr := { m.tlr with loops := [(0, { loopReset with st := 2, desc := 3, first := true })], desc := [(3 * 512, 0x101), (3 * 512 + 1, 10), (3 * 512 + 2, 0), (3 * 512 + 3, 0xFFFFFFFF), (3 * 512 + 4, 0xFFFFFFFF), (3 * 512 + 5, 0xFFFFFFFF), (3 * 512 + 6, 0xFFFFFFFF), (3 * 512 + 7, 0xFFFFFFFF), (3 * 512 + 8, 0xFFFFFFFF), (3 * 512 + 9, 0xFFFFFFFF), (3 * 512 + 10, 8), (3 * 512 + 32, 0x00110F06), (3 * 512 + 33, 0x40404000)] }, tai := 10000000 })) (fun m => { m with shf := { m.shf with slots := [(8, { slotReset with state := 3, owner := 16 })] }, tlr := { m.tlr with loops := [(0, { loopReset with st := 1, desc := 3, first := true })] } }); let h : HalfId := .a; let m := s.half h; let ms := m.tai.toNat / oneMs; let k : Nat := 0; s.quiet h = true ∧ m.sheavesIdle = true ∧ m.on 0x040 = true ∧ m.rdB rTlrCtrl 0 = true ∧ m.tlrBatch ms = [k] ∧ ((∀ p ∈ m.tlrReads [k], m.recOk p = true)) ∧ m.tlr.loops.all (fun e => !e.2.leaving) = true ∧ (m.loop k).busy = false ∧ (m.loop k).pend = none ∧ (m.slot 8).state ≠ 0) ∧
  (let s : State := inA (onS [0x040]) (fun m => { m with regs := sput m.regs rTlrCtrl 1, tlr := { m.tlr with loops := [(0, { loopReset with st := 2, desc := 3, first := true })], desc := [(3 * 512, 0x101), (3 * 512 + 1, 10), (3 * 512 + 2, 0), (3 * 512 + 3, 0xFFFFFFFF), (3 * 512 + 4, 0xFFFFFFFF), (3 * 512 + 5, 0xFFFFFFFF), (3 * 512 + 6, 0xFFFFFFFF), (3 * 512 + 7, 0xFFFFFFFF), (3 * 512 + 8, 0xFFFFFFFF), (3 * 512 + 9, 0xFFFFFFFF), (3 * 512 + 10, 8), (3 * 512 + 32, 0x00110F06), (3 * 512 + 33, 0x40404000)] }, tai := 10000000 }); let h : HalfId := .a; let m := s.half h; let ms := m.tai.toNat / oneMs; let k : Nat := 0; let y := m.loop k; s.quiet h = true ∧ m.sheavesIdle = true ∧ m.on 0x040 = true ∧ m.rdB rTlrCtrl 0 = true ∧ m.tlrBatch ms = [k] ∧ ((∀ p ∈ m.tlrReads [k], m.recOk p = true)) ∧ m.tlr.loops.all (fun e => !e.2.leaving) = true ∧ (m.loop k).busy = false ∧ (m.loop k).pend = none ∧ y.st = 2 ∧ y.cmd = 0 ∧ y.relq = []) ∧
  (let s : State := inA (inA (onS [0x040]) (fun m => { m with regs := sput m.regs rTlrCtrl 1, tlr := { m.tlr with loops := [(0, { loopReset with st := 2, desc := 3, first := true })], desc := [(3 * 512, 0x101), (3 * 512 + 1, 10), (3 * 512 + 2, 0), (3 * 512 + 3, 0xFFFFFFFF), (3 * 512 + 4, 0xFFFFFFFF), (3 * 512 + 5, 0xFFFFFFFF), (3 * 512 + 6, 0xFFFFFFFF), (3 * 512 + 7, 0xFFFFFFFF), (3 * 512 + 8, 0xFFFFFFFF), (3 * 512 + 9, 0xFFFFFFFF), (3 * 512 + 10, 8), (3 * 512 + 32, 0x00110F06), (3 * 512 + 33, 0x40404000)] } })) (fun m => { m with tlr := { m.tlr with loops := [], desc := sset 0 m.tlr.desc (3 * 512 + 3) 0xFFFF0005 } }); let h : HalfId := .a; let r : Req := .core 2; let v : Word := 0x00030000; let m := s.half h; let l := m.selLoop; let x := m.loop l; let w : Nat := 0; s.admits h r rTlrLoopCmd (putFld v 0 4 1) = true ∧ x.st = 0 ∧ m.descCheck (fld v 16 9) = (0, w)) ∧
  (let s : State := inA (inA (onS [0x040]) (fun m => { m with regs := sput m.regs rTlrCtrl 1, tlr := { m.tlr with loops := [(0, { loopReset with st := 2, desc := 3, first := true })], desc := [(3 * 512, 0x101), (3 * 512 + 1, 10), (3 * 512 + 2, 0), (3 * 512 + 3, 0xFFFFFFFF), (3 * 512 + 4, 0xFFFFFFFF), (3 * 512 + 5, 0xFFFFFFFF), (3 * 512 + 6, 0xFFFFFFFF), (3 * 512 + 7, 0xFFFFFFFF), (3 * 512 + 8, 0xFFFFFFFF), (3 * 512 + 9, 0xFFFFFFFF), (3 * 512 + 10, 8), (3 * 512 + 32, 0x00110F06), (3 * 512 + 33, 0x40404000)] } })) (fun m => { m with shf := { m.shf with slots := [(8, { slotReset with state := 3, owner := 16 })] } }); let h : HalfId := .a; let r : Req := .core 2; let v : Word := 0; let m := s.half h; let l := m.selLoop; m.loopOn l = true ∧ s.admits h r rTlrLoopCmd (putFld v 0 4 2) = true ∧ m.sheavesIdle = true ∧ (m.slot 8).state ≠ 0) ∧
  (let s : State := inA (onS [0x040]) (fun m => { m with regs := sput m.regs rTlrCtrl 1, tlr := { m.tlr with loops := [(0, { loopReset with st := 2, desc := 3, first := true })], desc := [(3 * 512, 0x101), (3 * 512 + 1, 10), (3 * 512 + 2, 0), (3 * 512 + 3, 0xFFFFFFFF), (3 * 512 + 4, 0xFFFFFFFF), (3 * 512 + 5, 0xFFFFFFFF), (3 * 512 + 6, 0xFFFFFFFF), (3 * 512 + 7, 0xFFFFFFFF), (3 * 512 + 8, 0xFFFFFFFF), (3 * 512 + 9, 0xFFFFFFFF), (3 * 512 + 10, 8), (3 * 512 + 32, 0x00110F06), (3 * 512 + 33, 0x40404000)] } }); let h : HalfId := .a; let r : Req := .core 2; let v : Word := 0; let m := s.half h; let l := m.selLoop; m.loopOn l = true ∧ s.admits h r rTlrLoopCmd (putFld v 0 4 3) = true) ∧
  (let s : State := inA (onS [0x040]) (fun m => { m with regs := sput m.regs rTlrCtrl 1, tlr := { m.tlr with loops := [(0, { loopReset with st := 2, desc := 3, first := true })], desc := [(3 * 512, 0x101), (3 * 512 + 1, 10), (3 * 512 + 2, 0), (3 * 512 + 3, 0xFFFFFFFF), (3 * 512 + 4, 0xFFFFFFFF), (3 * 512 + 5, 0xFFFFFFFF), (3 * 512 + 6, 0xFFFFFFFF), (3 * 512 + 7, 0xFFFFFFFF), (3 * 512 + 8, 0xFFFFFFFF), (3 * 512 + 9, 0xFFFFFFFF), (3 * 512 + 10, 8), (3 * 512 + 32, 0x00110F06), (3 * 512 + 33, 0x40404000)] } }); let h : HalfId := .a; let r : Req := .core 2; let v : Word := 0; let m := s.half h; let l := m.selLoop; m.loopOn l = true ∧ s.admits h r rTlrLoopCmd (putFld v 0 4 4) = true) ∧
  (let s : State := inA (onS [0x040]) (fun m => { m with regs := sput m.regs rTlrCtrl 1, tlr := { m.tlr with loops := [(0, { loopReset with st := 2, desc := 3, first := true })], desc := [(3 * 512, 0x101), (3 * 512 + 1, 10), (3 * 512 + 2, 0), (3 * 512 + 3, 0xFFFFFFFF), (3 * 512 + 4, 0xFFFFFFFF), (3 * 512 + 5, 0xFFFFFFFF), (3 * 512 + 6, 0xFFFFFFFF), (3 * 512 + 7, 0xFFFFFFFF), (3 * 512 + 8, 0xFFFFFFFF), (3 * 512 + 9, 0xFFFFFFFF), (3 * 512 + 10, 8), (3 * 512 + 32, 0x00110F06), (3 * 512 + 33, 0x40404000)] } }); let h : HalfId := .a; let r : Req := .core 2; let v : Word := 0; let m := s.half h; let l := m.selLoop; m.loopOn l = true ∧ s.admits h r rTlrLoopCmd (putFld v 0 4 5) = true) ∧
  (let s : State := inA (onS [0x040]) (fun m => { m with regs := sput m.regs rTlrCtrl 1, tlr := { m.tlr with loops := [(0, { loopReset with st := 2, desc := 3, first := true })], desc := [(3 * 512, 0x101), (3 * 512 + 1, 10), (3 * 512 + 2, 0), (3 * 512 + 3, 0xFFFFFFFF), (3 * 512 + 4, 0xFFFFFFFF), (3 * 512 + 5, 0xFFFFFFFF), (3 * 512 + 6, 0xFFFFFFFF), (3 * 512 + 7, 0xFFFFFFFF), (3 * 512 + 8, 0xFFFFFFFF), (3 * 512 + 9, 0xFFFFFFFF), (3 * 512 + 10, 8), (3 * 512 + 32, 0x00110F06), (3 * 512 + 33, 0x40404000)] } }); let h : HalfId := .a; let r : Req := .core 2; let v : Word := 0; let m := s.half h; s.admits h r rTlrCtrl v = true ∧ m.rdB rTlrCtrl 0 = true ∧ flag v 0 = false) ∧
  (let s : State := inA (inA (onS [0x040]) (fun m => { m with regs := sput m.regs rTlrCtrl 1, tlr := { m.tlr with loops := [(0, { loopReset with st := 2, desc := 3, first := true })], desc := [(3 * 512, 0x101), (3 * 512 + 1, 10), (3 * 512 + 2, 0), (3 * 512 + 3, 0xFFFFFFFF), (3 * 512 + 4, 0xFFFFFFFF), (3 * 512 + 5, 0xFFFFFFFF), (3 * 512 + 6, 0xFFFFFFFF), (3 * 512 + 7, 0xFFFFFFFF), (3 * 512 + 8, 0xFFFFFFFF), (3 * 512 + 9, 0xFFFFFFFF), (3 * 512 + 10, 8), (3 * 512 + 32, 0x00110F06), (3 * 512 + 33, 0x40404000)] } })) (fun m => { m with regs := sput m.regs rTlrCtrl 0, tlr := { m.tlr with loops := [(0, { loopReset with st := 6, resume := 2, desc := 3 })] } }); let h : HalfId := .a; let r : Req := .core 2; let v : Word := 1; let m := s.half h; s.admits h r rTlrCtrl v = true ∧ m.rdB rTlrCtrl 0 = false ∧ flag v 0 = true ∧ s.yoke.pwr.pfw = false) ∧
  (let s : State := inA (onS [0x040]) (fun m => { m with regs := sput m.regs rTlrCtrl 1, tlr := { m.tlr with loops := [(0, { loopReset with st := 2, desc := 3, first := true })], desc := [(3 * 512, 0x101), (3 * 512 + 1, 10), (3 * 512 + 2, 0), (3 * 512 + 3, 0xFFFFFFFF), (3 * 512 + 4, 0xFFFFFFFF), (3 * 512 + 5, 0xFFFFFFFF), (3 * 512 + 6, 0xFFFFFFFF), (3 * 512 + 7, 0xFFFFFFFF), (3 * 512 + 8, 0xFFFFFFFF), (3 * 512 + 9, 0xFFFFFFFF), (3 * 512 + 10, 8), (3 * 512 + 32, 0x00110F06), (3 * 512 + 33, 0x40404000)] } }); let h : HalfId := .a; let r : Req := .core 2; let v : Word := 1; s.admits h r rTlrClr v = true ∧ flag v 0 = true) := by
  refine ⟨?_, ?_, ?_, ?_, ?_, ?_, ?_, ?_, ?_, ?_⟩ <;> decide

/-- The premises of each clause of EnergyMetering can be met. -/
theorem witness_EnergyMetering :
  (let s : State := nrgS 1 id; let h : HalfId := .a; let vs : Fin 8 := 0; let i : Nat := 0; let m := s.half h; let c : EnergyCycle := cyc 1; s.quiet h = true ∧ m.nrgRun = true ∧ m.nrg.calGo = [] ∧ m.nrg.stopped = false ∧ (m.cycInputs vs.val c).all (fun k => !(cycRaw c k).any clips) = true ∧ m.metersOf vs.val = [i] ∧ m.creeps i c = true) ∧
  (let s : State := inA (nrgS 1 id) (fun m => { m with regs := sput m.regs (rNciSensor 0 0) 3 }); let h : HalfId := .a; let vs : Fin 8 := 0; let i : Nat := 0; let m := s.half h; let x := m.meter i; let c : EnergyCycle := cyc 500000000; let p : Int := (s.a.energyOf 0 0 (cyc 500000000)).1; let q : Int := (s.a.energyOf 0 0 (cyc 500000000)).2; let k := if 0 ≤ p then 0 else 1; let j := if 0 ≤ p then (if 0 ≤ q then 2 else 5) else (if 0 ≤ q then 3 else 4); let w := (sget 0 x.res k + energyUnits (cycMhz c) p.natAbs) / 2 ^ 24; let z := (sget 0 x.res j + energyUnits (cycMhz c) q.natAbs) / 2 ^ 24; s.quiet h = true ∧ m.nrgRun = true ∧ m.nrg.calGo = [] ∧ m.nrg.stopped = false ∧ (m.cycInputs vs.val c).all (fun k => !(cycRaw c k).any clips) = true ∧ m.metersOf vs.val = [i] ∧ m.creeps i c = false ∧ m.energyOf i vs.val c = (p, q) ∧ (x.reg k).toNat + w < 2 ^ 64 ∧ (x.reg j).toNat + z < 2 ^ 64) ∧
  (let s : State := inA (nrgS 1 id) (fun m => { m with regs := sput m.regs (rNvsStat 7) 0x100, nrg := { m.nrg with sets := [(7, { vsetReset with taken := 1600 })] } }); let h : HalfId := .a; let vs : Fin 8 := 7; let m := s.half h; s.quiet h = true ∧ m.nrgRun = true ∧ m.windowFull vs.val = true) ∧
  (let s : State := nrgS 1 id; let h : HalfId := .a; let i : Nat := 0; let m := s.half h; let now := m.utcMinute (s.view h).leap; s.quiet h = true ∧ m.metersOn.Nodup ∧ i ∈ m.metersOn ∧ now = m.nrg.minute + 1) ∧
  (let s : State := inA (nrgS 1 id) (fun m => { m with nrg := { m.nrg with minute := -1 } }); let h : HalfId := .a; let i : Nat := 0; let m := s.half h; let now := m.utcMinute (s.view h).leap; s.quiet h = true ∧ m.metersOn.Nodup ∧ i ∈ m.metersOn ∧ m.nrgRun = true ∧ m.ivPassed now = true ∧ now = m.nrg.minute) ∧
  (let s : State := nrgS 1 id; let h : HalfId := .a; let m := s.half h; s.quiet h = true ∧ m.accumulates = true) ∧
  (let s : State := { nrgS 1 id with yoke := { runS.yoke with a := { runS.yoke.a with storing := true } } }; let h : HalfId := .a; let m := s.half h; s.quiet h = true ∧ m.accumulates = true ∧ (s.view h).fail = true ∧ m.grn.frozen = false) := by
  refine ⟨?_, ?_, ?_, ?_, ?_, ?_, ?_⟩ <;> decide

/-- The premises of each clause of EnergyCommands can be met. -/
theorem witness_EnergyCommands :
  (let s : State := nrgS 0 (fun x => { x with peak := 5, acc := [(0, 3), (2, 4)], flags := 0x12 }); let h : HalfId := .a; let r : Req := .core 1; s.admits h r rNrgMCmd 1 = true) ∧
  (let s : State := nrgS 0 (fun x => { x with peak := 5, acc := [(0, 3), (2, 4)], flags := 0x12 }); let h : HalfId := .a; let r : Req := .core 1; s.admits h r rNrgMCmd 2 = true) ∧
  (let s : State := nrgS 0 (fun x => { x with peak := 5, acc := [(0, 3), (2, 4)], flags := 0x12 }); let h : HalfId := .a; let r : Req := .ipp 0x1003; s.admits h r rNrgMCmd 3 = true) ∧
  (let s : State := nrgS 0 (fun x => { x with peak := 5, acc := [(0, 3), (2, 4)], flags := 0x12 }); let h : HalfId := .a; let r : Req := .core 1; let v : Word := 1; s.admits h r rNrgCalApply v = true ∧ flag v 0 = true) ∧
  (let s : State := inA (nrgS 0 id) (fun m => { m with nrg := { m.nrg with calGo := [(rNvsGain 0 0, 0x300001)] } }); let h : HalfId := .a; let m := s.half h; let vs : Fin 8 := 0; let k : Nat := rNvsGain 0 0; let w : Word := 0x300001; s.quiet h = true ∧ sorted m.nrg.calGo = true ∧ sfind m.nrg.calGo k = some w ∧ m.calSet k = vs.val) ∧
  (let s : State := nrgS 4 (fun x => { x with acc := [(0, 3), (2, 4)] }); let h : HalfId := .a; let r : Req := .core 1; let v : Word := 7; let m := s.half h; let n := reqNum r; let i := m.rdN rNrgMSel; let x := m.meter i; let ws := (m.ageStaged n).commitWords n rNrgMLoad 8 v; let val (k : Nat) : Nat := (dword (ws.getD (2 * k) 0) (ws.getD (2 * k + 1) 0)).toNat; s.admits h r rNrgMLoad v = true ∧ m.compact = true ∧ x.flags.testBit 11 = false ∧ ((∀ k, k < 4 → (x.reg (k + 2)).toNat + val k < 2 ^ 64))) ∧
  (let s : State := nrgS 0 (fun x => { x with peak := 5, acc := [(0, 3), (2, 4)], flags := 0x12 }); let h : HalfId := .a; let r : Req := .core 1; let v : Word := 0x80000000; let m := s.half h; let i := m.rdN rNrgMSel; s.admits h r rNrgMCfg v = true ∧ m.rdB rNrgCtrl 0 = false ∧ ((∀ p ∈ cfgPhases (v &&& 0xF7FFFFFF), p.1 ≠ 3 ∧ m.chanOk p.2 = true ∧ m.chanTaken i p.2 = false ∧ m.vEn (fld v 24 3) p.1 = true))) ∧
  (let s : State := nrgS 0 (fun x => { x with peak := 5, acc := [(0, 3), (2, 4)], flags := 0x12 }); let h : HalfId := .a; let r : Req := .core 1; let v : Word := 0x0F01; let m := s.half h; let n := reqNum r; s.admits h r rNrgCtrl v = true ∧ fld v 8 6 ∈ [1, 2, 3, 4, 5, 6, 10, 12, 15, 20, 30, 60] ∧ m.rdB rNrgCtrl 0 = false ∧ flag v 0 = true ∧ (m.plainWrite n rNrgCtrl v).nrgAreaOk = true) ∧
  (let s : State := nrgS 1 id; let h : HalfId := .a; let r : Req := .core 1; let v : Word := 0x0F00; let m := s.half h; s.admits h r rNrgCtrl v = true ∧ fld v 8 6 ∈ [1, 2, 3, 4, 5, 6, 10, 12, 15, 20, 30, 60] ∧ m.rdB rNrgCtrl 0 = true ∧ flag v 0 = false ∧ fld v 1 2 = m.rdF rNrgCtrl 1 2) := by
  refine ⟨?_, ?_, ?_, ?_, ?_, ?_, ?_, ?_, ?_⟩ <;> decide

/-- The premises of each clause of Terminals can be met. -/
theorem witness_Terminals :
  (let s : State := uioS 255 4 id; let h : HalfId := .a; let t : Fin 256 := 255; let m := s.half h; let k := m.uioMode t.val; let x := m.term t.val; let raw : Int := 100000; s.quietBus h = true ∧ k ≠ 0 ∧ x.settling = false ∧ m.uioOn t.val = true ∧ 1 ≤ k ∧ k ≤ 4 ∧ analogFault k raw = 0) ∧
  (let s : State := uioS 255 2 id; let h : HalfId := .a; let t : Fin 256 := 255; let m := s.half h; let k := m.uioMode t.val; let x := m.term t.val; let raw : Int := 21000001; s.quietBus h = true ∧ k ≠ 0 ∧ x.settling = false ∧ m.uioOn t.val = true ∧ 1 ≤ k ∧ k ≤ 4 ∧ analogFault k raw ≠ 0) ∧
  (let s : State := uioS 255 6 id; let h : HalfId := .a; let t : Fin 256 := 255; let m := s.half h; let k := m.uioMode t.val; let x := m.term t.val; s.quietBus h = true ∧ k ≠ 0 ∧ x.settling = false ∧ m.uioOn t.val = true ∧ (k = 5 ∨ k = 6)) ∧
  (let s : State := uioS 255 10 id; let h : HalfId := .a; let t : Fin 256 := 255; let m := s.half h; let k := m.uioMode t.val; let x := m.term t.val; s.quietBus h = true ∧ k ≠ 0 ∧ x.settling = false ∧ m.uioOn t.val = true ∧ (k = 8 ∨ k = 9 ∨ k = 10)) ∧
  (let s : State := uioS 255 4 (fun m => m.updTerm 255 (fun x => { x with calWait := some (0x500000, 7) })); let h : HalfId := .a; let t : Fin 256 := 255; let m := s.half h; let k := m.uioMode t.val; let x := m.term t.val; let c : Word × Word := ((0x500000, 7) : Word × Word); s.quietBus h = true ∧ k ≠ 0 ∧ x.settling = false ∧ m.uioOn t.val = true ∧ x.calWait = some c) ∧
  (let s : State := uioS 255 0x16 id; let h : HalfId := .a; let t : Fin 256 := 255; let m := s.half h; let g := t.val / 16; let n := t.val % 16; let k := m.uioMode t.val; let x := m.term t.val; let comp : Bool := false; let level := m.uioLevel t.val comp; s.quiet h = true ∧ (k = 5 ∨ k = 6) ∧ x.settling = false ∧ m.uioOn t.val = true ∧ m.rdB (rUiogLevel g) n ≠ level) ∧
  (let s : State := inA (ptsS id) (fun m => { uioF m with uio := { m.uio with rfx := [(3, ⟨rxW, none⟩)] } }); let h : HalfId := .a; let t : Fin 256 := 255; let m := s.half h; let y := s.view h; let g := t.val / 16; let n := t.val % 16; let k := m.uioMode t.val; let x := m.term t.val; let comp : Bool := true; let level := m.uioLevel t.val comp; let b : Nat := 3; let f : Reflex := (⟨rxW, none⟩ : Reflex); s.quiet h = true ∧ (k = 5 ∨ k = 6) ∧ x.settling = false ∧ m.uioOn t.val = true ∧ m.rdB (rUiogLevel g) n ≠ level ∧ m.rfxOn = true ∧ m.reflexOf 1 t.val = [(b, f)] ∧ sfind m.uio.rfx b = some f ∧ rEdge f.words = 3 ∧ y.any = true ∧ rLevel f.words ≤ m.activeLevel (rPoint f.words)) ∧
  (let s : State := uioS 255 0 id; let h : HalfId := .a; let t : Fin 256 := 255; let r : Req := .core 1; let v : Word := 3; let m := s.half h; let g := t.val / 16; let n := t.val % 16; s.admits h r (rUiogMode g n) v = true ∧ m.modeRule t.val (v &&& 0xFF3F) = 0 ∧ (fld v 0 4 ≠ fld (m.modeWord t.val) 0 4 ∨ flag v 5 ≠ flag (m.modeWord t.val) 5)) ∧
  (let s : State := uioS 255 3 (fun m => { m with regs := sput m.regs (rUiogCnt 15 15) 9 }); let h : HalfId := .a; let t : Fin 256 := 255; let r : Req := .core 1; let v : Word := 0xFF13; let m := s.half h; let g := t.val / 16; let n := t.val % 16; s.admits h r (rUiogMode g n) v = true ∧ m.modeRule t.val (v &&& 0xFF3F) = 0 ∧ fld v 0 4 = fld (m.modeWord t.val) 0 4 ∧ flag v 5 = flag (m.modeWord t.val) 5) ∧
  (let s : State := uioS 255 5 (fun m => m.updTerm 255 (fun x => { x with settling := true })); let h : HalfId := .a; let t : Fin 256 := 255; let m := s.half h; let x := m.term t.val; s.quiet h = true ∧ x.settling = true) ∧
  (let s : State := uioS 255 3 (fun m => { m with regs := sput m.regs (rUiogGain 15 15) 0x500000, uio := { m.uio with stg := [rUiogGain 15 15] } }); let h : HalfId := .a; let r : Req := .core 1; let v : Word := 1; let q : Fin 16 := 15; s.admits h r (rUiogCalApply q.val) v = true ∧ flag v 0 = true) ∧
  (let s : State := uioS 255 6 id; let h : HalfId := .a; let r : Req := .core 1; let v : Word := 0x8001; let q : Fin 16 := 15; s.admits h r (rUiogClr q.val) v = true) ∧
  (let s : State := uioS 255 10 (fun m => { m.updTerm 255 (fun x => { x with trips := 2 }) with regs := sput m.regs (rUiogDrv 15 15) 1 }); let h : HalfId := .a; let t : Fin 256 := 255; let m := s.half h; let y := s.view h; let g := t.val / 16; let n := t.val % 16; let k := m.uioMode t.val; let x := m.term t.val; let ma : Nat := 301; s.quiet h = true ∧ 300 < ma ∧ k = 10 ∧ x.settling = false ∧ m.harmless y t.val = false ∧ m.rd (rUiogDrv g n) ≠ 0 ∧ x.offAt = none) ∧
  (let s : State := uioS 255 10 (fun m => { m.updTerm 255 (fun x => { x with offAt := some 0, trips := 1 }) with regs := sput m.regs (rUiogDrv 15 15) 1, up := 1000000000 }); let h : HalfId := .a; let t : Fin 256 := 255; let m := s.half h; let g := t.val / 16; let n := t.val % 16; let x := m.term t.val; let a : Nat := 0; s.quiet h = true ∧ x.offAt = some a ∧ a + oneSec ≤ m.up ∧ m.uioFault t.val ≠ 7 ∧ m.rdN (rUiogDrv g n) = 1) ∧
  (let s : State := uioS 255 10 (fun m => { m.updTerm 255 (fun x => { x with pulse := some (0, 5) }) with regs := sput m.regs (rUiogDrv 15 15) 1, up := 5000000 }); let h : HalfId := .a; let t : Fin 256 := 255; let m := s.half h; let y := s.view h; let g := t.val / 16; let n := t.val % 16; let x := m.term t.val; let a : Nat := 0; let w : Nat := 5; s.quiet h = true ∧ x.pulse = some (a, w) ∧ a + w * oneMs ≤ m.up ∧ m.isOutput t.val = true ∧ y.start = false ∧ m.rd (rUiogLimlo g n) = 0 ∧ m.rd (rUiogRate g n) = 0) ∧
  (let s : State := uioS 31 9 (fun m => { m.updTerm 31 (fun x => { x with cmd := 24000 }) with regs := sput (sput m.regs (rUiogRate 1 15) 100) (rUiogLimhi 1 15) 24000 }); let h : HalfId := .a; let t : Fin 256 := 31; let m := s.half h; let g := t.val / 16; let n := t.val % 16; let k := m.uioMode t.val; let x := m.term t.val; let old := m.slewFrom t.val; let rate := m.rdN (rUiogRate g n); s.quiet h = true ∧ m.isOutput t.val = true ∧ 0 < rate ∧ m.rdN (rUiogLimlo g n) ≤ x.cmd.toNat ∧ x.cmd.toNat ≤ m.rdN (rUiogLimhi g n) ∧ x.cmd.toNat ≤ modeTop k ∧ old ≤ modeTop k ∧ old + rate < x.cmd.toNat) ∧
  (let s : State := uioS 0 8 (fun m => { m.updTerm 0 (fun x => { x with cmd := 0 }) with regs := sput (sput m.regs (rUiogRate 0 0) 100) (rUiogDrv 0 0) 10500 }); let h : HalfId := .a; let t : Fin 256 := 0; let m := s.half h; let g := t.val / 16; let n := t.val % 16; let k := m.uioMode t.val; let x := m.term t.val; let old := m.slewFrom t.val; let rate := m.rdN (rUiogRate g n); s.quiet h = true ∧ m.isOutput t.val = true ∧ 0 < rate ∧ m.rdN (rUiogLimlo g n) ≤ x.cmd.toNat ∧ x.cmd.toNat ≤ m.rdN (rUiogLimhi g n) ∧ x.cmd.toNat ≤ modeTop k ∧ old ≤ modeTop k ∧ x.cmd.toNat + rate < old) ∧
  (let s : State := uioS 0 8 (fun m => { m.updTerm 0 (fun x => { x with cmd := 600, slew := some (0, 500) }) with regs := sput (sput (sput m.regs (rUiogRate 0 0) 100) (rUiogDrv 0 0) 550) (rUiogLimhi 0 0) 10500 }); let h : HalfId := .a; let t : Fin 256 := 0; let m := s.half h; let g := t.val / 16; let n := t.val % 16; let k := m.uioMode t.val; let x := m.term t.val; let old := m.slewFrom t.val; let rate := m.rdN (rUiogRate g n); s.quiet h = true ∧ m.isOutput t.val = true ∧ 0 < rate ∧ m.rdN (rUiogLimlo g n) ≤ x.cmd.toNat ∧ x.cmd.toNat ≤ m.rdN (rUiogLimhi g n) ∧ x.cmd.toNat ≤ modeTop k ∧ old ≤ modeTop k ∧ x.cmd.toNat ≤ old + rate ∧ old ≤ x.cmd.toNat + rate) ∧
  (let s : State := { inA (uioS 0 1 id) (fun m => { m with regs := sput m.regs rRfxFsCtrl 0x80020000, uio := { m.uio with fs := [(63, ⟨0x80000000, 0, 10, 1⟩)] } }) with yoke := { runS.yoke with regs := [(rPwrWakeEn, 1)], pwr := { runS.yoke.pwr with state := 2 } } }; let h : HalfId := .a; let m := s.half h; let vals : List (Nat × List Int) := [(63, [10])]; let i : Nat := 63; let w : Int := 10; let e := m.fsEnt i; s.yoke.holder = some h ∧ s.yoke.pwr.state = 2 ∧ s.runs h = true ∧ m.rdB rRfxFsCtrl 31 = true ∧ i < 64 ∧ flag e.ent 31 = true ∧ ((∀ j, j < 64 → j ≠ i → flag (m.fsEnt j).ent 31 = false)) ∧ m.fsValue i ((sfind vals i).getD []) = some w ∧ e.bad w = false) ∧
  (let s : State := { inA (uioS 0 1 id) (fun m => { m with regs := sput m.regs rRfxFsCtrl 0x80020000, uio := { m.uio with fs := [(63, ⟨0x80000000, 0, 10, 0⟩)] } }) with yoke := { runS.yoke with regs := [(rPwrWakeEn, 1)], pwr := { runS.yoke.pwr with state := 2 } } }; let h : HalfId := .a; let m := s.half h; let vals : List (Nat × List Int) := [(63, [-1])]; let i : Nat := 63; let w : Int := -1; let e := m.fsEnt i; s.yoke.holder = some h ∧ s.yoke.pwr.state = 2 ∧ s.runs h = true ∧ m.rdB rRfxFsCtrl 31 = true ∧ i < 64 ∧ flag e.ent 31 = true ∧ ((∀ j, j < 64 → j ≠ i → flag (m.fsEnt j).ent 31 = false)) ∧ m.fsValue i ((sfind vals i).getD []) = some w ∧ e.bad w = true ∧ min (e.run + 1) 15 < m.rdF rRfxFsCtrl 16 4) ∧
  (let s : State := { inA (uioS 0 1 id) (fun m => { m with regs := sput m.regs rRfxFsCtrl 0x80020000, uio := { m.uio with fs := [(63, ⟨0x80000000, 0, 10, 1⟩)] } }) with yoke := { runS.yoke with regs := [(rPwrWakeEn, 1)], pwr := { runS.yoke.pwr with state := 2 } } }; let h : HalfId := .a; let m := s.half h; let vals : List (Nat × List Int) := [(63, [-1])]; let i : Nat := 63; let w : Int := -1; let e := m.fsEnt i; s.yoke.holder = some h ∧ s.yoke.pwr.state = 2 ∧ s.runs h = true ∧ m.rdB rRfxFsCtrl 31 = true ∧ i < 64 ∧ flag e.ent 31 = true ∧ ((∀ j, j < 64 → j ≠ i → flag (m.fsEnt j).ent 31 = false)) ∧ m.fsValue i ((sfind vals i).getD []) = some w ∧ e.bad w = true ∧ m.rdF rRfxFsCtrl 16 4 ≤ min (e.run + 1) 15 ∧ s.wakeOn 1 = true ∧ s.yoke.pwr.entry = none) := by
  refine ⟨?_, ?_, ?_, ?_, ?_, ?_, ?_, ?_, ?_, ?_, ?_, ?_, ?_, ?_, ?_, ?_, ?_, ?_, ?_, ?_, ?_⟩ <;> decide

/-- The premises of each clause of CanFrames can be met. -/
theorem witness_CanFrames :
  (let s : State := canS (fun x => { x with objs := [(2047 * 20, 0x80000000), (2047 * 20 + 2, 0x80000000)] }); let h : HalfId := .a; let c : Fin 16 := 15; let o : Nat := 2047; let m := s.half h; let x := m.canOf c.val; let f : CanFrame := ⟨false, true, false, false, false, 2047, 15, [1, 2], 5, false⟩; s.quietBus h = true ∧ m.canOn c.val = true ∧ x.state ≠ 2 ∧ x.tec ≤ 255 ∧ ((f.fd = true → m.rdB (rCanCtrl c.val) 4 = true)) ∧ x.findObj f.ext f.id = some o ∧ x.isTx o = false ∧ m.reflexOf 2 (c.val * 2 ^ 12 + o) = [] ∧ f.rtr = false) ∧
  (let s : State := canS id; let h : HalfId := .a; let c : Fin 16 := 15; let o : Nat := 2047; let m := s.half h; let x := m.canOf c.val; let f : CanFrame := ⟨false, true, false, false, false, 2047, 15, [1, 2], 5, false⟩; s.quietBus h = true ∧ m.canOn c.val = true ∧ x.state ≠ 2 ∧ x.tec ≤ 255 ∧ ((f.fd = true → m.rdB (rCanCtrl c.val) 4 = true)) ∧ (f.rtr = true ∨ x.findObj f.ext f.id = none ∨ (x.findObj f.ext f.id = some o ∧ x.isTx o = true))) ∧
  (let s : State := canS (canTx 5 0xC0000000); let h : HalfId := .a; let c : Fin 16 := 15; let o : Nat := 5; let r : Req := .core 3; let v : Word := 5; let m := s.half h; let x := m.canOf c.val; o = fld v 0 12 ∧ o < 3072 ∧ s.admits h r (rCanTxreq c.val) v = true ∧ flag v 15 = false ∧ x.en o = true ∧ x.isTx o = true) ∧
  (let s : State := canS (canTx 3071 0xC0000000); let h : HalfId := .a; let c : Fin 16 := 15; let o : Nat := 3071; let r : Req := .core 3; let v : Word := 3071; let m := s.half h; let x := m.canOf c.val; o = fld v 0 12 ∧ o < 3072 ∧ s.admits h r (rCanTxreq c.val) (v ||| 0x8000) = true ∧ x.pend o = true) ∧
  (let s : State := canS (canTx 5 0xC0000000); let h : HalfId := .a; let c : Fin 16 := 15; let o : Nat := 5; let m := s.half h; let y := s.view h; let x := m.canOf c.val; s.quietBus h = true ∧ m.canMaySend y c.val o = true ∧ x.pend o = true ∧ x.tec ≤ 255 ∧ m.sheavesIdle = true ∧ ((∀ e ∈ x.waits, e.1 / 32 ≠ o))) ∧
  (let s : State := canS (canTx 5 0xC8000000); let h : HalfId := .a; let c : Fin 16 := 15; let o : Nat := 5; let m := s.half h; let y := s.view h; let x := m.canOf c.val; let e : CanError := ⟨1, false, false, false, 0⟩; s.quietBus h = true ∧ m.canMaySend y c.val o = true ∧ x.pend o = true ∧ x.tec ≤ 255 ∧ m.sheavesIdle = true ∧ ((∀ e ∈ x.waits, e.1 / 32 ≠ o))) ∧
  (let s : State := { canS (fun x => { x with rxc := 127 }) with yoke := { runS.yoke with holder := some .a } }; let h : HalfId := .a; let c : Fin 16 := 15; let m := s.half h; let y := s.view h; let x := m.canOf c.val; let e : CanError := ⟨2, true, false, false, 0⟩; s.quietBus h = true ∧ m.canOn c.val = true ∧ x.state = 0 ∧ x.tec ≤ 127 ∧ x.rxc ≤ 127 ∧ e.kind ≠ 0 ∧ m.canListens y c.val = false) ∧
  (let s : State := canS (fun x => { x with mode := 0 }); let h : HalfId := .a; let c : Fin 16 := 15; let m := s.half h; let x := m.canOf c.val; s.quietBus h = true ∧ m.on (0x070 + c.val) = true ∧ x.mode = 0 ∧ x.state ≠ 2) ∧
  (let s : State := canS (canTx 5 0xC0000000); let h : HalfId := .a; let c : Fin 16 := 15; let r : Req := .core 3; s.admits h r (rCanCmd c.val) 2 = true) ∧
  (let s : State := canS (canTx 3071 0xC0000000); let h : HalfId := .a; let c : Fin 16 := 15; let o : Nat := 3071; let r : Req := .core 3; let v : Word := 3071; o = fld v 0 12 ∧ o < 3072 ∧ s.admits h r (rCanAck c.val) v = true) ∧
  (let s : State := canS id; let h : HalfId := .a; let c : Fin 16 := 15; let o : Nat := 2047; let r : Req := .core 3; let v : Word := 0xA0003B00; let m := s.half h; let x := m.canOf c.val; let a : Nat := 0x54000000 + 15 * 0x3E000 + 2047 * 80; a = 0x54000000 + c.val * 0x3E000 + o * 80 ∧ s.reaches h r = true ∧ m.ready (0x070 + c.val) = true ∧ o < 3072 ∧ fld v 8 6 ≤ 59 ∧ (flag v 31 = false ∨ (o < 2048 ∧ x.en o = false ∧ (flag v 29 = true → m.rdB (rCanCtrl c.val) 4 = true)))) ∧
  (let s : State := inA (canS id) (fun m => m.updAcc 3 (fun x => { x with staged := [(0x54000000 + 15 * 0x3E000 + 3071 * 80 + 4, ⟨0x12345, 0⟩)] })); let h : HalfId := .a; let c : Fin 16 := 15; let o : Nat := 3071; let r : Req := .core 3; let v : Word := 0xE0003B00; let m := s.half h; let x := m.canOf c.val; let a : Nat := 0x54000000 + 15 * 0x3E000 + 3071 * 80; let id := fld ((m.stagedWord (reqNum r) (a + 4)).getD (x.obj o 1)) 0 29; a = 0x54000000 + c.val * 0x3E000 + o * 80 ∧ s.reaches h r = true ∧ m.ready (0x070 + c.val) = true ∧ o < 3072 ∧ fld v 8 6 ≤ 59 ∧ 2048 ≤ o ∧ flag v 31 = true ∧ x.en o = false ∧ ((flag v 29 = true → m.rdB (rCanCtrl c.val) 4 = true)) ∧ x.findExt id = none ∧ ((∃ b ∈ canBuckets id, sget 0 x.hash b = 0))) := by
  refine ⟨?_, ?_, ?_, ?_, ?_, ?_, ?_, ?_, ?_, ?_, ?_, ?_⟩ <;> decide

/-- The premises of each clause of CanStates can be met. -/
theorem witness_CanStates :
  (let s : State := inA (canS (fun x => { x with state := 2 })) (fun m => { m with regs := sput m.regs (rCanCtrl 15) 0x21 }); let h : HalfId := .a; let c : Fin 16 := 15; let m := s.half h; let x := m.canOf c.val; s.quietBus h = true ∧ m.on (0x070 + c.val) = true ∧ x.state = 2 ∧ m.rdB (rCanCtrl c.val) 5 = true) ∧
  (let s : State := canS (fun x => { x with state := 2 }); let h : HalfId := .a; let c : Fin 16 := 15; let r : Req := .core 3; let m := s.half h; let x := m.canOf c.val; s.admits h r (rCanCmd c.val) 1 = true ∧ x.state = 2) ∧
  (let s : State := canS (fun x => { x with state := 2, recov := true, tec := 256 }); let h : HalfId := .a; let c : Fin 16 := 15; let m := s.half h; let x := m.canOf c.val; s.quietBus h = true ∧ m.canOn c.val = true ∧ x.state = 2 ∧ x.recov = true) ∧
  (let s : State := canS (fun x => { x with mode := 2 }); let h : HalfId := .a; let c : Fin 16 := 15; let r : Req := .core 3; let v : Word := 0x10; let m := s.half h; let old := m.rdF (rCanCtrl c.val) 0 2; let new := fld v 0 2; s.admits h r (rCanCtrl c.val) v = true ∧ new ≠ 3 ∧ (old = 0 ∨ flag v 4 = m.rdB (rCanCtrl c.val) 4) ∧ ((new = 1 → flag v 4 = true → m.canFast c.val = true → m.rdB (rCanTdc c.val) 31 = true))) ∧
  (let s : State := canS (fun x => { x with idle := true }); let h : HalfId := .a; let c : Fin 16 := 15; let m := s.half h; let x := m.canOf c.val; let old := m.rdF (rCanCtrl c.val) 0 2; s.quietBus h = true ∧ old = x.mode) ∧
  (let s : State := canS (fun x => { x with mode := 0, tec := 3 }); let h : HalfId := .a; let c : Fin 16 := 15; let m := s.half h; let x := m.canOf c.val; let old := m.rdF (rCanCtrl c.val) 0 2; s.quietBus h = true ∧ m.on (0x070 + c.val) = true ∧ old ≠ x.mode) ∧
  (let s : State := canS id; let h : HalfId := .a; let c : Fin 16 := 15; let r : Req := .core 3; let v : Word := 1; s.admits h r (rCanClr c.val) v = true ∧ flag v 0 = true) ∧
  (let s : State := { inA (canS id) (fun m => { m with regs := sput m.regs (rCanCtrl 15) 0x100 }) with yoke := { runS.yoke with regs := [(rPwrWakeEn, 8)], pwr := { runS.yoke.pwr with state := 2 } } }; let h : HalfId := .a; let c : Fin 16 := 15; let m := s.half h; s.runs h = true ∧ s.yoke.pwr.state = 2 ∧ s.yoke.pwr.entry = none ∧ m.rdB (rCanCtrl c.val) 8 = true ∧ s.wakeOn 4 = true) := by
  refine ⟨?_, ?_, ?_, ?_, ?_, ?_, ?_, ?_⟩ <;> decide

/-- The premises of each clause of SerialEngines can be met. -/
theorem witness_SerialEngines :
  (let s : State := serS 1 id; let h : HalfId := .a; let e : Fin 16 := 15; let m := s.half h; let y := s.view h; let ts := m.serTs e.val; let f : MstpFrame := mstp 1 255 5; s.quietBus h = true ∧ m.serProto e.val = 1 ∧ m.serSpeaks y e.val = true ∧ f.framed = true ∧ f.headerOk = true ∧ f.dataOk = true ∧ f.data.length ≤ 501 ∧ f.src = ts) ∧
  (let s : State := serS 1 id; let h : HalfId := .a; let e : Fin 16 := 15; let m := s.half h; let y := s.view h; let x := m.serOf e.val; let ts := m.serTs e.val; let f : MstpFrame := mstp 1 5 9; s.quietBus h = true ∧ m.serProto e.val = 1 ∧ m.serSpeaks y e.val = true ∧ f.framed = true ∧ f.headerOk = true ∧ f.dataOk = true ∧ f.data.length ≤ 501 ∧ f.src ≠ ts ∧ f.dest = ts ∧ x.fsm = 0 ∧ f.type = 1) ∧
  (let s : State := serS 1 id; let h : HalfId := .a; let e : Fin 16 := 15; let m := s.half h; let y := s.view h; let x := m.serOf e.val; let ts := m.serTs e.val; let f : MstpFrame := ⟨3, 5, 9, [1, 2], true, true, true⟩; s.quietBus h = true ∧ m.serProto e.val = 1 ∧ m.serSpeaks y e.val = true ∧ f.framed = true ∧ f.headerOk = true ∧ f.dataOk = true ∧ f.data.length ≤ 501 ∧ f.src ≠ ts ∧ f.dest = ts ∧ x.fsm = 0 ∧ f.type = 3) ∧
  (let s : State := serS 1 (fun x => { x with token := true }); let h : HalfId := .a; let e : Fin 16 := 15; let m := s.half h; let y := s.view h; let x := m.serOf e.val; let ts := m.serTs e.val; let f : MstpFrame := mstp 5 5 9; s.quietBus h = true ∧ m.serProto e.val = 1 ∧ m.serSpeaks y e.val = true ∧ f.framed = true ∧ f.headerOk = true ∧ f.dataOk = true ∧ f.data.length ≤ 501 ∧ f.src ≠ ts ∧ f.dest = ts ∧ x.fsm = 0 ∧ f.type = 5) ∧
  (let s : State := serQ 1 5 id; let h : HalfId := .a; let e : Fin 16 := 15; let m := s.half h; let y := s.view h; let x := m.serOf e.val; let ts := m.serTs e.val; let f : MstpFrame := mstp 0 5 9; s.quietBus h = true ∧ m.serProto e.val = 1 ∧ m.serSpeaks y e.val = true ∧ f.framed = true ∧ f.headerOk = true ∧ f.dataOk = true ∧ f.data.length ≤ 501 ∧ f.src ≠ ts ∧ f.dest = ts ∧ x.fsm = 0 ∧ f.type = 0 ∧ m.serQueued e.val ≠ []) ∧
  (let s : State := serS 1 (fun x => { x with tokCnt := 48 }); let h : HalfId := .a; let e : Fin 16 := 15; let m := s.half h; let y := s.view h; let x := m.serOf e.val; let ts := m.serTs e.val; let f : MstpFrame := mstp 0 5 9; s.quietBus h = true ∧ m.serProto e.val = 1 ∧ m.serSpeaks y e.val = true ∧ f.framed = true ∧ f.headerOk = true ∧ f.dataOk = true ∧ f.data.length ≤ 501 ∧ f.src ≠ ts ∧ f.dest = ts ∧ x.fsm = 0 ∧ f.type = 0 ∧ m.serQueued e.val = [] ∧ x.ns ≠ ts ∧ x.tokCnt < 49) ∧
  (let s : State := serS 1 (fun x => { x with fsm := 6, answer := 9 }); let h : HalfId := .a; let e : Fin 16 := 15; let m := s.half h; let y := s.view h; let x := m.serOf e.val; s.quietBus h = true ∧ m.serProto e.val = 1 ∧ m.serSpeaks y e.val = true ∧ x.fsm = 6) ∧
  (let s : State := serS 1 (fun x => { x with fsm := 6 }); let h : HalfId := .a; let e : Fin 16 := 15; let m := s.half h; let y := s.view h; let x := m.serOf e.val; s.quietBus h = true ∧ m.serProto e.val = 1 ∧ m.serSpeaks y e.val = true ∧ (x.fsm = 0 ∨ x.fsm = 6)) ∧
  (let s : State := serS 1 (fun x => { x with fsm := 2 }); let h : HalfId := .a; let e : Fin 16 := 15; let m := s.half h; let y := s.view h; let x := m.serOf e.val; s.quietBus h = true ∧ m.serProto e.val = 1 ∧ m.serSpeaks y e.val = true ∧ x.fsm = 2) ∧
  (let s : State := serS 1 (fun x => { x with fsm := 3 }); let h : HalfId := .a; let e : Fin 16 := 15; let m := s.half h; let y := s.view h; let x := m.serOf e.val; s.quietBus h = true ∧ m.serProto e.val = 1 ∧ m.serSpeaks y e.val = true ∧ x.fsm = 3 ∧ x.retry = 0) ∧
  (let s : State := serS 1 (fun x => { x with fsm := 4 }); let h : HalfId := .a; let e : Fin 16 := 15; let m := s.half h; let y := s.view h; let x := m.serOf e.val; s.quietBus h = true ∧ m.serProto e.val = 1 ∧ m.serSpeaks y e.val = true ∧ x.fsm = 4) ∧
  (let s : State := serS 1 (fun x => { x with fsm := 5 }); let h : HalfId := .a; let e : Fin 16 := 15; let m := s.half h; let y := s.view h; let x := m.serOf e.val; let ts := m.serTs e.val; s.quietBus h = true ∧ m.serProto e.val = 1 ∧ m.serSpeaks y e.val = true ∧ x.fsm = 5 ∧ x.sole = false ∧ x.ns ≠ ts) ∧
  (let s : State := serQ 1 5 (fun x => { x with fsm := 1 }); let h : HalfId := .a; let e : Fin 16 := 15; let m := s.half h; let y := s.view h; let x := m.serOf e.val; let a := 0x80001000; s.quietBus h = true ∧ m.serProto e.val = 1 ∧ m.serSpeaks y e.val = true ∧ x.fsm = 1 ∧ (m.serQueued e.val).head? = some a ∧ (m.serDesc a).ok = true ∧ ((m.serDesc a).type = 3 ∨ (m.serDesc a).type = 5) ∧ (m.serDesc a).dest ≠ 255 ∧ (m.serDesc a).data.length ≤ 501) ∧
  (let s : State := inA (serS 2 (fun x => x)) (fun m => { m with regs := sput (sput (sput m.regs (rSerPdEn 15) 0x8000) (rSerPdAddr 15 15) 0x7E) (rSerOsdp 15) 0x30000 }); let h : HalfId := .a; let e : Fin 16 := 15; let m := s.half h; let y := s.view h; let x := m.serOf e.val; let k : Nat := 15; s.quietBus h = true ∧ m.serProto e.val = 2 ∧ m.serSpeaks y e.val = true ∧ x.wait = none ∧ m.serQueued e.val = [] ∧ m.pdsOn e.val = [k]) ∧
  (let s : State := inA (serQ 2 0x61 id) (fun m => { m with regs := sput (sput m.regs (rSerPdEn 15) 0x8000) (rSerPdAddr 15 15) 7 }); let h : HalfId := .a; let e : Fin 16 := 15; let m := s.half h; let y := s.view h; let x := m.serOf e.val; let k : Nat := 15; let a := 0x80001000; s.quietBus h = true ∧ m.serProto e.val = 2 ∧ m.serSpeaks y e.val = true ∧ x.wait = none ∧ m.serQueued e.val = [a] ∧ m.pdsOn e.val = [k] ∧ (m.serDesc a).ok = true ∧ (m.serDesc a).dest = m.pdAddr e.val k) ∧
  (let s : State := inA (serS 2 (fun x => { x with wait := some 15 })) (fun m => { m with regs := sput (sput (sput m.regs (rSerPdEn 15) 0x8000) (rSerPdAddr 15 15) 0x7E) (rSerOsdp 15) 0x30000 }); let h : HalfId := .a; let e : Fin 16 := 15; let m := s.half h; let x := m.serOf e.val; let k : Nat := 15; let p := x.pd k; let f : OsdpReply := ⟨0x7E, 0x50, 0, [0, 1, 5, 0], true, false⟩; s.quietBus h = true ∧ m.serProto e.val = 2 ∧ m.serHears e.val = true ∧ f.crcOk = true ∧ (m.pdsOn e.val).find? (fun j => decide (m.pdAddr e.val j = f.addr)) = some k ∧ x.wait = some k ∧ f.seq = p.seq) ∧
  (let s : State := inA (serS 2 (fun x => { x with wait := some 15, pds := [(15, ⟨true, 2, 3⟩)] })) (fun m => { m with regs := sput (sput (sput m.regs (rSerPdEn 15) 0x8000) (rSerPdAddr 15 15) 0x7E) (rSerOsdp 15) 0x30000 }); let h : HalfId := .a; let e : Fin 16 := 15; let m := s.half h; let x := m.serOf e.val; let k : Nat := 15; s.quietBus h = true ∧ m.serProto e.val = 2 ∧ x.wait = some k) ∧
  (let s : State := serS 0 id; let h : HalfId := .a; let e : Fin 16 := 15; let m := s.half h; s.quietBus h = true ∧ m.serProto e.val = 0 ∧ m.serHears e.val = true) ∧
  (let s : State := serQ 0 0 id; let h : HalfId := .a; let e : Fin 16 := 15; let m := s.half h; let y := s.view h; let a := 0x80001000; s.quietBus h = true ∧ m.serProto e.val = 0 ∧ m.serSpeaks y e.val = true ∧ (m.serQueued e.val).head? = some a ∧ (m.serDesc a).ok = true) ∧
  (let s : State := serS 0 id; let h : HalfId := .a; let e : Fin 16 := 15; let r : Req := .core 3; let v : Word := 0x2; let m := s.half h; let old := m.rdF (rSerCtrl e.val) 0 2; let new := fld v 0 2; s.admits h r (rSerCtrl e.val) v = true ∧ new ≠ 3 ∧ fld v 4 2 ≠ 3 ∧ (old = 0 ∨ fld v 4 2 = m.serProto e.val) ∧ ((new ≠ 0 → serRateOk (fld v 4 2) (m.rdF (rSerBaud e.val) 0 22) = true))) ∧
  (let s : State := serS 1 (fun x => { x with mode := 0, fsm := 4, idle := true }); let h : HalfId := .a; let e : Fin 16 := 15; let m := s.half h; let x := m.serOf e.val; s.quietBus h = true ∧ m.on (0x080 + e.val) = true ∧ (x.mode ≠ m.rdF (rSerCtrl e.val) 0 2 ∨ x.idle = true)) ∧
  (let s : State := serS 1 id; let h : HalfId := .a; let e : Fin 16 := 15; let r : Req := .core 3; let v : Word := 1; let sl : Fin 64 := 63; s.admits h r (rSerSlot e.val sl.val) v = true) ∧
  (let s : State := serS 1 id; let h : HalfId := .a; let e : Fin 16 := 15; let r : Req := .core 3; let v : Word := 1; s.admits h r (rSerClr e.val) v = true ∧ flag v 0 = true) := by
  refine ⟨?_, ?_, ?_, ?_, ?_, ?_, ?_, ?_, ?_, ?_, ?_, ?_, ?_, ?_, ?_, ?_, ?_, ?_, ?_, ?_, ?_, ?_, ?_⟩ <;> decide

/-- The premises of each clause of DaliLines can be met. -/
theorem witness_DaliLines :
  (let s : State := daliS (fun x => { x with q := List.replicate 31 tx0, order := 31 }); let h : HalfId := .a; let l : Fin 8 := 7; let r : Req := .core 3; let v : Word := 0x81050000; let m := s.half h; let x := m.daliOf l.val; s.admits h r (rDaliTx l.val) v = true ∧ ((flag v 31 = true → flag v 30 = false)) ∧ 1 ≤ fld v 16 3 ∧ fld v 16 3 ≤ 5 ∧ x.q.length < 32) ∧
  (let s : State := daliS (fun x => { x with q := List.replicate 32 tx0, order := 32 }); let h : HalfId := .a; let l : Fin 8 := 7; let r : Req := .core 3; let v : Word := 0x81050000; let m := s.half h; let x := m.daliOf l.val; s.admits h r (rDaliTx l.val) v = true ∧ ((flag v 31 = true → flag v 30 = false)) ∧ 1 ≤ fld v 16 3 ∧ fld v 16 3 ≤ 5 ∧ 32 ≤ x.q.length) ∧
  (let s : State := daliS (fun x => { x with mode := 2, idle := true }); let h : HalfId := .a; let l : Fin 8 := 7; let m := s.half h; let x := m.daliOf l.val; s.quietBus h = true ∧ m.on (0x090 + l.val) = true ∧ m.rdF (rDaliCtrl l.val) 0 2 = 1 ∧ x.mode ≠ 1) ∧
  (let s : State := daliS (fun x => { x with idle := true, q := [tx0] }); let h : HalfId := .a; let l : Fin 8 := 7; let m := s.half h; let y := s.view h; let x := m.daliOf l.val; s.quietBus h = true ∧ x.mode = 1 ∧ m.daliOn l.val = true ∧ y.any = true ∧ x.down = false ∧ x.phase = 0 ∧ x.idle = true) ∧
  (let s : State := daliS (fun x => { x with q := [tx0, { tx0 with order := 1 }, tx1] }); let h : HalfId := .a; let l : Fin 8 := 7; let m := s.half h; let y := s.view h; let x := m.daliOf l.val; let u : DaliTx := tx1; s.quietBus h = true ∧ x.mode = 1 ∧ x.idle = false ∧ m.daliOn l.val = true ∧ y.any = true ∧ x.down = false ∧ x.phase = 0 ∧ x.cur = none ∧ u ∈ x.q ∧ ((∀ w ∈ x.q, w = u ∨ u.prio < w.prio ∨ (u.prio = w.prio ∧ u.order < w.order)))) ∧
  (let s : State := daliS (fun x => { x with cur := some (tx1), phase := 1, last := [(3, 0)] }); let h : HalfId := .a; let l : Fin 8 := 7; let m := s.half h; let x := m.daliOf l.val; let u : DaliTx := (tx1 : DaliTx); s.quietBus h = true ∧ x.cur = some u ∧ x.phase = 1 ∧ u.twice = true ∧ x.second = false) ∧
  (let s : State := daliS (fun x => { x with cur := some (tx0), phase := 1, last := [(3, 0)] }); let h : HalfId := .a; let l : Fin 8 := 7; let m := s.half h; let x := m.daliOf l.val; let u : DaliTx := (tx0 : DaliTx); s.quietBus h = true ∧ x.cur = some u ∧ x.phase = 1 ∧ (u.twice = false ∨ x.second = true) ∧ u.reply = true) ∧
  (let s : State := daliS (fun x => { x with cur := some ({ tx1 with twice := false }), phase := 1, last := [(3, 0)] }); let h : HalfId := .a; let l : Fin 8 := 7; let m := s.half h; let x := m.daliOf l.val; let u : DaliTx := ({ tx1 with twice := false } : DaliTx); s.quietBus h = true ∧ x.cur = some u ∧ x.phase = 1 ∧ (u.twice = false ∨ x.second = true) ∧ u.reply = false) ∧
  (let s : State := daliS (fun x => { x with cur := some (tx0), phase := 2, last := [(3, 0)] }); let h : HalfId := .a; let l : Fin 8 := 7; let m := s.half h; let x := m.daliOf l.val; let u : DaliTx := (tx0 : DaliTx); s.quietBus h = true ∧ x.cur = some u ∧ m.daliOn l.val = true ∧ x.phase = 2) ∧
  (let s : State := daliS (fun x => { x with cur := some (tx0), phase := 2, last := [(3, 0)] }); let h : HalfId := .a; let l : Fin 8 := 7; let m := s.half h; let x := m.daliOf l.val; let u : DaliTx := (tx0 : DaliTx); s.quietBus h = true ∧ x.cur = some u ∧ x.phase = 2) ∧
  (let s : State := daliS (fun x => { x with cur := some ({ tx0 with tries := 2 }), phase := 1, last := [(3, 0)] }); let h : HalfId := .a; let l : Fin 8 := 7; let m := s.half h; let x := m.daliOf l.val; let u : DaliTx := ({ tx0 with tries := 2 } : DaliTx); s.quietBus h = true ∧ x.cur = some u ∧ x.phase = 1 ∧ u.tries < 3) ∧
  (let s : State := daliS (fun x => { x with cur := some (tx1), phase := 1, last := [(3, 0)] }); let h : HalfId := .a; let l : Fin 8 := 7; let m := s.half h; let x := m.daliOf l.val; let u : DaliTx := (tx1 : DaliTx); s.quietBus h = true ∧ x.cur = some u ∧ x.phase = 1 ∧ 3 ≤ u.tries) ∧
  (let s : State := inA (daliS id) (fun m => { m with ptab := { m.ptab with srcB := [(0, [0x00050104, 0, 0xFF930007, 0, 0, 0, 0, 0])] } }); let h : HalfId := .a; let l : Fin 8 := 7; let m := s.half h; let x := m.daliOf l.val; let b : Nat := 0; let d := m.srcDesc b; s.quietBus h = true ∧ m.daliOn l.val = true ∧ bEn d = true ∧ bKind d = 4 ∧ bByte d 8 = l.val ∧ bByte d 9 = 0 ∧ x.q.length < 32 ∧ x.q.any (fun t => decide (t.src = 3) && decide (t.who = b)) = false) ∧
  (let s : State := daliS id; let h : HalfId := .a; let l : Fin 8 := 7; let m := s.half h; s.quietBus h = true ∧ m.daliOn l.val = true) ∧
  (let s : State := daliS (fun x => { x with q := [tx0], cur := some tx1, phase := 1 }); let h : HalfId := .a; let l : Fin 8 := 7; let m := s.half h; let x := m.daliOf l.val; s.quietBus h = true ∧ m.daliOn l.val = true ∧ x.down = false) ∧
  (let s : State := daliS (fun x => { x with down := true }); let h : HalfId := .a; let l : Fin 8 := 7; let m := s.half h; let x := m.daliOf l.val; s.quietBus h = true ∧ m.daliOn l.val = true ∧ x.down = true) ∧
  (let s : State := daliS id; let h : HalfId := .a; let l : Fin 8 := 7; let r : Req := .core 3; let v : Word := 2; let new := fld v 0 2; s.admits h r (rDaliCtrl l.val) v = true ∧ new ≠ 3) ∧
  (let s : State := daliS id; let h : HalfId := .a; let l : Fin 8 := 7; let r : Req := .core 3; let v : Word := 1; s.admits h r (rDaliClr l.val) v = true ∧ flag v 0 = true) := by
  refine ⟨?_, ?_, ?_, ?_, ?_, ?_, ?_, ?_, ?_, ?_, ?_, ?_, ?_, ?_, ?_, ?_, ?_, ?_⟩ <;> decide

/-- The premises of each clause of EthernetFrames can be met. -/
theorem witness_EthernetFrames :
  (let s : State := macS 0xA0 1 (fun x => { x with link := 3, txq := [txF true], tries := 0 }); let h : HalfId := .a; let port : EthPort := .blda; let m := s.half h; let p := ethPage port; let f : EthRx := rxA false; s.quietBus h = true ∧ m.macLink p = 3 ∧ f.symbol = false ∧ 60 ≤ f.bytes.length ∧ f.bytes.length ≤ 1518 ∧ f.fcsOk = false) ∧
  (let s : State := macS 0xA0 1 (fun x => { x with link := 3, txq := [txF true], tries := 0 }); let h : HalfId := .a; let port : EthPort := .blda; let m := s.half h; let p := ethPage port; let f : EthRx := rxA true; s.quietBus h = true ∧ m.macLink p = 3 ∧ f.symbol = false ∧ 60 ≤ f.bytes.length ∧ f.bytes.length ≤ 1518 ∧ f.fcsOk = true ∧ udpOf f.bytes = none ∧ (etherType f.bytes).1 ≠ 0x8808 ∧ (etherType f.bytes).1 ≠ 0x88F7) ∧
  (let s : State := inA (macS 0xA0 1 (fun x => { x with link := 3, txq := [txF true], tries := 0 })) (fun m => { m with prp := { m.prp with nodes := [⟨9, [(7, 0, 0)], 0⟩] } }); let h : HalfId := .a; let port : EthPort := .blda; let m := s.half h; let p := ethPage port; let f : EthRx := rxA true; let seq : Nat := 7; let n : PrpNode := (⟨9, [(7, 0, 0)], 0⟩ : PrpNode); let lanB := decide (p = 0xA1); s.quietBus h = true ∧ m.macLink p = 3 ∧ f.symbol = false ∧ 60 ≤ f.bytes.length ∧ f.bytes.length ≤ 1518 ∧ f.fcsOk = true ∧ isBld p = true ∧ m.on 0xA2 = true ∧ udpOf f.bytes = none ∧ (rctOf f.bytes = some (seq, if lanB then 0xB else 0xA)) ∧ m.prp.nodes.find? (fun n => decide (n.src = beAt f.bytes 6 6)) = some n ∧ n.seqs.any (fun e => decide (e.1 = seq) && m.prpFresh e.2.2) = true) ∧
  (let s : State := inA (macS 0xA8 1 (fun x => { x with link := 3, txq := [txF true] })) (fun m => pageOn 0x011 m); let h : HalfId := .a; let port : EthPort := .ten 0; let m := s.half h; let p := ethPage port; let f : EthFrame := txF true; let fs : List EthFrame := []; let q := m.macTake p; s.quietBus h = true ∧ q.sheavesIdle = true ∧ (q.macOf p).txq = f :: fs ∧ q.macBound p = false) ∧
  (let s : State := macS 0xA0 1 (fun x => { x with link := 3, txq := [txF true], tries := 0 }); let h : HalfId := .a; let port : EthPort := .blda; let m := s.half h; let y := s.view h; let p := ethPage port; let f : EthFrame := txF true; let fs : List EthFrame := []; let q := m.macTake p; s.quietBus h = true ∧ q.sheavesIdle = true ∧ (q.macOf p).txq = f :: fs ∧ q.macBound p = true ∧ q.macMaySend y p = true ∧ f.sheaf = none ∧ q.tagHolds f = true) ∧
  (let s : State := macS 0xA0 1 (fun x => { x with link := 3, txq := [txF false], tries := 0 }); let h : HalfId := .a; let port : EthPort := .blda; let m := s.half h; let y := s.view h; let p := ethPage port; let f : EthFrame := txF false; let fs : List EthFrame := []; let q := m.macTake p; s.quietBus h = true ∧ q.sheavesIdle = true ∧ (q.macOf p).txq = f :: fs ∧ q.macBound p = true ∧ q.macMaySend y p = true ∧ f.sheaf = none ∧ q.tagHolds f = false) ∧
  (let s : State := macS 0xA0 1 (fun x => { x with link := 3, txq := [txF true], tries := 14 }); let h : HalfId := .a; let port : EthPort := .blda; let m := s.half h; let y := s.view h; let p := ethPage port; let f : EthFrame := txF true; let fs : List EthFrame := []; s.quietBus h = true ∧ m.sheavesIdle = true ∧ (m.macOf p).txq = f :: fs ∧ m.macMaySend y p = true ∧ (m.macOf p).fdx = false ∧ f.sheaf = none ∧ (m.rdB (rMacPlca p) 31 = false ∨ (m.macOf p).fallback = true ∨ isFld p = false) ∧ (m.macOf p).tries < 15) ∧
  (let s : State := macS 0xA0 1 (fun x => { x with link := 3, txq := [txF true], tries := 15 }); let h : HalfId := .a; let port : EthPort := .blda; let m := s.half h; let y := s.view h; let p := ethPage port; let f : EthFrame := txF true; let fs : List EthFrame := []; s.quietBus h = true ∧ m.sheavesIdle = true ∧ (m.macOf p).txq = f :: fs ∧ m.macMaySend y p = true ∧ (m.macOf p).fdx = false ∧ f.sheaf = none ∧ (m.rdB (rMacPlca p) 31 = false ∨ (m.macOf p).fallback = true ∨ isFld p = false) ∧ 15 ≤ (m.macOf p).tries) ∧
  (let s : State := inA (onS [0xA2]) (fun m => { m with regs := sput m.regs rPrpCtrl 1 }); let h : HalfId := .a; let m := s.half h; s.quietBus h = true ∧ m.on 0xA2 = true ∧ m.rdB rPrpCtrl 0 = true) ∧
  (let s : State := inA (onS [0xA2]) (fun m => { m with up := 300000000000, prp := { m.prp with heardB := 1 } }); let h : HalfId := .a; let m := s.half h; s.quietBus h = true ∧ m.on 0xA2 = true ∧ m.prp.faultA = false ∧ m.prp.heardA < m.prp.heardB ∧ m.prp.heardA + m.rdF rPrpCtrl 16 8 * oneSec ≤ m.up) ∧
  (let s : State := inA (onS [0xA2]) (fun m => { m with up := 300000000000, prp := { m.prp with heardA := 1 } }); let h : HalfId := .a; let m := s.half h; s.quietBus h = true ∧ m.on 0xA2 = true ∧ m.prp.faultB = false ∧ m.prp.heardB < m.prp.heardA ∧ m.prp.heardB + m.rdF rPrpCtrl 16 8 * oneSec ≤ m.up) ∧
  (let s : State := inA (macS 0xA0 1 (fun x => { x with link := 3, txq := [txF true], tries := 0 })) (fun m => { m with prp := { m.prp with nodes := [⟨9, [(7, 0, 0)], 0⟩] } }); let h : HalfId := .a; s.quietBus h = true) ∧
  (let s : State := inA (macS 0xB7 1 (fun x => { x with link := 3 })) (fun m => { m with regs := sput m.regs (rMacPlca 0xB7) 0x80010000 }); let h : HalfId := .a; let m := s.half h; let i : Fin 8 := 7; let q := 0xB0 + i.val; s.quietBus h = true ∧ m.macLink q = 3 ∧ m.isT1s q = true ∧ m.rdB (rMacPlca q) 31 = true ∧ m.rdF (rMacPlca q) 16 8 ≠ 0) ∧
  (let s : State := inA (macS 0xB7 1 (fun x => { x with link := 3 })) (fun m => { m with regs := sput m.regs (rMacPlca 0xB7) 0x80010000 }); let h : HalfId := .a; s.quietBus h = true) ∧
  (let s : State := inA (macS 0xB7 1 (fun x => { x with link := 3 })) (fun m => { m with regs := sput m.regs (rMacPlca 0xB7) 0x80000000 }); let h : HalfId := .a; let m := s.half h; let y := s.view h; let i : Fin 8 := 7; let q := 0xB0 + i.val; s.quietBus h = true ∧ m.macMaySend y q = true ∧ m.isT1s q = true ∧ m.rdB (rMacPlca q) 31 = true ∧ m.rdF (rMacPlca q) 16 8 = 0 ∧ y.drives = true) := by
  refine ⟨?_, ?_, ?_, ?_, ?_, ?_, ?_, ?_, ?_, ?_, ?_, ?_, ?_, ?_, ?_⟩ <;> decide

/-- The premises of each clause of EthernetLinks can be met. -/
theorem witness_EthernetLinks :
  (let s : State := macS 0xB8 1 id; let h : HalfId := .a; let port : EthPort := .svc; let m := s.half h; let p := ethPage port; s.quietBus h = true ∧ m.macLink p = 1 ∧ m.isT1s p = false) ∧
  (let s : State := macS 0xB8 1 (fun x => { x with link := 2 }); let h : HalfId := .a; let port : EthPort := .svc; let m := s.half h; let p := ethPage port; let x : LinkMode := ⟨1, true⟩; s.quietBus h = true ∧ (m.macLink p = (if m.isT1s p then 1 else 2)) ∧ m.macModeOk p x = true) ∧
  (let s : State := macS 0xB8 1 (fun x => { x with link := 2 }); let h : HalfId := .a; let port : EthPort := .svc; let m := s.half h; let p := ethPage port; s.quietBus h = true ∧ m.macLink p = 2) ∧
  (let s : State := macS 0xB8 1 (fun x => { x with link := 3 }); let h : HalfId := .a; let port : EthPort := .svc; let m := s.half h; let p := ethPage port; s.quietBus h = true ∧ m.macLink p = 3) ∧
  (let s : State := macS 0xB8 1 (fun x => { x with link := 3 }); let h : HalfId := .a; let port : EthPort := .svc; let r : Req := .core 3; let v : Word := 0x20; let m := s.half h; let p := ethPage port; s.admits h r (rMacCmd p) (putFld v 0 4 1) = true ∧ m.macLink p ≠ 0 ∧ m.macLink p ≠ 4) ∧
  (let s : State := macS 0xB8 1 (fun x => { x with link := 4 }); let h : HalfId := .a; let port : EthPort := .svc; let r : Req := .core 3; let v : Word := 1; let m := s.half h; let p := ethPage port; s.admits h r (rMacCmd p) (putFld v 0 4 2) = true ∧ m.macLink p = 4) ∧
  (let s : State := macS 0xB8 1 (fun x => { x with link := 3 }); let h : HalfId := .a; let port : EthPort := .svc; let r : Req := .core 3; let v : Word := 1; let m := s.half h; let p := ethPage port; s.admits h r (rMacCmd p) (putFld v 0 4 3) = true ∧ m.macLink p = 3 ∧ m.isT1s p = false) ∧
  (let s : State := macS 0xB8 1 (fun x => { x with link := 2 }); let h : HalfId := .a; let port : EthPort := .svc; let r : Req := .core 3; let v : Word := 1; let m := s.half h; let p := ethPage port; s.admits h r (rMacCmd p) (putFld v 0 4 3) = true ∧ (m.macLink p = 1 ∨ m.macLink p = 2 ∨ (m.macLink p = 3 ∧ m.isT1s p = true))) ∧
  (let s : State := macS 0xB7 1 (fun x => { x with link := 3 }); let h : HalfId := .a; let port : EthPort := .fld 7; let r : Req := .core 3; let v : Word := 2; let m := s.half h; let p := ethPage port; let new := fld v 0 2; s.admits h r (rMacCtrl p) v = true ∧ new ≠ 3 ∧ ((new = 2 → isFld p = true ∧ flag v 4 = false)) ∧ ((isFld p = true → m.macMode p ≠ 0 → flag v 4 = m.rdB (rMacCtrl p) 4))) ∧
  (let s : State := macS 0xB8 1 (fun x => { x with link := 3 }); let h : HalfId := .a; let port : EthPort := .svc; let r : Req := .core 3; let v : Word := 1; let p := ethPage port; s.admits h r (rMacClr p) v = true ∧ flag v 0 = true) ∧
  (let s : State := onS [0xA2]; let h : HalfId := .a; let r : Req := .core 3; let v : Word := 1; s.admits h r rPrpClr v = true ∧ flag v 0 = true) := by
  refine ⟨?_, ?_, ?_, ?_, ?_, ?_, ?_, ?_, ?_, ?_, ?_⟩ <;> decide

/-- The premises of each clause of MerzinLinks can be met. -/
theorem witness_MerzinLinks :
  (let s : State := mzS 3 id; let h : HalfId := .a; let p : Fin 4 := 3; let m := s.half h; let y := s.view h; let l := m.mzLink p.val; s.quiet h = true ∧ y.shut p.val = false ∧ l = 1) ∧
  (let s : State := mzS 3 (fun x => { x with link := 2 }); let h : HalfId := .a; let p : Fin 4 := 3; let m := s.half h; let y := s.view h; let l := m.mzLink p.val; let x : MzRx := { mzR mzL with hcheck := ~~~ mzHcheck mzL }; s.quiet h = true ∧ y.shut p.val = false ∧ 2 ≤ l ∧ x.frame.kind = 1 ∧ x.frame.payload.length = 24 ∧ (x.hcheck ≠ mzHcheck x.frame ∨ x.frame.dest = 0)) ∧
  (let s : State := mzS 3 (fun x => { x with link := 2 }); let h : HalfId := .a; let p : Fin 4 := 3; let m := s.half h; let y := s.view h; let l := m.mzLink p.val; let x : MzRx := { mzR mzL with ended := false }; s.quiet h = true ∧ y.shut p.val = false ∧ 2 ≤ l ∧ x.frame.kind = 1 ∧ x.frame.payload.length = 24 ∧ x.hcheck = mzHcheck x.frame ∧ x.frame.dest ≠ 0 ∧ x.ended = false) ∧
  (let s : State := mzS 3 (fun x => { x with link := 2 }); let h : HalfId := .a; let p : Fin 4 := 3; let m := s.half h; let y := s.view h; let l := m.mzLink p.val; let x : MzRx := { mzR mzL with grain := ~~~ mzGrain mzL }; s.quiet h = true ∧ y.shut p.val = false ∧ 2 ≤ l ∧ x.frame.kind = 1 ∧ x.frame.payload.length = 24 ∧ x.hcheck = mzHcheck x.frame ∧ x.frame.dest ≠ 0 ∧ x.ended = true ∧ x.grain ≠ mzGrain x.frame) ∧
  (let s : State := inA (mzS 3 (fun x => { x with link := 2, key1 := some (List.replicate 8 5) })) (fun m => { m with regs := sput m.regs (rMzpKeyCtrl 3) 0x130 }); let h : HalfId := .a; s.quiet h = true) ∧
  (let s : State := inA (mzS 3 (fun x => { x with link := 2, key1 := some (List.replicate 8 5) })) (fun m => { m with regs := sput m.regs (rMzpKeyCtrl 3) 0x130 }); let h : HalfId := .a; let p : Fin 4 := 3; let y := s.view h; y.shut p.val = false) ∧
  (let s : State := inA (mzS 3 (fun x => { x with link := 2, key1 := some (List.replicate 8 5) })) (fun m => { m with regs := sput m.regs (rMzpKeyCtrl 3) 0x130 }); let h : HalfId := .a; let p : Fin 4 := 3; let m := s.half h; let l := m.mzLink p.val; 2 ≤ l) ∧
  (let s : State := inA (mzS 3 (fun x => { x with link := 2, key1 := some (List.replicate 8 5) })) (fun m => { m with regs := sput m.regs (rMzpKeyCtrl 3) 0x130 }); let x : MzRx := mzT s 3 0x31 1 1 mzL; x.frame.kind = 1) ∧
  (let s : State := inA (mzS 3 (fun x => { x with link := 2, key1 := some (List.replicate 8 5) })) (fun m => { m with regs := sput m.regs (rMzpKeyCtrl 3) 0x130 }); let x : MzRx := mzT s 3 0x31 1 1 mzL; x.frame.payload.length = 24) ∧
  (let s : State := inA (mzS 3 (fun x => { x with link := 2, key1 := some (List.replicate 8 5) })) (fun m => { m with regs := sput m.regs (rMzpKeyCtrl 3) 0x130 }); let x : MzRx := mzT s 3 0x31 1 1 mzL; x.hcheck = mzHcheck x.frame) ∧
  (let s : State := inA (mzS 3 (fun x => { x with link := 2, key1 := some (List.replicate 8 5) })) (fun m => { m with regs := sput m.regs (rMzpKeyCtrl 3) 0x130 }); let x : MzRx := mzT s 3 0x31 1 1 mzL; x.frame.dest ≠ 0) ∧
  (let s : State := inA (mzS 3 (fun x => { x with link := 2, key1 := some (List.replicate 8 5) })) (fun m => { m with regs := sput m.regs (rMzpKeyCtrl 3) 0x130 }); let x : MzRx := mzT s 3 0x31 1 1 mzL; x.ended = true) ∧
  (let s : State := inA (mzS 3 (fun x => { x with link := 2, key1 := some (List.replicate 8 5) })) (fun m => { m with regs := sput m.regs (rMzpKeyCtrl 3) 0x130 }); let x : MzRx := mzT s 3 0x31 1 1 mzL; x.grain = mzGrain x.frame) ∧
  (let s : State := inA (mzS 3 (fun x => { x with link := 2, key1 := some (List.replicate 8 5) })) (fun m => { m with regs := sput m.regs (rMzpKeyCtrl 3) 0x130 }); let h : HalfId := .a; let p : Fin 4 := 3; let r : Req := .core 3; let v : Word := 1; let m := s.half h; let y := s.view h; let n := reqNum r; let l := m.mzLink p.val; let x : MzRx := mzT s 3 0x31 1 1 mzL; let pay := x.frame.payload; let ok := m.mzTagOk p.val (leAt pay 0 2) (leAt pay 2 1) x; ok = true) ∧
  (let s : State := inA (mzS 3 (fun x => { x with link := 2, key1 := some (List.replicate 8 5) })) (fun m => { m with regs := sput m.regs (rMzpKeyCtrl 3) 0x130 }); let h : HalfId := .a; let p : Fin 4 := 3; let m := s.half h; let l := m.mzLink p.val; l = 2) ∧
  (let s : State := inA (mzS 3 (fun x => { x with link := 2, key1 := some (List.replicate 8 5) })) (fun m => { m with regs := sput m.regs (rMzpKeyCtrl 3) 0x130 }); let h : HalfId := .a; let p : Fin 4 := 3; let m := s.half h; m.rdB (rMzpKeyCtrl p.val) 8 = true) ∧
  (let s : State := inA (mzS 3 (fun x => { x with link := 2, key1 := some (List.replicate 8 5) })) (fun m => { m with regs := sput m.regs (rMzpKeyCtrl 3) 0x130 }); let h : HalfId := .a; let p : Fin 4 := 3; let m := s.half h; let y := s.view h; let l := m.mzLink p.val; let x : MzRx := mzR mzL; let pay := x.frame.payload; let ok := m.mzTagOk p.val (leAt pay 0 2) (leAt pay 2 1) x; s.quiet h = true ∧ y.shut p.val = false ∧ 2 ≤ l ∧ x.frame.kind = 1 ∧ x.frame.payload.length = 24 ∧ x.hcheck = mzHcheck x.frame ∧ x.frame.dest ≠ 0 ∧ x.ended = true ∧ x.grain = mzGrain x.frame ∧ ok = false ∧ l = 2) ∧
  (let s : State := mzS 0 (fun x => { x with link := 3 }); let h : HalfId := .a; let p : Fin 4 := 0; let m := s.half h; let y := s.view h; let l := m.mzLink p.val; s.quiet h = true ∧ y.shut p.val = false ∧ 2 ≤ l ∧ m.mzMaySend y p.val = true) ∧
  (let s : State := mzS 3 (fun x => { x with link := 2 }); let h : HalfId := .a; let p : Fin 4 := 3; let m := s.half h; let l := m.mzLink p.val; s.quiet h = true ∧ l = 2) ∧
  (let s : State := mzS 3 (fun x => { x with link := 4 }); let h : HalfId := .a; let p : Fin 4 := 3; let m := s.half h; let l := m.mzLink p.val; s.quiet h = true ∧ 2 ≤ l) ∧
  (let s : State := (mzS 0 (fun x => { x with link := 4 })).updYk (fun y => { y with a := { y.a with role := .muted }, b := { y.b with role := .retired }, holder := none }); s.yoke.relay = false ∧ s.speaks .a = false ∧ s.speaks .b = false) ∧
  (let s : State := mzS 3 id; s.yoke.relay = false ∧ (s.speaks .a = true ∨ s.speaks .b = true)) ∧
  (let s : State := inA (mzS 3 id) (fun m => { m with mz := { m.mz with dups := [(5, ⟨7, 0, 0⟩), (9, ⟨7, 0, 0⟩)] } }); let h : HalfId := .a; let m := s.half h; let k : Nat := 5; let e : MzDup := ⟨7, 0, 0⟩; s.quiet h = true ∧ sfind m.mz.dups k = some e) ∧
  (let s : State := inA (mzS 3 id) (fun m => { m with mz := { m.mz with fwdMax := 655351 } }); let h : HalfId := .a; let m := s.half h; s.quiet h = true ∧ m.mz.fwdMax ≠ 0) ∧
  (let s : State := mzS 0 (fun x => { x with link := 4 }); let h : HalfId := .a; let p : Fin 4 := 0; let r : Req := .core 3; let v : Word := 0x31000F; s.admits h r rMzWakeTx v = true ∧ flag v 0 = true ∧ s.ringOpen h p.val = true) ∧
  (let s : State := (mzS 3 id).upd .a (fun m => m.updAcc (reqNum (.ipp 0x1001)) (fun a => { a with staged := [(rMzpKey1 3 + 4, ⟨7, 0⟩)] })); let h : HalfId := .a; let p : Fin 4 := 3; let r : Req := .ipp 0x1001; let v : Word := 1; let m := s.half h; let slot : Fin 2 := 1; (s.admits h r (if slot.val = 0 then rMzpKey0 p.val else rMzpKey1 p.val) v = true) ∧ m.rdF (rMzpKeyCtrl p.val) 0 1 ≠ slot.val) ∧
  (let s : State := mzS 3 (fun x => { x with link := 4, keyed := true, key1 := some (List.replicate 8 5) }); let h : HalfId := .a; let p : Fin 4 := 3; let r : Req := .ipp 0x1001; let v : Word := 0x31; let m := s.half h; let slot := fld v 0 1; s.admits h r (rMzpKeyCtrl p.val) v = true ∧ fld v 4 2 ≠ 0 ∧ ((m.mzp p.val).key slot).isSome = true) ∧
  (let s : State := mzS 3 id; let h : HalfId := .a; let r : Req := .core 3; let v : Word := 1; s.admits h r rMzClr v = true ∧ flag v 0 = true) ∧
  (let s : State := mzS 3 id; let h : HalfId := .a; let p : Fin 4 := 3; let r : Req := .core 3; let v : Word := 1; s.admits h r (rMzpClr p.val) v = true ∧ flag v 0 = true) := by
  refine ⟨?_, ?_, ?_, ?_, ?_, ?_, ?_, ?_, ?_, ?_, ?_, ?_, ?_, ?_, ?_, ?_, ?_, ?_, ?_, ?_, ?_, ?_, ?_, ?_, ?_, ?_, ?_, ?_, ?_⟩
  · decide
  · decide
  · decide
  · decide
  · decide
  · decide
  · decide
  · decide
  · decide
  · decide
  · decide
  · decide
  · decide
  · intros; refine Bool.and_eq_true_iff.mpr ⟨?_, ?_⟩; decide; exact decide_eq_true rfl
  · decide
  · decide
  · decide
  · decide
  · decide
  · decide
  · decide
  · decide
  · decide
  · decide
  · decide
  · decide
  · decide
  · decide
  · decide

/-- The premises of each clause of MerzinFrames can be met. -/
theorem witness_MerzinFrames :
  (let s : State := mzS 3 (fun x => { x with link := 4 }); let h : HalfId := .a; let p : Fin 4 := 3; let x : MzRx := { mzR (mzF 0x13 0x23 []) with hcheck := ~~~ mzHcheck (mzF 0x13 0x23 []) }; let m := s.half h; let y := s.view h; let g := x.frame; s.quiet h = true ∧ y.shut p.val = false ∧ m.mzLink p.val = 4 ∧ g.kind ≠ 1 ∧ (x.hcheck ≠ mzHcheck g ∨ g.dest = 0)) ∧
  (let s : State := inA (mzS 3 (fun x => { x with link := 4 })) (fun m => { m with regs := sput m.regs (rMzpDelay 3) 5000 }); let h : HalfId := .a; let p : Fin 4 := 3; let x : MzRx := mzR { mzF 0x13 0x23 [] with budget := 1 }; let m := s.half h; let y := s.view h; let g := x.frame; s.quiet h = true ∧ y.shut p.val = false ∧ m.mzLink p.val = 4 ∧ g.kind ≠ 1 ∧ x.hcheck = mzHcheck g ∧ g.dest ≠ 0 ∧ g.budget ≤ m.hopCost p.val) ∧
  (let s : State := flyS (⟨mzF 0x13 0x24 [], 2, [0], none, false, false⟩ : MzFlight); let h : HalfId := .a; let p : Fin 4 := 3; let x : MzRx := mzR (mzF 0x13 0x24 []); let m := s.half h; let y := s.view h; let g := x.frame; let z := (⟨mzF 0x13 0x24 [], 2, [0], none, false, false⟩ : MzFlight); s.quiet h = true ∧ y.shut p.val = false ∧ m.mzLink p.val = 4 ∧ g.kind ≠ 1 ∧ x.hcheck = mzHcheck g ∧ g.dest ≠ 0 ∧ m.hopCost p.val < g.budget ∧ m.mzFirst g = some z) ∧
  (let s : State := mzS 3 (fun x => { x with link := 4 }); let h : HalfId := .a; let p : Fin 4 := 3; let x : MzRx := mzR (mzF 0x13 0x24 []); let m := s.half h; let y := s.view h; let g := x.frame; let key := dupKey g.src g.stream; s.quiet h = true ∧ y.shut p.val = false ∧ m.mzLink p.val = 4 ∧ g.kind ≠ 1 ∧ x.hcheck = mzHcheck g ∧ g.dest ≠ 0 ∧ m.hopCost p.val < g.budget ∧ m.mzFirst g = none ∧ ((∀ e, sfind m.mz.dups key = some e → m.dupFresh e = false)) ∧ ((sfind m.mz.dups key = none → m.mz.dups.length < 4096))) ∧
  (let s : State := inA (mzS 3 (fun x => { x with link := 4 })) (fun m => { m with mz := { m.mz with dups := [(dupKey 0x31 0x85, ⟨7, 0, 0⟩)] } }); let h : HalfId := .a; let p : Fin 4 := 3; let x : MzRx := mzR (mzF 0x13 0x23 []); let m := s.half h; let y := s.view h; let g := x.frame; let key := dupKey g.src g.stream; let e : MzDup := ⟨7, 0, 0⟩; s.quiet h = true ∧ y.shut p.val = false ∧ m.mzLink p.val = 4 ∧ g.kind ≠ 1 ∧ x.hcheck = mzHcheck g ∧ g.dest ≠ 0 ∧ m.hopCost p.val < g.budget ∧ m.mzFirst g = none ∧ sfind m.mz.dups key = some e ∧ m.dupFresh e = true ∧ g.seq = e.high) ∧
  (let s : State := inA (mzS 3 (fun x => { x with link := 4 })) (fun m => { m with mz := { m.mz with dups := [(dupKey 0x31 0x85, ⟨6, 0, 0⟩)] } }); let h : HalfId := .a; let p : Fin 4 := 3; let x : MzRx := mzR (mzF 0x13 0x23 []); let m := s.half h; let y := s.view h; let g := x.frame; let key := dupKey g.src g.stream; let e : MzDup := ⟨6, 0, 0⟩; s.quiet h = true ∧ y.shut p.val = false ∧ m.mzLink p.val = 4 ∧ g.kind ≠ 1 ∧ x.hcheck = mzHcheck g ∧ g.dest ≠ 0 ∧ m.hopCost p.val < g.budget ∧ m.mzFirst g = none ∧ sfind m.mz.dups key = some e ∧ m.dupFresh e = true ∧ g.seq = e.high + 1) ∧
  (let s : State := flyS (⟨mzF 0x13 0x24 [], 3, [], none, false, false⟩ : MzFlight); let h : HalfId := .a; let p : Fin 4 := 3; let x : MzRx := { mzR (mzF 0x13 0x24 []) with grain := ~~~ mzGrain (mzF 0x13 0x24 []) }; let m := s.half h; let g := x.frame; let z : MzFlight := (⟨mzF 0x13 0x24 [], 3, [], none, false, false⟩ : MzFlight); s.quiet h = true ∧ m.mzFlight p.val g = some z ∧ z.held = false ∧ m.mzHeld z.frame = [] ∧ (s.half (other h)).mzFlight p.val g = none ∧ (s.a.fslot 2).cfgPack = none ∧ (s.b.fslot 2).cfgPack = none ∧ x.ended = true ∧ x.grain ≠ mzGrain g ∧ ((∀ e, sfind m.mz.dups (dupKey z.frame.src z.frame.stream) = some e → e.high = z.frame.seq)) ∧ z.old = none) ∧
  (let s : State := flyS (⟨mzF 0x13 0x24 [], 3, [0], none, false, false⟩ : MzFlight); let h : HalfId := .a; let p : Fin 4 := 3; let x : MzRx := { mzR (mzF 0x13 0x24 []) with grain := ~~~ mzGrain (mzF 0x13 0x24 []) }; let m := s.half h; let y := s.view h; let g := x.frame; let z : MzFlight := (⟨mzF 0x13 0x24 [], 3, [0], none, false, false⟩ : MzFlight); let q : Nat := 0; s.quiet h = true ∧ m.mzFlight p.val g = some z ∧ z.held = false ∧ m.mzHeld z.frame = [] ∧ (s.half (other h)).mzFlight p.val g = none ∧ (s.a.fslot 2).cfgPack = none ∧ (s.b.fslot 2).cfgPack = none ∧ x.ended = true ∧ x.grain ≠ mzGrain g ∧ q ≠ p.val ∧ z.outs = [q] ∧ m.mzMaySend y q = true ∧ (m.mzp q).link = 4) ∧
  (let s : State := flyS (⟨mzF 0x13 0x24 [], 3, [0], none, false, false⟩ : MzFlight); let h : HalfId := .a; s.quiet h = true) ∧
  (let s : State := flyS (⟨mzF 0x13 0x24 [], 3, [0], none, false, false⟩ : MzFlight); let h : HalfId := .a; let p : Fin 4 := 3; let x : MzRx := mzT s 3 0 0 0 (mzF 0x13 0x24 []); let m := s.half h; let g := x.frame; let z : MzFlight := (⟨mzF 0x13 0x24 [], 3, [0], none, false, false⟩ : MzFlight); m.mzFlight p.val g = some z) ∧
  (let z : MzFlight := (⟨mzF 0x13 0x24 [], 3, [0], none, false, false⟩ : MzFlight); z.held = false) ∧
  (let s : State := flyS (⟨mzF 0x13 0x24 [], 3, [0], none, false, false⟩ : MzFlight); let h : HalfId := .a; let m := s.half h; let z : MzFlight := (⟨mzF 0x13 0x24 [], 3, [0], none, false, false⟩ : MzFlight); m.mzHeld z.frame = []) ∧
  (let s : State := flyS (⟨mzF 0x13 0x24 [], 3, [0], none, false, false⟩ : MzFlight); let h : HalfId := .a; let p : Fin 4 := 3; let x : MzRx := mzT s 3 0 0 0 (mzF 0x13 0x24 []); let g := x.frame; (s.half (other h)).mzFlight p.val g = none) ∧
  (let s : State := flyS (⟨mzF 0x13 0x24 [], 3, [0], none, false, false⟩ : MzFlight); (s.a.fslot 2).cfgPack = none) ∧
  (let s : State := flyS (⟨mzF 0x13 0x24 [], 3, [0], none, false, false⟩ : MzFlight); (s.b.fslot 2).cfgPack = none) ∧
  (let s : State := flyS (⟨mzF 0x13 0x24 [], 3, [0], none, false, false⟩ : MzFlight); let x : MzRx := mzT s 3 0 0 0 (mzF 0x13 0x24 []); x.ended = true) ∧
  (let s : State := flyS (⟨mzF 0x13 0x24 [], 3, [0], none, false, false⟩ : MzFlight); let x : MzRx := mzT s 3 0 0 0 (mzF 0x13 0x24 []); let g := x.frame; x.grain = mzGrain g) ∧
  (let s : State := flyS (⟨mzF 0x13 0x24 [], 3, [0], none, false, false⟩ : MzFlight); let h : HalfId := .a; let p : Fin 4 := 3; let x : MzRx := mzT s 3 0 0 0 (mzF 0x13 0x24 []); let f : MzFrame := mzF 0x13 0x23 []; let m := s.half h; let y := s.view h; let g := x.frame; let key := dupKey g.src g.stream; let z : MzFlight := (⟨mzF 0x13 0x24 [], 3, [0], none, false, false⟩ : MzFlight); let q : Nat := 0; m.mzTagOk p.val (m.mzp p.val).neigh (m.mzp p.val).nport x = true) ∧
  (let z : MzFlight := (⟨mzF 0x13 0x24 [], 3, [0], none, false, false⟩ : MzFlight); z.frame.kind ≠ 0x40) ∧
  (let s : State := flyS (⟨mzF 0x13 0x24 [], 3, [0], none, false, false⟩ : MzFlight); let h : HalfId := .a; let m := s.half h; let z : MzFlight := (⟨mzF 0x13 0x24 [], 3, [0], none, false, false⟩ : MzFlight); m.mzMine z.frame = false) ∧
  (let z : MzFlight := (⟨mzF 0x13 0x24 [], 3, [0], none, false, false⟩ : MzFlight); let q : Nat := 0; z.outs = [q]) ∧
  (let s : State := flyS (⟨mzF 0x13 0x24 [], 3, [0], none, false, false⟩ : MzFlight); let h : HalfId := .a; let y := s.view h; y.start = false) ∧
  (let s : State := flyS (⟨mzF 0x13 0x24 [], 3, [0], none, false, false⟩ : MzFlight); let h : HalfId := .a; let m := s.half h; let q : Nat := 0; m.on (mzPage q) = true) ∧
  (let s : State := flyS (⟨mzF 0x13 0x24 [], 3, [0], none, false, false⟩ : MzFlight); let h : HalfId := .a; let m := s.half h; let y := s.view h; let q : Nat := 0; m.mzMaySend y q = true) ∧
  (let s : State := flyS (⟨mzF 0x13 0x24 [], 3, [0], none, false, false⟩ : MzFlight); let h : HalfId := .a; let m := s.half h; let q : Nat := 0; (m.mzp q).link = 4) ∧
  (let s : State := flyS (⟨mzF 0x13 0x23 (leBytes 2 5 ++ [17, 0] ++ leBytes 8 77), 3, [], none, false, false⟩ : MzFlight); let h : HalfId := .a; s.quiet h = true) ∧
  (let s : State := flyS (⟨mzF 0x13 0x23 (leBytes 2 5 ++ [17, 0] ++ leBytes 8 77), 3, [], none, false, false⟩ : MzFlight); let h : HalfId := .a; let p : Fin 4 := 3; let x : MzRx := mzT s 3 0 0 0 (mzF 0x13 0x23 (leBytes 2 5 ++ [17, 0] ++ leBytes 8 77)); let m := s.half h; let g := x.frame; let z : MzFlight := (⟨mzF 0x13 0x23 (leBytes 2 5 ++ [17, 0] ++ leBytes 8 77), 3, [], none, false, false⟩ : MzFlight); m.mzFlight p.val g = some z) ∧
  (let z : MzFlight := (⟨mzF 0x13 0x23 (leBytes 2 5 ++ [17, 0] ++ leBytes 8 77), 3, [], none, false, false⟩ : MzFlight); z.held = false) ∧
  (let s : State := flyS (⟨mzF 0x13 0x23 (leBytes 2 5 ++ [17, 0] ++ leBytes 8 77), 3, [], none, false, false⟩ : MzFlight); let h : HalfId := .a; let m := s.half h; let z : MzFlight := (⟨mzF 0x13 0x23 (leBytes 2 5 ++ [17, 0] ++ leBytes 8 77), 3, [], none, false, false⟩ : MzFlight); m.mzHeld z.frame = []) ∧
  (let s : State := flyS (⟨mzF 0x13 0x23 (leBytes 2 5 ++ [17, 0] ++ leBytes 8 77), 3, [], none, false, false⟩ : MzFlight); let h : HalfId := .a; let p : Fin 4 := 3; let x : MzRx := mzT s 3 0 0 0 (mzF 0x13 0x23 (leBytes 2 5 ++ [17, 0] ++ leBytes 8 77)); let g := x.frame; (s.half (other h)).mzFlight p.val g = none) ∧
  (let s : State := flyS (⟨mzF 0x13 0x23 (leBytes 2 5 ++ [17, 0] ++ leBytes 8 77), 3, [], none, false, false⟩ : MzFlight); (s.a.fslot 2).cfgPack = none) ∧
  (let s : State := flyS (⟨mzF 0x13 0x23 (leBytes 2 5 ++ [17, 0] ++ leBytes 8 77), 3, [], none, false, false⟩ : MzFlight); (s.b.fslot 2).cfgPack = none) ∧
  (let s : State := flyS (⟨mzF 0x13 0x23 (leBytes 2 5 ++ [17, 0] ++ leBytes 8 77), 3, [], none, false, false⟩ : MzFlight); let x : MzRx := mzT s 3 0 0 0 (mzF 0x13 0x23 (leBytes 2 5 ++ [17, 0] ++ leBytes 8 77)); x.ended = true) ∧
  (let s : State := flyS (⟨mzF 0x13 0x23 (leBytes 2 5 ++ [17, 0] ++ leBytes 8 77), 3, [], none, false, false⟩ : MzFlight); let x : MzRx := mzT s 3 0 0 0 (mzF 0x13 0x23 (leBytes 2 5 ++ [17, 0] ++ leBytes 8 77)); let g := x.frame; x.grain = mzGrain g) ∧
  (let s : State := flyS (⟨mzF 0x13 0x23 (leBytes 2 5 ++ [17, 0] ++ leBytes 8 77), 3, [], none, false, false⟩ : MzFlight); let h : HalfId := .a; let p : Fin 4 := 3; let x : MzRx := mzT s 3 0 0 0 (mzF 0x13 0x23 (leBytes 2 5 ++ [17, 0] ++ leBytes 8 77)); let f : MzFrame := mzF 0x13 0x23 []; let m := s.half h; let y := s.view h; let g := x.frame; let key := dupKey g.src g.stream; let z : MzFlight := (⟨mzF 0x13 0x23 (leBytes 2 5 ++ [17, 0] ++ leBytes 8 77), 3, [], none, false, false⟩ : MzFlight); let i : Nat := 5; m.mzTagOk p.val (m.mzp p.val).neigh (m.mzp p.val).nport x = true) ∧
  (let z : MzFlight := (⟨mzF 0x13 0x23 (leBytes 2 5 ++ [17, 0] ++ leBytes 8 77), 3, [], none, false, false⟩ : MzFlight); z.frame.kind = 0x13) ∧
  (let s : State := flyS (⟨mzF 0x13 0x23 (leBytes 2 5 ++ [17, 0] ++ leBytes 8 77), 3, [], none, false, false⟩ : MzFlight); let h : HalfId := .a; let m := s.half h; let z : MzFlight := (⟨mzF 0x13 0x23 (leBytes 2 5 ++ [17, 0] ++ leBytes 8 77), 3, [], none, false, false⟩ : MzFlight); m.mzMine z.frame = true) ∧
  (let z : MzFlight := (⟨mzF 0x13 0x23 (leBytes 2 5 ++ [17, 0] ++ leBytes 8 77), 3, [], none, false, false⟩ : MzFlight); stampOk z.frame.stamp = true) ∧
  (let z : MzFlight := (⟨mzF 0x13 0x23 (leBytes 2 5 ++ [17, 0] ++ leBytes 8 77), 3, [], none, false, false⟩ : MzFlight); 12 ≤ z.frame.payload.length) ∧
  (let z : MzFlight := (⟨mzF 0x13 0x23 (leBytes 2 5 ++ [17, 0] ++ leBytes 8 77), 3, [], none, false, false⟩ : MzFlight); leAt z.frame.payload 3 1 ≤ 1) ∧
  (let s : State := flyS (⟨mzF 0x13 0x23 (leBytes 2 5 ++ [17, 0] ++ leBytes 8 77), 3, [], none, false, false⟩ : MzFlight); let h : HalfId := .a; let m := s.half h; let z : MzFlight := (⟨mzF 0x13 0x23 (leBytes 2 5 ++ [17, 0] ++ leBytes 8 77), 3, [], none, false, false⟩ : MzFlight); let i : Nat := 5; m.pointHere z.frame.dest (leAt z.frame.payload 0 2) = some i) ∧
  (let s : State := inA (mzS 3 id) (fun m => { m with ptab := { m.ptab with recs := [(5, let r : PointRec := { recReset with typeUnit := 0x3000, tc := 0x8000, level := 17, srcBind := 0 }; { r with check := recCheck r })], srcB := [(0, [0x00050106, 0, 0x000B0031, 0, 0x3F800000, 0, 0x2000, 0])] } }); let h : HalfId := .a; let f : MzFrame := mzF 0x10 0x23 (leBytes 2 11 ++ leBytes 2 1 ++ recAll (let r : PointRec := { recReset with typeUnit := 0x3000, value := 9 }; { r with check := recCheck r })); let m := s.half h; let b : Nat := 0; let w : Dword := 9; let rg : Bool := false; let d := m.srcDesc b; let rec_ := recOf ((f.payload.drop 4).take 32); s.quiet h = true ∧ f.dest = m.addr ∧ 36 ≤ f.payload.length ∧ m.sources (fun d => decide (bKind d = 6) && decide (bHalf d 8 = f.src) && decide (bHalf d 10 = leAt f.payload 0 2)) = [b] ∧ bEn d = true ∧ toType (recType (m.pt (bPoint d))) (linear d (recNumber d rec_)) = some (w, rg)) ∧
  (let s : State := mzS 3 id; let h : HalfId := .a; let f : MzFrame := mzF 0x13 0x23 (leBytes 2 5 ++ [17, 0] ++ leBytes 8 77); let m := s.half h; s.quiet h = true ∧ f.dest = m.addr ∧ 12 ≤ f.payload.length ∧ leAt f.payload 3 1 ≤ 1) ∧
  (let s : State := inA (mzS 3 id) (fun m => { m with fwds := [⟨7, ⟨1, 9, 40000, 0x4947, 1, 6, 0, 0, 1, 8, leBytes 8 0⟩, 0, [], [⟨77, 0x31, [0]⟩]⟩] }); let h : HalfId := .a; let f : MzFrame := mzF 0x12 0x23 (leBytes 4 77 ++ [6, 0, 4, 0]); let m := s.half h; let q : Forward := (⟨7, ⟨1, 9, 40000, 0x4947, 1, 6, 0, 0, 1, 8, leBytes 8 0⟩, 0, [], [⟨77, 0x31, [0]⟩]⟩ : Forward); let b : Nat := 0xA0; s.quiet h = true ∧ f.dest = m.addr ∧ q.req.op = leAt f.payload 4 1 ∧ (q.req.op = 6 ∨ q.req.op = 7) ∧ q.req.port ≠ 5 ∧ m.txPage q.req.port = some b ∧ q.parts ≠ [] ∧ ((∀ e ∈ q.parts, e.reqId = leAt f.payload 0 4 ∧ e.module_ = f.src)) ∧ m.fwds.find? (fun z => z.parts.any (fun e => decide (e.reqId = leAt f.payload 0 4) && decide (e.module_ = f.src)) && decide (z.req.op = leAt f.payload 4 1)) = some q) ∧
  (let s : State := inA (mzS 3 id) (fun m => { m with tmpl := [(3, ⟨[], 0, some 0, 0, 0x85, 2⟩)], shf := { m.shf with seen := [(0x31, 7, 2)] } }); let h : HalfId := .a; let f : MzFrame := mzF 0x40 0x23 [7, 0, 0, 0, 2]; let m := s.half h; let u : Template := (⟨[], 0, some 0, 0, 0x85, 2⟩ : Template); let repeats := u.pairAt.any (fun o => decide ((f.src, (word (leAt f.payload o 4), leAt f.payload (o + 4) 1)) ∈ m.shf.seen)); s.quiet h = true ∧ f.dest = m.addr ∧ m.streamTmpl f.stream = some u ∧ repeats = true) ∧
  (let s : State := inA (mzS 3 id) (fun m => { m with tmpl := [(3, ⟨[], 0, none, 0, 0x85, 2⟩)], que := { m.que with q := [(130, [0x1000, 0x1800])] } }); let h : HalfId := .a; let f : MzFrame := mzF 0x40 0x23 [1, 2, 3]; let m := s.half h; let u : Template := (⟨[], 0, none, 0, 0x85, 2⟩ : Template); let a : Nat := 0x1000; let rest : List Nat := [0x1800]; let repeats := u.pairAt.any (fun o => decide ((f.src, (word (leAt f.payload o 4), leAt f.payload (o + 4) 1)) ∈ m.shf.seen)); s.quiet h = true ∧ f.dest = m.addr ∧ m.streamTmpl f.stream = some u ∧ repeats = false ∧ m.queue (u.queue + 128) = a :: rest ∧ (m.queue u.queue).length < 1024) ∧
  (let s : State := inA (mzS 3 id) (fun m => { m with ptab := { m.ptab with recs := [(5, let r : PointRec := { recReset with typeUnit := 0x3000, tc := 0x8000, level := 17, srcBind := 0 }; { r with check := recCheck r })], srcB := [(0, [0x00050106, 0, 0x000B0031, 0, 0x3F800000, 0, 0x2000, 0])] } }); let h : HalfId := .a; let f : MzFrame := mzF 0x11 0x23 (leBytes 4 77 ++ [1, 0, 0, 0] ++ leBytes 4 1 ++ leBytes 4 (pointAddr 0x23 5)); let m := s.half h; let y := s.view h; let id : Nat := 77; let i : Nat := 5; let q : Fin 2 := 0; h = s.primary ∧ s.quiet h = true ∧ y.recov = false ∧ f.dest = m.addr ∧ m.addr < 2 ^ 16 ∧ i < 0xFFFF ∧ f.payload = leBytes 4 id ++ [1, 0, 0, 0] ++ leBytes 4 1 ++ leBytes 4 (pointAddr m.addr i) ∧ ippMay 1 (stampClass f.stamp) = true ∧ m.heldAway i = false ∧ m.recOk i = true ∧ s.ringOpen h q.val = true) := by
  refine ⟨?_, ?_, ?_, ?_, ?_, ?_, ?_, ?_, ?_, ?_, ?_, ?_, ?_, ?_, ?_, ?_, ?_, ?_, ?_, ?_, ?_, ?_, ?_, ?_, ?_, ?_, ?_, ?_, ?_, ?_, ?_, ?_, ?_, ?_, ?_, ?_, ?_, ?_, ?_, ?_, ?_, ?_, ?_, ?_, ?_, ?_, ?_⟩
  · decide
  · decide
  · decide
  · decide
  · decide
  · decide
  · decide
  · decide
  · decide
  · decide
  · decide
  · decide
  · decide
  · decide
  · decide
  · decide
  · decide
  · intros; refine Bool.and_eq_true_iff.mpr ⟨?_, ?_⟩; decide; exact decide_eq_true rfl
  · decide
  · decide
  · decide
  · decide
  · decide
  · decide
  · decide
  · decide
  · decide
  · decide
  · decide
  · decide
  · decide
  · decide
  · decide
  · decide
  · intros; refine Bool.and_eq_true_iff.mpr ⟨?_, ?_⟩; decide; exact decide_eq_true rfl
  · decide
  · decide
  · decide
  · decide
  · decide
  · decide
  · decide
  · decide
  · decide
  · decide
  · decide
  · decide

/-- The premises of each clause of FosterSlots can be met. -/
theorem witness_FosterSlots :
  (let s : State := fsS { fostSlotReset with st := 3, asleep := true } (id); let h : HalfId := .a; let k : Fin 2 := 1; let f : MzFrame := mzQ 3 [0, 1]; let m := s.half h; s.quiet h = true ∧ f.dest = m.addr ∧ m.slotFor f.src = some k.val) ∧
  (let s : State := fsS { fostSlotReset with st := 2 } (id); let h : HalfId := .a; let k : Fin 2 := 1; let f : MzFrame := mzQ 0x33 []; let m := s.half h; s.quiet h = true ∧ f.dest = m.addr ∧ m.slotFor f.src = some k.val) ∧
  (let s : State := fsS { fostSlotReset with st := 1 } (id); let h : HalfId := .a; let k : Fin 2 := 1; let f : MzFrame := mzQ 0x34 []; let m := s.half h; s.quiet h = true ∧ f.dest = m.addr ∧ m.slotFor f.src = some k.val) ∧
  (let s : State := fsS { fostSlotReset with st := 4, pack := some pk0, outSeq := 9 } (id); let h : HalfId := .a; let k : Fin 2 := 1; let f : MzFrame := mzQ 0x35 [0, 0, 0, 0, 1]; let m := s.half h; let x := m.fslot k.val; s.quiet h = true ∧ f.dest = m.addr ∧ m.slotFor f.src = some k.val ∧ x.runs = true ∧ x.pack.isSome = true ∧ leAt f.payload 4 1 = 1) ∧
  (let s : State := fsS { fostSlotReset with st := 4, pack := some pk0, buses := 0x80 } (id); let h : HalfId := .a; let k : Fin 2 := 1; let f : MzFrame := mzQ 0x36 ([0, 0, 0, 0] ++ leBytes 8 0x80); let m := s.half h; let x := m.fslot k.val; s.quiet h = true ∧ f.dest = m.addr ∧ m.slotFor f.src = some k.val ∧ x.runs = true) ∧
  (let s : State := fsS { fostSlotReset with st := 4, pack := some pk0, pts := [5] } (id); let h : HalfId := .a; let k : Fin 2 := 1; let f : MzFrame := mzQ 0x38 []; let m := s.half h; let x := m.fslot k.val; s.quiet h = true ∧ f.dest = m.addr ∧ m.slotFor f.src = some k.val ∧ x.st = 4 ∧ x.buses = 0) ∧
  (let s : State := (fsS fostSlotReset (fun m => { m with regs := sput m.regs rFostCtrl 2 })).upd .b (fun m => m.updFs 1 (fun x => { x with addr := 0x31 })); let h : HalfId := .a; let k : Fin 2 := 1; let f : MzFrame := mzQ 0x30 (leBytes 4 6 ++ [0, 0, 1, 0] ++ leBytes 4 16 ++ leBytes 4 (crc32c ([0, 0, 0, 0, 0, 0, 1, 0] ++ List.replicate 8 0)) ++ ([0, 0, 0, 0, 0, 0, 1, 0] ++ List.replicate 8 0)); let m := s.half h; let x := m.fslot k.val; let b : List Byte := ([0, 0, 0, 0, 0, 0, 1, 0] ++ List.replicate 8 0); s.quiet h = true ∧ f.dest = m.addr ∧ m.slotFor f.src = some k.val ∧ m.rdB rFostCtrl 1 = true ∧ ((s.half (other h)).slotFor f.src).isSome = true ∧ (s.a.fslot 2).cfgPack = none ∧ (s.b.fslot 2).cfgPack = none ∧ b = f.payload.drop 16 ∧ leAt f.payload 8 4 = b.length ∧ b.length ≤ 1032192 ∧ leAt f.payload 6 2 = 1 ∧ crc32c b = leAt f.payload 12 4 ∧ (x.fragSeq ≠ mzWord f 0 ∨ x.frags = []) ∧ leAt b 6 1 = 1 ∧ (b.drop 16).take 32 = ((sfind (m.cfg 14) (k.val * 8)).getD []).map (BitVec.ofNat 8)) ∧
  (let s : State := fsS { fostSlotReset with st := 1, pack := some pk0 } (fun m => { m with up := 1000000000 }); let h : HalfId := .a; let k : Fin 2 := 1; let m := s.half h; let x := m.fslot k.val; s.quiet h = true ∧ x.addr ≠ 0 ∧ x.beatAt + m.rdF rFostCtrl 16 8 * oneMs ≤ m.up ∧ x.st = 1 ∧ x.asleep = false) ∧
  (let s : State := fsS { fostSlotReset with st := 4, pack := some pk0 } (fun m => { m with up := 1000000000 }); let h : HalfId := .a; let k : Fin 2 := 1; let m := s.half h; let x := m.fslot k.val; s.quiet h = true ∧ x.addr ≠ 0 ∧ x.beatAt + m.rdF rFostCtrl 16 8 * oneMs ≤ m.up ∧ x.st = 4) ∧
  (let s : State := fsS { fostSlotReset with st := 2, pack := some pk0, pending := 0x80 } (id); let h : HalfId := .a; let k : Fin 2 := 1; let m := s.half h; let x := m.fslot k.val; let seen : List BusSeen := [⟨7, 3⟩]; s.quiet h = true ∧ x.st = 2 ∧ ((∀ b, b < 48 → x.pending.testBit b = true → busSeen seen b ≠ 0))) ∧
  (let s : State := fsS { fostSlotReset with st := 2, pack := some pk0, pending := 0x80 } (id); let h : HalfId := .a; let k : Fin 2 := 1; let m := s.half h; let x := m.fslot k.val; let seen : List BusSeen := []; s.quiet h = true ∧ x.st = 2 ∧ x.pack.isSome = true ∧ ((∃ b, b < 48 ∧ x.pending.testBit b = true ∧ busSeen seen b = 0))) ∧
  (let s : State := fsS { fostSlotReset with st := 3, pack := some pk0, pending := 0x80 } (id); let h : HalfId := .a; let k : Fin 2 := 1; let m := s.half h; let x := m.fslot k.val; let seen : List BusSeen := [⟨7, 3⟩]; s.quiet h = true ∧ x.st = 3 ∧ ((∀ b, b < 48 → x.pending.testBit b = true → busSeen seen b ≠ 0))) ∧
  (let s : State := ptS (fun x => { x with blocked := 0x80 }); let h : HalfId := .a; let m := s.half h; let seen : List BusSeen := []; s.quiet h = true ∧ ((∀ b, b < 48 → m.fost.blocked.testBit b = true → busSeen seen b = 0))) ∧
  (let s : State := fsS { fostSlotReset with st := 4, pack := some pk0, buses := 0x80, hb := 0x80 } (fun m => { m with regs := sput m.regs rFostSlotSel 1 }); let h : HalfId := .a; let k : Fin 2 := 1; let r : Req := .ipp 0x1001; let m := s.half h; let x := m.fslot k.val; m.selFs = k.val ∧ s.admits h r rFostCmd 1 = true ∧ x.st = 4) ∧
  (let s : State := fsS { fostSlotReset with st := 1, pack := some pk0 } (fun m => { m with regs := sput m.regs rFostSlotSel 1 }); let h : HalfId := .a; let k : Fin 2 := 1; let r : Req := .ipp 0x1001; let m := s.half h; let x := m.fslot k.val; m.selFs = k.val ∧ s.admits h r rFostCmd 2 = true ∧ x.st ≤ 1) := by
  refine ⟨?_, ?_, ?_, ?_, ?_, ?_, ?_, ?_, ?_, ?_, ?_, ?_, ?_, ?_, ?_⟩ <;> decide

/-- The premises of each clause of FosterProtection can be met. -/
theorem witness_FosterProtection :
  (let s : State := ptS id; let h : HalfId := .a; let p : Fin 2 := 0; let y := s.view h; s.quiet h = true ∧ y.speaks = true ∧ s.ringOpen h p.val = true) ∧
  (let s : State := inA (ptS id) (fun m => { m with upd := { m.upd with slots := [] } }); let h : HalfId := .a; let m := s.half h; s.quiet h = true ∧ m.rdB rFostCtrl 0 = true ∧ m.foster ≠ 0 ∧ m.noneCommitted = true) ∧
  (let s : State := (ptS id).upd .a (fun m => m.setSlot 3 { slotReset with state := 3 }); let h : HalfId := .a; let m := s.half h; s.quiet h = true ∧ m.rdB rFostCtrl 0 = true ∧ m.foster ≠ 0 ∧ m.noneCommitted = false) ∧
  (let s : State := inA (ptS id) (fun m => { m with upd := { m.upd with slots := [] } }); let h : HalfId := .a; let r : Req := .core 3; let m := s.half h; s.admits h r rFostCmd 3 = true ∧ m.rdB rFostCtrl 0 = true ∧ m.foster ≠ 0 ∧ m.noneCommitted = true) ∧
  (let s : State := ptS (fun x => { x with out := some pk0 }); let h : HalfId := .a; let m := s.half h; let q : Pack := pk0; s.quiet h = true ∧ m.fost.out = some q ∧ m.foster ≠ 0) ∧
  (let s : State := ptS (fun x => { x with out := some pk0 }); let h : HalfId := .a; let f : MzFrame := mzQ 0x31 (leBytes 4 6 ++ [0, 0, 0, 0]); let m := s.half h; let st := leAt f.payload 4 1; let q : Pack := pk0; s.quiet h = true ∧ m.fost.out = some q ∧ f.dest = m.addr ∧ f.src = m.foster ∧ q.seq = mzWord f 0 ∧ st = 0 ∧ leAt q.bytes 6 1 = 1) ∧
  (let s : State := ptS (fun x => { x with self := 1, ackAt := none }); let h : HalfId := .a; let m := s.half h; s.quiet h = true ∧ m.fost.self = 1 ∧ m.fost.ackAt.all (fun t => decide (t + 30 * oneSec ≤ m.up)) = true) ∧
  (let s : State := ptS (fun x => { x with query := true }); let h : HalfId := .a; let m := s.half h; s.quiet h = true ∧ m.fost.query = true) ∧
  (let s : State := inA (ptS (fun x => { x with query := true })) (fun m => { m with upd := { m.upd with slots := [] } }); let h : HalfId := .a; let f : MzFrame := mzQ 0x32 ([2, 0, 0, 0, 1, 1, 0, 0] ++ List.replicate 12 0); let m := s.half h; s.quiet h = true ∧ f.dest = m.addr ∧ m.unconfigured = true ∧ m.fost.query = true) ∧
  (let s : State := ptS (fun x => { x with self := 1 }); let h : HalfId := .a; let f : MzFrame := mzQ 0x32 ([2, 0, 0, 0, 1, 1, 0, 0] ++ List.replicate 12 0); let m := s.half h; let flags := leAt f.payload 5 1; s.quiet h = true ∧ f.dest = m.addr ∧ f.src = m.foster ∧ m.foster ≠ 0 ∧ m.unconfigured = false ∧ m.fost.query = false ∧ m.fost.self = 1 ∧ flags.testBit 0 = true) ∧
  (let s : State := ptS (fun x => { x with self := 0, ackAt := some 0 }); let h : HalfId := .a; let f : MzFrame := mzQ 0x32 ([2, 0, 0, 0, 1, 0, 0, 0] ++ List.replicate 12 0); let m := s.half h; let st := leAt f.payload 4 1; let flags := leAt f.payload 5 1; s.quiet h = true ∧ f.dest = m.addr ∧ f.src = m.foster ∧ m.foster ≠ 0 ∧ m.unconfigured = false ∧ m.fost.query = false ∧ m.fost.self = 0 ∧ st = 1 ∧ flags.testBit 0 = false ∧ m.fost.ackAt.isSome = true) ∧
  (let s : State := ptS (fun x => { x with self := 0, query := true }); let h : HalfId := .a; let f : MzFrame := mzQ 0x32 ([2, 0, 0, 0, 4, 0, 0, 0] ++ List.replicate 4 0 ++ leBytes 8 0x80); let m := s.half h; let st := leAt f.payload 4 1; s.quiet h = true ∧ f.dest = m.addr ∧ f.src = m.foster ∧ m.foster ≠ 0 ∧ m.unconfigured = false ∧ m.fost.query = true ∧ (st = 3 ∨ st = 4)) ∧
  (let s : State := ptS (fun x => { x with self := 2, held := 0x180 }); let h : HalfId := .a; let f : MzFrame := mzQ 0x37 ([0, 0, 0, 0] ++ leBytes 8 0x80); let m := s.half h; s.quiet h = true ∧ f.dest = m.addr ∧ f.src = m.foster ∧ m.foster ≠ 0 ∧ (m.fost.self = 2 ∨ m.fost.self = 3)) ∧
  (let s : State := ptS id; let h : HalfId := .a; let r : Req := .ipp 0x1001; let v : Word := 0x24; let m := s.half h; let a := fld v 0 16; s.admits h r rFostFoster v = true ∧ (a = 0 ∨ (m.inRing a = true ∧ a ≠ m.addr))) := by
  refine ⟨?_, ?_, ?_, ?_, ?_, ?_, ?_, ?_, ?_, ?_, ?_, ?_, ?_, ?_⟩ <;> decide

/-- The premises of each clause of LeaseAndRoles can be met. -/
theorem witness_LeaseAndRoles :
  (let s : State := ykS (fun y => { y with a := { y.a with role := .booting }, b := { y.b with role := .retired }, holder := none }); let h : HalfId := .a; let o := other h; s.frozen = false ∧ s.yoke.act.phase = 0 ∧ s.role h = .booting ∧ s.yoke.pwr.due = false ∧ s.yoke.pwr.held = false ∧ s.yoke.pwr.state ≠ 3 ∧ (s.yh h).ready = none ∧ (s.yh h).boot = none ∧ s.role o = .retired ∧ s.yoke.holder = none) ∧
  (let s : State := ykS (fun y => { y with a := { y.a with role := .inCharge }, b := { y.b with role := .booting }, holder := some .a }); let h : HalfId := .b; let m := s.half h; let o := other h; s.frozen = false ∧ s.yoke.act.phase = 0 ∧ s.role h = .booting ∧ s.yoke.pwr.due = false ∧ s.yoke.pwr.held = false ∧ s.yoke.pwr.state ≠ 3 ∧ (s.yh h).ready = none ∧ (s.yh h).boot = none ∧ s.role o = .inCharge ∧ m.upd.recovery = false ∧ s.yoke.xfer = none) ∧
  (let s : State := ykS (fun y => { y with a := { y.a with role := .inCharge }, b := { y.b with role := .booting }, holder := some .a }); let h : HalfId := .b; s.frozen = false ∧ s.yoke.act.phase = 0 ∧ s.role h = .booting ∧ s.yoke.pwr.due = false ∧ s.yoke.pwr.held = false ∧ s.yoke.pwr.state ≠ 3 ∧ (s.yh h).ready = none ∧ (s.yh h).boot = none) ∧
  (let s : State := runS; let h : HalfId := .a; s.frozen = false ∧ s.yoke.act.phase = 0 ∧ s.quiet h = true) ∧
  (let s : State := runS; s.frozen = false ∧ s.yoke.act.phase = 0 ∧ s.yoke.now < s.yoke.renewAt + oneMs) ∧
  (let s : State := ykS (fun y => { ykH .b (fun x => { x with clean := true }) y with now := 1000000 }); let h : HalfId := .a; let o := other h; s.frozen = false ∧ s.yoke.act.phase = 0 ∧ s.yoke.holder = some h ∧ s.yoke.renewAt + oneMs ≤ s.yoke.now ∧ s.role o = .follower ∧ (s.yh o).clean = true) ∧
  (let s : State := ykS (fun y => { ykH .b (fun x => { x with clean := false }) y with now := 1000000 }); let h : HalfId := .a; let o := other h; s.frozen = false ∧ s.yoke.act.phase = 0 ∧ s.yoke.holder = some h ∧ s.yoke.renewAt + oneMs ≤ s.yoke.now ∧ (s.role o = .retired ∨ (s.role o = .follower ∧ (s.yh o).clean = false))) ∧
  (let s : State := runS; let h : HalfId := .a; let r : Req := .ipp 0x1001; let o := other h; let g : HalfId := .a; let o := other g; s.frozen = false ∧ s.yoke.act.phase = 0 ∧ s.admits h r rYokeCmd 1 = true ∧ s.once h r = true ∧ s.yoke.holder = some g ∧ s.role o = .follower ∧ s.role g = .inCharge ∧ s.a.noneCommitted = true ∧ s.b.noneCommitted = true) ∧
  (let s : State := inA runS (fun m => { m with shf := { m.shf with slots := [(3, { slotReset with state := 3 })] } }); let h : HalfId := .a; let r : Req := .ipp 0x1001; let o := other h; let g : HalfId := .a; let o := other g; s.frozen = false ∧ s.yoke.act.phase = 0 ∧ s.admits h r rYokeCmd 1 = true ∧ s.once h r = true ∧ s.yoke.holder = some g ∧ s.role o = .follower ∧ (s.a.noneCommitted = false ∨ s.b.noneCommitted = false)) ∧
  (let s : State := ykS (fun y => { y with handover := some 0x1001 }); let h : HalfId := .a; let g : HalfId := .a; let st : Stamp := 0x1001; s.frozen = false ∧ s.yoke.act.phase = 0 ∧ s.yoke.handover = some st ∧ s.yoke.holder = some g ∧ s.runs h = true) ∧
  (let s : State := ykS (fun y => { y with a := { y.a with role := .inCharge }, b := { y.b with role := .retired }, holder := some .a }); let h : HalfId := .a; let r : Req := .ipp 0x1001; let m := s.half h; let o := other h; s.frozen = false ∧ s.yoke.act.phase = 0 ∧ s.admits h r rYokeCmd 2 = true ∧ s.once h r = true ∧ s.role o = .retired ∧ m.upd.recovery = false) ∧
  (let s : State := runS; let h : HalfId := .a; let r : Req := .core 2; let o := other h; s.frozen = false ∧ s.yoke.act.phase = 0 ∧ s.admits h r rYokeCmd 3 = true ∧ s.once h r = true ∧ s.role h = .inCharge ∧ s.yoke.holder = some h ∧ s.role o = .follower) ∧
  (let s : State := runS; let h : HalfId := .b; let r : Req := .core 2; s.frozen = false ∧ s.yoke.act.phase = 0 ∧ s.admits h r rYokeCmd 3 = true ∧ s.once h r = true ∧ (s.role h = .follower ∨ s.role h = .muted) ∧ s.yoke.holder ≠ some h) ∧
  (let s : State := ykS (fun y => ykH .b (fun x => { x with role := .retired }) { y with regs := sput y.regs rYokeCtrl 0x100 }); let h : HalfId := .b; s.frozen = false ∧ s.yoke.act.phase = 0 ∧ s.rdB .a rYokeCtrl 8 = true ∧ s.retireCount h < 3 ∧ s.role h = .retired ∧ (s.yh h).retired.head?.all (fun t => decide (t + s.rdF .a rYokeCtrl 24 8 * oneSec ≤ s.yoke.now)) = true) ∧
  (let s : State := runS; let h : HalfId := .a; let r : Req := .core 3; let v : Word := 1; s.frozen = false ∧ s.yoke.act.phase = 0 ∧ s.admits h r rYokeWdogKick v = true) ∧
  (let s : State := inA runS (fun m => { m with up := 100000000000 }); let h : HalfId := .a; let m := s.half h; s.frozen = false ∧ s.yoke.act.phase = 0 ∧ s.wdogStands h = false ∧ m.wdogAt + m.rdF rYokeWdog 0 16 * oneMs ≤ m.up) := by
  refine ⟨?_, ?_, ?_, ?_, ?_, ?_, ?_, ?_, ?_, ?_, ?_, ?_, ?_, ?_, ?_, ?_⟩ <;> decide

/-- The premises of each clause of OutputsAndTransfer can be met. -/
theorem witness_OutputsAndTransfer :
  (let s : State := runS; let h : HalfId := .a; let o := other h; let g : HalfId := .a; s.yoke.act.phase = 0 ∧ s.quiet h = true ∧ s.computes h = true ∧ s.computes o = true ∧ s.yoke.holder = some g ∧ s.yoke.outs = []) ∧
  (let s : State := ykS (fun y => { y with outs := [(.b, ⟨1, 2, true, 5, 7⟩)] }); let h : HalfId := .a; let x : OutRec := ⟨1, 2, true, 5, 7⟩; let o := other h; let g : HalfId := .a; s.yoke.act.phase = 0 ∧ s.quiet h = true ∧ s.computes h = true ∧ s.computes o = true ∧ s.yoke.holder = some g ∧ s.yoke.outs = [(o, x)]) ∧
  (let s : State := ykS (fun y => { y with outs := [(.b, ⟨1, 2, true, 5, 8⟩)] }); let h : HalfId := .a; let x : OutRec := ⟨1, 2, true, 5, 7⟩; let o := other h; let o_ (k : HalfId) : HalfId := other k; let g : HalfId := .a; let z : Dword := 8; s.yoke.act.phase = 0 ∧ s.quiet h = true ∧ s.computes h = true ∧ s.computes o = true ∧ s.yoke.holder = some g ∧ z ≠ x.value ∧ s.yoke.outs = [(o, { x with value := z })] ∧ s.role (o_ g) = .follower ∧ s.frozen = false ∧ s.yoke.chall = none) ∧
  (let s : State := ykS (fun y => { y with outs := [(.a, ⟨1, 2, true, 5, 7⟩)] }); let h : HalfId := .a; let x : OutRec := ⟨1, 2, true, 5, 7⟩; let o := other h; let o_ (k : HalfId) : HalfId := other k; let g : HalfId := .a; let l : List (HalfId × OutRec) := []; s.yoke.act.phase = 0 ∧ s.quiet h = true ∧ s.computes h = true ∧ s.computes o = true ∧ s.yoke.holder = some g ∧ s.yoke.outs = (h, x) :: l ∧ s.role (o_ g) = .follower) ∧
  (let s : State := ykS (fun y => { y with chall := some 0 }); let h : HalfId := .a; let o := other h; let c : ChallengeRes := ⟨true, false⟩; let at_ : Nat := 0; let pass (k : HalfId) : Bool := if k = .a then c.passA else c.passB; s.yoke.act.phase = 0 ∧ s.yoke.chall = some at_ ∧ s.yoke.holder = some h ∧ s.role h = .inCharge ∧ s.role o = .follower ∧ pass h = true ∧ pass o = false) ∧
  (let s : State := ykS (fun y => { y with chall := some 0 }); let h : HalfId := .a; let o := other h; let c : ChallengeRes := ⟨false, true⟩; let at_ : Nat := 0; let pass (k : HalfId) : Bool := if k = .a then c.passA else c.passB; s.yoke.act.phase = 0 ∧ s.yoke.chall = some at_ ∧ s.yoke.holder = some h ∧ s.role h = .inCharge ∧ s.role o = .follower ∧ pass h = false ∧ pass o = true) ∧
  (let s : State := runS; let h : HalfId := .a; s.yoke.act.phase = 0 ∧ s.quiet h = true ∧ s.yoke.xup = true) ∧
  (let s : State := ykS (fun y => { y with xup := false }); s.yoke.act.phase = 0 ∧ s.yoke.xup = false) ∧
  (let s : State := ykS (fun y => { y with xfer := some ⟨.b, 3, 0, 0⟩, b := { y.b with role := .muted } }); let h : HalfId := .b; let z : Xfer := ⟨.b, 3, 0, 0⟩; let y : XferRound := ⟨65535⟩; s.yoke.act.phase = 0 ∧ s.frozen = false ∧ s.joins h = true ∧ s.yoke.xfer = some z ∧ z.half = h ∧ y.left < 65536) ∧
  (let s : State := ykS (fun y => { y with xfer := some ⟨.b, 3, 0, 0⟩, b := { y.b with role := .muted } }); let h : HalfId := .b; let z : Xfer := ⟨.b, 3, 0, 0⟩; let y : XferRound := ⟨65536⟩; s.yoke.act.phase = 0 ∧ s.frozen = false ∧ s.joins h = true ∧ s.yoke.xfer = some z ∧ z.half = h ∧ 65536 ≤ y.left ∧ z.round < 8) ∧
  (let s : State := ykS (fun y => { y with xfer := some ⟨.b, 8, 0, 0⟩, b := { y.b with role := .muted } }); let h : HalfId := .b; let z : Xfer := ⟨.b, 8, 0, 0⟩; let y : XferRound := ⟨65537⟩; s.yoke.act.phase = 0 ∧ s.frozen = false ∧ s.joins h = true ∧ s.yoke.xfer = some z ∧ z.half = h ∧ 65536 < y.left ∧ 8 ≤ z.round) ∧
  (let s : State := ykS (fun y => { y with a := { y.a with role := .inCharge }, b := { y.b with role := .muted }, holder := some .a }); let h : HalfId := .b; s.yoke.act.phase = 0 ∧ s.frozen = false ∧ s.joins h = true ∧ s.yoke.xfer = none) ∧
  (let s : State := runS; let h : HalfId := .a; s.yoke.act.phase = 0 ∧ s.quiet h = true ∧ (s.yh h).lost = false) ∧
  (let s : State := ykS (fun y => { y with hold := true }); let h : HalfId := .a; s.yoke.act.phase = 0 ∧ s.quiet h = true ∧ (s.yh h).lost = false ∧ s.yoke.hold = true) ∧
  (let s : State := ykS (fun y => ykH .a (fun x => { x with lost := true }) y); let h : HalfId := .a; let g : HalfId := .a; s.yoke.act.phase = 0 ∧ (s.yh h).lost = true ∧ s.yoke.holder = some g ∧ s.role g = .inCharge) := by
  refine ⟨?_, ?_, ?_, ?_, ?_, ?_, ?_, ?_, ?_, ?_, ?_, ?_, ?_, ?_, ?_⟩ <;> decide

/-- The premises of each clause of RealTimeClock can be met. -/
theorem witness_RealTimeClock :
  (let s : State := rtcS false (fun x => { x with year := 2199, month := 12, day := 31, hour := 23, min := 59, sec := 58 }); let x := s.yoke.rtc; s.locked = false ∧ x.held = false ∧ x.reload = false ∧ x.atEnd = false ∧ x.pend = 0) ∧
  (let s : State := rtcS false (fun x => { x with year := 2199, month := 12, day := 31, hour := 23, min := 59, sec := 59 }); let x := s.yoke.rtc; s.locked = false ∧ x.held = false ∧ x.reload = false ∧ x.atEnd = true ∧ x.pend = 0) ∧
  (let s : State := rtcS true (fun x => { x with leap := 1, held := false, hour := 23, min := 59, sec := 59 }); let x := s.yoke.rtc; s.locked = true ∧ x.atEnd = false ∧ x.pend = 0 ∧ x.reload = false ∧ x.utcNew = none ∧ x.leap = 1 ∧ x.utc % 86400 = 86399 ∧ x.held = false) ∧
  (let s : State := rtcS true (fun x => { x with leap := 1, held := true, hour := 23, min := 59, sec := 59 }); let x := s.yoke.rtc; s.locked = true ∧ x.atEnd = false ∧ x.pend = 0 ∧ x.reload = false ∧ x.utcNew = none ∧ x.leap = 1 ∧ x.utc % 86400 = 86399 ∧ x.held = true) ∧
  (let s : State := rtcS true (fun x => { x with leap := 2, held := false, hour := 23, min := 59, sec := 58 }); let x := s.yoke.rtc; s.locked = true ∧ x.atEnd = false ∧ x.pend = 0 ∧ x.reload = false ∧ x.utcNew = none ∧ x.leap = 2 ∧ x.utc % 86400 = 86398) ∧
  (let s : State := rtcS true id; let h : HalfId := .a; let r : Req := .ipp 0x1001; let cmd (k : Nat) : Bool := s.admits h r rRtcCmd (word k) && s.once h r; cmd 1 = true ∧ s.locked = true) ∧
  (let s : State := (rtcS false id).updYk (fun y => { y with regs := sput y.regs (rRtcS 0) 60 }); let h : HalfId := .a; let r : Req := .ipp 0x1001; let cmd (k : Nat) : Bool := s.admits h r rRtcCmd (word k) && s.once h r; cmd 1 = true ∧ s.locked = false ∧ rtcStaged ((List.range 4).map (fun i => s.rd .a (rRtcS i))) = none) ∧
  (let s : State := (rtcS false id).updYk (fun y => { y with regs := sput (sput (sput (sput y.regs (rRtcS 0) 59) (rRtcS 1) 0x173B) (rRtcS 2) 0x7E730F00) (rRtcS 3) 0x0025003C }); let h : HalfId := .a; let r : Req := .ipp 0x1001; let cmd (k : Nat) : Bool := s.admits h r rRtcCmd (word k) && s.once h r; let w := (rtcStaged ((List.range 4).map (fun i => s.rd .a (rRtcS i)))).getD rtcReset; cmd 1 = true ∧ s.locked = false ∧ rtcStaged ((List.range 4).map (fun i => s.rd .a (rRtcS i))) = some w) ∧
  (let s : State := rtcS false (fun x => { x with osf := true, vlow := true, swo := true }); let h : HalfId := .a; let r : Req := .ipp 0x1001; let cmd (k : Nat) : Bool := s.admits h r rRtcCmd (word k) && s.once h r; cmd 4 = true) ∧
  (let s : State := rtcS false (fun x => { x with osf := true, vlow := true, swo := true }); let h : HalfId := .a; let r : Req := .ipp 0x1001; let cmd (k : Nat) : Bool := s.admits h r rRtcCmd (word k) && s.once h r; cmd 5 = true) ∧
  (let s : State := rtcS false (fun x => { x with osf := true, vlow := true, swo := true }); let h : HalfId := .a; let r : Req := .ipp 0x1001; let cmd (k : Nat) : Bool := s.admits h r rRtcCmd (word k) && s.once h r; cmd 6 = true) ∧
  (let s : State := rtcS false (fun x => { x with osf := true, vlow := true, swo := true }); let h : HalfId := .a; let r : Req := .ipp 0x1001; let cmd (k : Nat) : Bool := s.admits h r rRtcCmd (word k) && s.once h r; cmd 7 = true) ∧
  (let s : State := rtcS false (fun x => { x with osf := true, vlow := true, swo := true }); let h : HalfId := .a; let r : Req := .ipp 0x1001; let cmd (k : Nat) : Bool := s.admits h r rRtcCmd (word k) && s.once h r; cmd 8 = true) ∧
  (let s : State := rtcS false id; let x := s.yoke.rtc; x.apply_ = none) ∧
  (let s : State := rtcS false (fun x => { x with apply_ := some 0x1001 }); let x := s.yoke.rtc; let st := 0x1001; x.apply_ = some st) ∧
  (let s : State := rtcS false id; let x := s.yoke.rtc; x.vlow = false ∧ s.anyRuns = true) ∧
  (let s : State := rtcS false id; s.anyRuns = true) ∧
  (let s : State := (rtcS false id).updYk (fun y => { y with regs := sput y.regs rRtcAlmIvl 0x80000005 }); let x := s.yoke.rtc; let v := s.rd .a rRtcAlmIvl; let due := x.almAt + fld v 0 17 * oneSec; s.yoke.pwr.state < 2 ∧ s.yoke.now < due) ∧
  (let s : State := (rtcS false id).updYk (fun y => { y with regs := sput y.regs rRtcAlmIvl 0x80000005, now := 10000000000 }); let x := s.yoke.rtc; let v := s.rd .a rRtcAlmIvl; let due := x.almAt + fld v 0 17 * oneSec; s.yoke.pwr.state < 2 ∧ flag v 31 = true ∧ due ≤ s.yoke.now) ∧
  (let s : State := (rtcS false (fun x => { x with hour := 6, min := 30, sec := 0 })).updYk (fun y => { y with regs := sput y.regs rRtcAlmTod (putFlag (0x8000061E) (15 + weekday 2000 1 1) true) }); let x := s.yoke.rtc; let v := s.rd .a rRtcAlmTod; s.yoke.pwr.state < 2 ∧ flag v 31 = true ∧ x.sec = 0 ∧ x.min = fld v 0 6 ∧ x.hour = fld v 8 5 ∧ flag v (15 + weekday x.year x.month x.day) = true) := by
  refine ⟨?_, ?_, ?_, ?_, ?_, ?_, ?_, ?_, ?_, ?_, ?_, ?_, ?_, ?_, ?_, ?_, ?_, ?_, ?_, ?_⟩ <;> decide

/-- The premises of each clause of SummerTime can be met. -/
theorem witness_SummerTime :
  (let s : State := rtcS false id; let h : HalfId := .a; let r : Req := .ipp 0x1001; let x := s.yoke.rtc; let on : Bool := true; (s.admits h r rRtcCmd (if on then 2 else 3) = true) ∧ s.once h r = true ∧ x.dst ≠ on ∧ x.pend = 0) ∧
  (let s : State := rtcS false (fun x => { x with dst := true }); let h : HalfId := .a; let r : Req := .ipp 0x1001; let x := s.yoke.rtc; let on : Bool := true; (s.admits h r rRtcCmd (if on then 2 else 3) = true) ∧ s.once h r = true ∧ (x.dst = on ∨ x.pend ≠ 0)) ∧
  (let s : State := rtcS false (fun x => { x with pend := 1, month := 3, day := 25, hour := 1, min := 59, sec := 59 }); let x := s.yoke.rtc; let on : Bool := true; (x.pend = (if on then 1 else 2)) ∧ x.dst ≠ on ∧ s.locked = false ∧ x.held = false ∧ x.reload = false ∧ 946684800 + 3600 ≤ x.localSec ∧ x.localSec + 3602 < dateDay 2200 1 1 * 86400) := by
  refine ⟨?_, ?_, ?_⟩ <;> decide

/-- The premises of each clause of PtpClock can be met. -/
theorem witness_PtpClock :
  (let s : State := ptpS 1 slS ms; let h : HalfId := .a; let x : PtpMsg := pmsg 3; let acts (p : Nat) : Bool := if p = 3 then s.quiet h else s.quietBus h; acts x.port = true) ∧
  (let s : State := ptpS 1 slS ms; let h : HalfId := .a; let x : PtpMsg := pmsg 3; let m := s.half h; let y := m.ptpPort x.port; let acts (p : Nat) : Bool := if p = 3 then s.quiet h else s.quietBus h; let bld := if m.self = .a then 0xA0 else 0xA1; m.ptpMine x = true) ∧
  (let x : PtpMsg := pmsg 3; x.type = 2 ∨ x.type = 3 ∨ x.type = 10) ∧
  (let s : State := ptpS 1 slS ms; let h : HalfId := .a; let x : PtpMsg := { pmsg 0 with twoStep := true }; let acts (p : Nat) : Bool := if p = 3 then s.quiet h else s.quietBus h; acts x.port = true) ∧
  (let s : State := ptpS 1 slS ms; let h : HalfId := .a; let x : PtpMsg := { pmsg 0 with twoStep := true }; let m := s.half h; let y := m.ptpPort x.port; let acts (p : Nat) : Bool := if p = 3 then s.quiet h else s.quietBus h; let bld := if m.self = .a then 0xA0 else 0xA1; m.ptpMine x = true) ∧
  (let x : PtpMsg := { pmsg 0 with twoStep := true }; x.type = 0) ∧
  (let x : PtpMsg := { pmsg 0 with twoStep := true }; x.twoStep = true) ∧
  (let s : State := ptpS 1 slS ms; let h : HalfId := .a; let x : PtpMsg := { pmsg 0 with twoStep := true }; let m := s.half h; let y := m.ptpPort x.port; let acts (p : Nat) : Bool := if p = 3 then s.quiet h else s.quietBus h; let bld := if m.self = .a then 0xA0 else 0xA1; m.fromMaster x = true) ∧
  (let s : State := ptpS 1 slS ms; let h : HalfId := .a; let x : PtpMsg := pmsg 0; let acts (p : Nat) : Bool := if p = 3 then s.quiet h else s.quietBus h; acts x.port = true) ∧
  (let s : State := ptpS 1 slS ms; let h : HalfId := .a; let x : PtpMsg := pmsg 0; let m := s.half h; let y := m.ptpPort x.port; let acts (p : Nat) : Bool := if p = 3 then s.quiet h else s.quietBus h; let bld := if m.self = .a then 0xA0 else 0xA1; let off : Int := 100; let n := if off.natAbs ≤ 1000 ∧ y.st = 9 then min 16 (m.tim.good + 1) else 0; m.ptpMine x = true) ∧
  (let s : State := ptpS 1 slS ms; let h : HalfId := .a; let x : PtpMsg := pmsg 0; let m := s.half h; let y := m.ptpPort x.port; let acts (p : Nat) : Bool := if p = 3 then s.quiet h else s.quietBus h; let bld := if m.self = .a then 0xA0 else 0xA1; let off : Int := 100; let n := if off.natAbs ≤ 1000 ∧ y.st = 9 then min 16 (m.tim.good + 1) else 0; m.fromMaster x = true) ∧
  (let s : State := ptpS 1 slS ms; let h : HalfId := .a; let x : PtpMsg := pmsg 0; let m := s.half h; let y := m.ptpPort x.port; let off : Int := 100; (x.type = 0 ∧ x.twoStep = false ∧ off = x.rx - x.corr - x.stamp - m.tim.mpd) ∨ (x.type = 8 ∧ y.waitFup = true ∧ x.seq = y.syncSeq ∧ off = y.syncT2 - (x.stamp + x.corr) - m.tim.mpd)) ∧
  (let s : State := ptpS 1 slS ms; let h : HalfId := .a; let m := s.half h; let off : Int := 100; (off.natAbs : Int) ≤ (m.rdF rPtpServo 16 16 : Int) * 1000) ∧
  (let s : State := inA (ptpS 1 slS ms) (fun m => { m with regs := sput m.regs rPtpServo 0 }); let h : HalfId := .a; let x : PtpMsg := pmsg 0; let acts (p : Nat) : Bool := if p = 3 then s.quiet h else s.quietBus h; acts x.port = true) ∧
  (let s : State := inA (ptpS 1 slS ms) (fun m => { m with regs := sput m.regs rPtpServo 0 }); let h : HalfId := .a; let x : PtpMsg := pmsg 0; let m := s.half h; let y := m.ptpPort x.port; let acts (p : Nat) : Bool := if p = 3 then s.quiet h else s.quietBus h; let bld := if m.self = .a then 0xA0 else 0xA1; let off : Int := 100; let n := ((m.tai.toNat : Int) - off).toNat; let d : Dword := BitVec.ofInt 64 ((n : Int) - m.tai.toNat); m.ptpMine x = true) ∧
  (let s : State := inA (ptpS 1 slS ms) (fun m => { m with regs := sput m.regs rPtpServo 0 }); let h : HalfId := .a; let x : PtpMsg := pmsg 0; let m := s.half h; let y := m.ptpPort x.port; let acts (p : Nat) : Bool := if p = 3 then s.quiet h else s.quietBus h; let bld := if m.self = .a then 0xA0 else 0xA1; let off : Int := 100; let n := ((m.tai.toNat : Int) - off).toNat; let d : Dword := BitVec.ofInt 64 ((n : Int) - m.tai.toNat); m.fromMaster x = true) ∧
  (let s : State := inA (ptpS 1 slS ms) (fun m => { m with regs := sput m.regs rPtpServo 0 }); let h : HalfId := .a; let x : PtpMsg := pmsg 0; let m := s.half h; let y := m.ptpPort x.port; let off : Int := 100; (x.type = 0 ∧ x.twoStep = false ∧ off = x.rx - x.corr - x.stamp - m.tim.mpd) ∨ (x.type = 8 ∧ y.waitFup = true ∧ x.seq = y.syncSeq ∧ off = y.syncT2 - (x.stamp + x.corr) - m.tim.mpd)) ∧
  (let s : State := inA (ptpS 1 slS ms) (fun m => { m with regs := sput m.regs rPtpServo 0 }); let h : HalfId := .a; let m := s.half h; let off : Int := 100; (m.rdF rPtpServo 16 16 : Int) * 1000 < off.natAbs) ∧
  (let s : State := ptpS 1 { ptpReset with st := 4 } id; let h : HalfId := .a; let x : PtpMsg := pmsg 11; let acts (p : Nat) : Bool := if p = 3 then s.quiet h else s.quietBus h; acts x.port = true) ∧
  (let s : State := ptpS 1 { ptpReset with st := 4 } id; let h : HalfId := .a; let x : PtpMsg := pmsg 11; let m := s.half h; let y := m.ptpPort x.port; let acts (p : Nat) : Bool := if p = 3 then s.quiet h else s.quietBus h; let bld := if m.self = .a then 0xA0 else 0xA1; let a : PtpAnn := ⟨x.prio1, x.clkClass, x.accuracy, x.variance, x.prio2, x.gm, x.steps, x.src, x.srcPort, x.utcOff, x.utcValid, x.leap61, x.leap59⟩; let u := m.updPtp x.port (fun y => { y with best := some a }); m.ptpMine x = true) ∧
  (let x : PtpMsg := pmsg 11; x.steps < 255) ∧
  (let s : State := ptpS 1 { ptpReset with st := 4 } id; let h : HalfId := .a; let x : PtpMsg := pmsg 11; let m := s.half h; let y := m.ptpPort x.port; y.best = none) ∧
  (let s : State := ptpS 1 { ptpReset with st := 4 } id; let h : HalfId := .a; let x : PtpMsg := pmsg 11; let m := s.half h; let y := m.ptpPort x.port; y.st < 8) ∧
  (let s : State := ptpS 1 { ptpReset with st := 4 } id; let h : HalfId := .a; let x : PtpMsg := pmsg 11; let m := s.half h; let y := m.ptpPort x.port; let a : PtpAnn := ⟨x.prio1, x.clkClass, x.accuracy, x.variance, x.prio2, x.gm, x.steps, x.src, x.srcPort, x.utcOff, x.utcValid, x.leap61, x.leap59⟩; let u := m.updPtp x.port (fun y => { y with best := some a }); u.ptpDecide 0 x.port = 8) ∧
  (let s : State := ptpS 1 { ptpReset with st := 4 } id; let h : HalfId := .a; let m := s.half h; m.tim.source = 0 ∨ m.tim.source = 3) ∧
  (let s : State := inA (ptpS 1 slS ms) (fun m => { m with tim := { m.tim with source := 2 } }); let h : HalfId := .a; let x : PtpMsg := pmsg 11; let acts (p : Nat) : Bool := if p = 3 then s.quiet h else s.quietBus h; acts x.port = true) ∧
  (let s : State := inA (ptpS 1 slS ms) (fun m => { m with tim := { m.tim with source := 2 } }); let h : HalfId := .a; let x : PtpMsg := pmsg 11; let m := s.half h; let y := m.ptpPort x.port; let acts (p : Nat) : Bool := if p = 3 then s.quiet h else s.quietBus h; let bld := if m.self = .a then 0xA0 else 0xA1; let a : PtpAnn := ⟨x.prio1, x.clkClass, x.accuracy, x.variance, x.prio2, x.gm, x.steps, x.src, x.srcPort, x.utcOff, x.utcValid, x.leap61, x.leap59⟩; let u := m.updPtp x.port (fun y => { y with best := some a }); let b := anA; let z := s.yoke.rtc; m.ptpMine x = true) ∧
  (let s : State := inA (ptpS 1 slS ms) (fun m => { m with tim := { m.tim with source := 2 } }); let h : HalfId := .a; let x : PtpMsg := pmsg 11; let m := s.half h; let y := m.ptpPort x.port; let acts (p : Nat) : Bool := if p = 3 then s.quiet h else s.quietBus h; let bld := if m.self = .a then 0xA0 else 0xA1; let a : PtpAnn := ⟨x.prio1, x.clkClass, x.accuracy, x.variance, x.prio2, x.gm, x.steps, x.src, x.srcPort, x.utcOff, x.utcValid, x.leap61, x.leap59⟩; let u := m.updPtp x.port (fun y => { y with best := some a }); let b := anA; let z := s.yoke.rtc; y.best = some b) ∧
  (let s : State := inA (ptpS 1 slS ms) (fun m => { m with tim := { m.tim with source := 2 } }); let h : HalfId := .a; let x : PtpMsg := pmsg 11; let m := s.half h; let y := m.ptpPort x.port; let acts (p : Nat) : Bool := if p = 3 then s.quiet h else s.quietBus h; let bld := if m.self = .a then 0xA0 else 0xA1; let a : PtpAnn := ⟨x.prio1, x.clkClass, x.accuracy, x.variance, x.prio2, x.gm, x.steps, x.src, x.srcPort, x.utcOff, x.utcValid, x.leap61, x.leap59⟩; let u := m.updPtp x.port (fun y => { y with best := some a }); let b := anA; let z := s.yoke.rtc; b.src = x.src) ∧
  (let x : PtpMsg := pmsg 11; let b := anA; b.srcPort = x.srcPort) ∧
  (let s : State := inA (ptpS 1 slS ms) (fun m => { m with tim := { m.tim with source := 2 } }); let h : HalfId := .a; let x : PtpMsg := pmsg 11; let m := s.half h; let y := m.ptpPort x.port; let acts (p : Nat) : Bool := if p = 3 then s.quiet h else s.quietBus h; let bld := if m.self = .a then 0xA0 else 0xA1; let a : PtpAnn := ⟨x.prio1, x.clkClass, x.accuracy, x.variance, x.prio2, x.gm, x.steps, x.src, x.srcPort, x.utcOff, x.utcValid, x.leap61, x.leap59⟩; let u := m.updPtp x.port (fun y => { y with best := some a }); let b := anA; let z := s.yoke.rtc; m.tim.master = some b) ∧
  (let s : State := inA (ptpS 1 slS ms) (fun m => { m with tim := { m.tim with source := 2 } }); let h : HalfId := .a; let x : PtpMsg := pmsg 11; let m := s.half h; let y := m.ptpPort x.port; y.st = 9) ∧
  (let s : State := inA (ptpS 1 slS ms) (fun m => { m with tim := { m.tim with source := 2 } }); let h : HalfId := .a; let m := s.half h; m.tim.source = 2) ∧
  (let s : State := inA (ptpS 1 slS ms) (fun m => { m with tim := { m.tim with source := 2 } }); let h : HalfId := .a; s.yoke.holder = some h) ∧
  (let s : State := inA (ptpS 1 slS ms) (fun m => { m with tim := { m.tim with source := 2 } }); let h : HalfId := .a; let x : PtpMsg := pmsg 11; let m := s.half h; let y := m.ptpPort x.port; let a : PtpAnn := ⟨x.prio1, x.clkClass, x.accuracy, x.variance, x.prio2, x.gm, x.steps, x.src, x.srcPort, x.utcOff, x.utcValid, x.leap61, x.leap59⟩; let u := m.updPtp x.port (fun y => { y with best := some a }); u.ptpDecide 0 x.port = 8) ∧
  (let s : State := ptpS 1 { ptpReset with st := 6 } id; let h : HalfId := .a; let x : PtpMsg := pmsg 1; let acts (p : Nat) : Bool := if p = 3 then s.quiet h else s.quietBus h; acts x.port = true) ∧
  (let s : State := ptpS 1 { ptpReset with st := 6 } id; let h : HalfId := .a; let x : PtpMsg := pmsg 1; let m := s.half h; let y := m.ptpPort x.port; let acts (p : Nat) : Bool := if p = 3 then s.quiet h else s.quietBus h; let bld := if m.self = .a then 0xA0 else 0xA1; let hd := m.ptpHeader 9 54 0 x.port x.seq (m.rdF rPtpIntv 8 8); m.ptpMine x = true) ∧
  (let s : State := ptpS 1 { ptpReset with st := 6 } id; let h : HalfId := .a; let x : PtpMsg := pmsg 1; let m := s.half h; let y := m.ptpPort x.port; y.st = 6) ∧
  (let x : PtpMsg := pmsg 1; x.port < 3) ∧
  (let s : State := ptpS 1 { ptpReset with st := 6 } id; let h : HalfId := .a; let x : PtpMsg := pmsg 1; let m := s.half h; m.ptpSends x.port = true) ∧
  (let s : State := ptpS 1 slS ms; let h : HalfId := .a; let x : PtpMsg := { pmsg 9 with reqId := Config.clockIdentity, reqPort := 1 }; let acts (p : Nat) : Bool := if p = 3 then s.quiet h else s.quietBus h; acts x.port = true) ∧
  (let s : State := ptpS 1 slS ms; let h : HalfId := .a; let x : PtpMsg := { pmsg 9 with reqId := Config.clockIdentity, reqPort := 1 }; let m := s.half h; let y := m.ptpPort x.port; let acts (p : Nat) : Bool := if p = 3 then s.quiet h else s.quietBus h; let bld := if m.self = .a then 0xA0 else 0xA1; let t3 : Int := 5; m.ptpMine x = true) ∧
  (let s : State := ptpS 1 slS ms; let h : HalfId := .a; let x : PtpMsg := { pmsg 9 with reqId := Config.clockIdentity, reqPort := 1 }; let m := s.half h; let y := m.ptpPort x.port; let t3 : Int := 5; y.reqAt = some t3) ∧
  (let s : State := ptpS 1 slS ms; let h : HalfId := .a; let x : PtpMsg := { pmsg 9 with reqId := Config.clockIdentity, reqPort := 1 }; let m := s.half h; let y := m.ptpPort x.port; let acts (p : Nat) : Bool := if p = 3 then s.quiet h else s.quietBus h; let bld := if m.self = .a then 0xA0 else 0xA1; let t3 : Int := 5; m.fromMaster x = true) ∧
  (let s : State := ptpS 1 slS ms; let h : HalfId := .a; let x : PtpMsg := { pmsg 9 with reqId := Config.clockIdentity, reqPort := 1 }; let m := s.half h; let y := m.ptpPort x.port; let acts (p : Nat) : Bool := if p = 3 then s.quiet h else s.quietBus h; let bld := if m.self = .a then 0xA0 else 0xA1; let t3 : Int := 5; x.reqId = Config.clockIdentity) ∧
  (let x : PtpMsg := { pmsg 9 with reqId := Config.clockIdentity, reqPort := 1 }; x.reqPort = x.port) ∧
  (let s : State := ptpS 1 slS ms; let h : HalfId := .a; let x : PtpMsg := { pmsg 9 with reqId := Config.clockIdentity, reqPort := 1 }; let m := s.half h; let y := m.ptpPort x.port; x.seq = y.reqSeq) ∧
  (let s : State := ptpS 1 { ptpReset with st := 6 } id; let h : HalfId := .a; let m := s.half h; let p : Nat := 1; let z := m.ptpPort p; (p = 1 ∨ p = 2) ∧ s.quietBus h = true ∧ s.ptpOwner p = some h ∧ m.ptpSends p = true ∧ m.on 0x0C8 = true ∧ z.st = 6) ∧
  (let s : State := ptpS 1 { ptpReset with st := 6 } id; let h : HalfId := .a; let m := s.half h; let p : Nat := 1; let z := m.ptpPort p; (p = 1 ∨ p = 2) ∧ s.quietBus h = true ∧ s.ptpOwner p = some h ∧ m.ptpSends p = true ∧ m.on 0x0C8 = true ∧ (z.st = 5 ∨ z.st = 6)) ∧
  (let s : State := ptpS 1 slS ms; let h : HalfId := .a; let m := s.half h; let p : Nat := 1; let z := m.ptpPort p; (p = 1 ∨ p = 2) ∧ s.quietBus h = true ∧ s.ptpOwner p = some h ∧ m.ptpSends p = true ∧ m.on 0x0C8 = true ∧ 8 ≤ z.st) ∧
  (let s : State := inA (ptpS 1 slS ms) (fun m => { m with up := 100000000000000, tim := { m.tim with source := 2 } }); let h : HalfId := .a; let m := s.half h; let p : Nat := 1; let z := m.ptpPort p; s.quiet h = true ∧ z.st = 9 ∧ m.tim.source = 2 ∧ z.syncAt + m.ptpReceipt ≤ m.up) ∧
  (let s : State := inA (ptpS 1 slS ms) (fun m => { m with up := 100000000000000, tim := { m.tim with source := 2 } }); let h : HalfId := .a; s.quiet h = true) ∧
  (let p : Nat := 1; 1 ≤ p) ∧
  (let p : Nat := 1; p ≤ 3) ∧
  (let s : State := inA (ptpS 1 slS ms) (fun m => { m with up := 100000000000000, tim := { m.tim with source := 2 } }); let h : HalfId := .a; let m := s.half h; let p : Nat := 1; let z := m.ptpPort p; 4 ≤ z.st) ∧
  (let s : State := inA (ptpS 1 slS ms) (fun m => { m with up := 100000000000000, tim := { m.tim with source := 2 } }); let h : HalfId := .a; let m := s.half h; let p : Nat := 1; let z := m.ptpPort p; z.annAt + m.ptpReceipt ≤ m.up) ∧
  (let s : State := inA (ptpS 1 slS ms) (fun m => { m with up := 100000000000000, tim := { m.tim with source := 2 } }); let h : HalfId := .a; let m := s.half h; m.rdF rPtpPrio 16 8 ≠ 255) ∧
  (let s : State := inA (ptpS 1 slS ms) (fun m => { m with up := 100000000000000, tim := { m.tim with source := 2 } }); let h : HalfId := .a; let x : PtpMsg := pmsg 0; let m := s.half h; let y := m.ptpPort x.port; let acts (p : Nat) : Bool := if p = 3 then s.quiet h else s.quietBus h; let bld := if m.self = .a then 0xA0 else 0xA1; let p : Nat := 1; let z := m.ptpPort p; (∀ q, q ≠ p → (m.ptpPort q).best = none)) ∧
  (let s : State := inA (ptpS 1 slS ms) (fun m => { m with up := 1000000000000000, tim := { m.tim with source := 3 } }); let h : HalfId := .a; let m := s.half h; s.quiet h = true ∧ m.tim.source = 3 ∧ m.tim.holdAt + m.rdF rPtpServo 0 16 * oneSec ≤ m.up) := by
  refine ⟨?_, ?_, ?_, ?_, ?_, ?_, ?_, ?_, ?_, ?_, ?_, ?_, ?_, ?_, ?_, ?_, ?_, ?_, ?_, ?_, ?_, ?_, ?_, ?_, ?_, ?_, ?_, ?_, ?_, ?_, ?_, ?_, ?_, ?_, ?_, ?_, ?_, ?_, ?_, ?_, ?_, ?_, ?_, ?_, ?_, ?_, ?_, ?_, ?_, ?_, ?_, ?_, ?_, ?_, ?_, ?_, ?_, ?_, ?_⟩
  · decide
  · intros; exact mine _ _ (by decide +revert) rfl
  · decide
  · decide
  · intros; exact mine _ _ (by decide +revert) rfl
  · decide
  · decide
  · intros; exact fromOf _ _ anA (by decide +revert) rfl rfl rfl
  · decide
  · intros; exact mine _ _ (by decide +revert) rfl
  · intros; exact fromOf _ _ anA (by decide +revert) rfl rfl rfl
  · decide
  · decide
  · decide
  · intros; exact mine _ _ (by decide +revert) rfl
  · intros; exact fromOf _ _ anA (by decide +revert) rfl rfl rfl
  · decide
  · decide
  · decide
  · intros; exact mine _ _ (by decide +revert) rfl
  · decide
  · decide
  · decide
  · decide
  · decide
  · decide
  · intros; exact mine _ _ (by decide +revert) rfl
  · intros; rfl
  · intros; rfl
  · decide
  · intros; rfl
  · decide
  · decide
  · decide
  · decide
  · decide
  · intros; exact mine _ _ (by decide +revert) rfl
  · decide
  · decide
  · decide
  · decide
  · intros; exact mine _ _ (by decide +revert) rfl
  · decide
  · intros; exact fromOf _ _ anA (by decide +revert) rfl rfl rfl
  · intros; rfl
  · decide
  · decide
  · decide
  · decide
  · decide
  · decide
  · decide
  · decide
  · decide
  · decide
  · decide
  · decide
  · intro s h p x m y acts bld z q hq; have e : (s.half h).ptpPort q = ptpReset := by { have h1 : ¬ (1 = q) := fun e => hq e.symm; show (sfind [(1, slS)] q).getD ptpReset = ptpReset; simp only [sfind, if_neg h1]; rfl }; exact congrArg PtpPort.best e
  · decide

/-- The premises of each clause of GranaryStores can be met. -/
theorem witness_GranaryStores :
  (let s : State := grS 40 (fun g => { g with recMap := [(40, 0x10)], cfgMap := [(40, 0x10)], array := [(40, 0x01)] }); let h : HalfId := .a; let r : Req := .core 2; let v : Word := 0x85FF; s.admits h r rGrnPageSel v = true ∧ 32 ≤ fld v 0 8) ∧
  (let s : State := grS 40 (fun g => { g with recMap := [(40, 0x10)], cfgMap := [(40, 0x10)], array := [(40, 0x01)] }); let h : HalfId := .a; let r : Req := .core 2; let v : Word := 31; s.admits h r rGrnPageSel v = true ∧ fld v 0 8 < 32) ∧
  (let s : State := grS 40 (fun g => { g with recMap := [(40, 0x10)], cfgMap := [(40, 0x10)], array := [(40, 0x01)] }); let h : HalfId := .a; let r : Req := .core 2; let v : Word := 0x12345678; s.admits h r rGrnData v = true) ∧
  (let s : State := grS 40 (fun g => { g with recMap := [(40, 0x10)], cfgMap := [(40, 0x10)], array := [(40, 0x01)] }); let h : HalfId := .a; let r : Req := .core 2; let v : Word := 1; let m := s.half h; let n := reqNum r; let p := m.selPage n; s.admits h r rGrnCommit v = true ∧ flag v 0 = true ∧ m.grn.frozen = false ∧ 32 ≤ p ∧ m.gClass p ≠ 0 ∧ m.gOwner p = 0) ∧
  (let s : State := grS 255 (fun g => { g with frozen := true }); let h : HalfId := .a; let r : Req := .core 2; let v : Word := 1; let m := s.half h; let n := reqNum r; let p := m.selPage n; s.admits h r rGrnCommit v = true ∧ flag v 0 = true ∧ (m.grn.frozen = true ∨ p < 32 ∨ m.gClass p = 0 ∨ m.gOwner p ≠ 0)) ∧
  (let s : State := grS 40 (fun g => { g with recMap := [(40, 0x10)], cfgMap := [(40, 0x10)], array := [(40, 0x01)] }); let h : HalfId := .a; let r : Req := .core 2; let v : Word := 1440; s.admits h r rGrnStoreCtrl (putFlag v 31 true) = true) ∧
  (let v : Word := 1440; fld v 0 11 ≤ 1440) ∧
  (let s : State := grS 40 (fun g => { g with recMap := [(40, 0x10)], cfgMap := [(40, 0x10)], array := [(40, 0x01)] }); let h : HalfId := .a; let y := s.view h; y.pfw = false) ∧
  (let s : State := grS 40 (fun g => { g with recMap := [(40, 0x10)], cfgMap := [(40, 0x10)], array := [(40, 0x01)] }); let h : HalfId := .a; let y := s.view h; y.fail = false) ∧
  (let s : State := grS 40 (fun g => { g with recMap := [(40, 0x10)], cfgMap := [(40, 0x10)], array := [(40, 0x01)] }); let h : HalfId := .a; let m := s.half h; m.grn.request = none) ∧
  (let s : State := grS 40 (fun g => { g with recMap := [(40, 0x10)], cfgMap := [(40, 0x10)], array := [(40, 0x01)] }); let h : HalfId := .a; let m := s.half h; m.grn.busy = none) ∧
  (let s : State := grS 40 (fun g => { g with recMap := [(40, 0x10)], cfgMap := [(40, 0x10)], array := [(40, 0x01)] }); let h : HalfId := .a; let m := s.half h; m.grn.frozen = false) ∧
  (let s : State := grS 40 (fun g => { g with recMap := [(40, 0x10)], cfgMap := [(40, 0x10)], array := [(40, 0x01)] }); let h : HalfId := .a; let r : Req := .core 2; let v : Word := 1440; let m := s.half h; let n := reqNum r; let p := m.selPage n; let y := s.view h; (∀ c, m.grn.lastCap = some c → c + 60000000000 ≤ m.up)) ∧
  (let s : State := grS 40 (fun g => { g with lastCap := some 0 }); let h : HalfId := .a; let r : Req := .core 2; let v : Word := 0; let m := s.half h; let y := s.view h; let c := 0; s.admits h r rGrnStoreCtrl (putFlag v 31 true) = true ∧ fld v 0 11 ≤ 1440 ∧ y.pfw = false ∧ y.fail = false ∧ m.grn.request = none ∧ m.grn.busy = none ∧ m.grn.frozen = false ∧ m.grn.lastCap = some c ∧ m.up < c + 60000000000) ∧
  (let s : State := (grS 40 id).updYk (fun y => { y with pwr := { y.pwr with pfw := true } }); let h : HalfId := .a; let r : Req := .core 2; let v : Word := 0; let y := s.view h; s.admits h r rGrnStoreCtrl (putFlag v 31 true) = true ∧ fld v 0 11 ≤ 1440 ∧ (y.pfw = true ∨ y.fail = true)) ∧
  (let s : State := inA (grS 40 id) (fun m => { m with up := 300000000000, regs := sput m.regs rGrnStoreCtrl 5 }); let h : HalfId := .a; let m := s.half h; s.quiet h = true ∧ m.rdF rGrnStoreCtrl 0 11 ≠ 0 ∧ m.grn.frozen = false ∧ (s.view h).fail = false ∧ m.grn.request = none ∧ m.grn.busy = none ∧ m.grn.lastCap.getD m.grn.startAt + m.rdF rGrnStoreCtrl 0 11 * 60 * oneSec ≤ m.up) ∧
  (let s : State := grS 40 (fun g => { g with request := some (2, none), current := some 0 }); let h : HalfId := .a; let m := s.half h; let kind : Nat := 2; let who : Option Nat := none; s.quiet h = true ∧ m.grn.request = some (kind, who) ∧ m.grn.frozen = false) ∧
  (let s : State := grS 40 (fun g => { g with busy := some stX }); let h : HalfId := .a; let m := s.half h; let x : Store := stX; s.quiet h = true ∧ m.grn.busy = some x ∧ x.kind ≠ 3 ∧ x.bank ≤ 1) := by
  refine ⟨?_, ?_, ?_, ?_, ?_, ?_, ?_, ?_, ?_, ?_, ?_, ?_, ?_, ?_, ?_, ?_, ?_, ?_⟩
  · decide
  · decide
  · decide
  · decide
  · decide
  · decide
  · decide
  · decide
  · decide
  · decide
  · decide
  · decide
  · intros; rename_i c hc; cases (show none = some c from hc)
  · decide
  · decide
  · decide
  · decide
  · decide

/-- The premises of each clause of PowerFail can be met. -/
theorem witness_PowerFail :
  (let s : State := runS; let p := s.yoke.pwr; p.pfw = false ∧ p.state ≠ 3 ∧ p.held = false ∧ s.yoke.granted = true ∧ p.entry = none ∧ s.yoke.xfer = none) ∧
  (let s : State := pwrS 0 (fun p => { p with pfw := true }); let p := s.yoke.pwr; p.pfw = true) ∧
  (let s : State := pwrS 0 (fun p => { p with pfw := true }); let p := s.yoke.pwr; p.pfw = true ∧ p.state ≠ 3) ∧
  (let s : State := runS; let p := s.yoke.pwr; let b : Bool := true; let low : Bool := true; (if b then p.lowB else p.lowA) ≠ low) := by
  refine ⟨?_, ?_, ?_, ?_⟩ <;> decide

/-- The premises of each clause of DormantPowerFail can be met. -/
theorem witness_DormantPowerFail :
  (let s : State := pwrS 0 (fun p => { p with state := 3, held := true }); let p := s.yoke.pwr; p.state = 3 ∧ p.pfw = false) ∧
  (let s : State := pwrS 0 (fun p => { p with state := 3, held := true, pfw := true }); let p := s.yoke.pwr; p.state = 3 ∧ p.pfw = true ∧ p.due = false) ∧
  (let s : State := pwrS 0 (fun p => { p with state := 3, held := true, pfw := true, due := true }); let p := s.yoke.pwr; p.state = 3 ∧ p.pfw = true ∧ p.due = true) := by
  refine ⟨?_, ?_, ?_⟩ <;> decide

/-- The premises of each clause of PowerStates can be met. -/
theorem witness_PowerStates :
  (let s : State := enS 1 [(.a, 5)] [] []; let h : HalfId := .a; let r : Req := .ipp 0x1001; let p := s.yoke.pwr; let k : Nat := 3; let e := (⟨1, 7, [(.a, 5)], [], [], [], []⟩ : Entry); k < 4 ∧ s.admits h r rPwrReq (word k) = true ∧ s.once h r = true ∧ p.entry = some e) ∧
  (let s : State := pwrS 0 (fun p => { p with state := 2 }); let h : HalfId := .a; let r : Req := .ipp 0x1001; let p := s.yoke.pwr; let k : Nat := 0; k < 4 ∧ s.admits h r rPwrReq (word k) = true ∧ s.once h r = true ∧ p.entry = none ∧ p.pfw = false ∧ ((k = 0 ∨ k = 1)) ∧ ((p.state = 2 ∨ p.state = 3))) ∧
  (let s : State := pwrS 0 id; let h : HalfId := .a; let r : Req := .ipp 0x1001; let p := s.yoke.pwr; let k : Nat := 0; k < 4 ∧ s.admits h r rPwrReq (word k) = true ∧ s.once h r = true ∧ p.entry = none) ∧
  (let s : State := enS 1 [(.a, 5)] [] []; let h : HalfId := .a; let p := s.yoke.pwr; let e : Entry := (⟨1, 7, [(.a, 5)], [], [], [], []⟩ : Entry); let page : Nat := 0x005; let m := s.half h; let v := 255; p.entry = some e ∧ (h, page) ∈ e.waiting ∧ m.powerRule page = none ∧ v < 256) ∧
  (let s : State := enS 1 [(.a, 5)] [] []; let h : HalfId := .a; let p := s.yoke.pwr; let e : Entry := (⟨1, 7, [(.a, 5)], [], [], [], []⟩ : Entry); let page : Nat := 0x005; let m := s.half h; let v := 255; p.entry = some e ∧ (h, page) ∈ e.waiting ∧ m.powerRule page = none ∧ v < 256 ∧ e.delays = []) ∧
  (let s : State := enS 1 [(.a, 5)] [(.a, 5, 3)] []; let h : HalfId := .a; let p := s.yoke.pwr; let e : Entry := (⟨1, 7, [(.a, 5)], [], [(.a, 5, 3)], [], []⟩ : Entry); let page : Nat := 0x005; let m := s.half h; let v := 255; p.entry = some e ∧ (h, page) ∈ e.waiting ∧ m.powerRule page = none ∧ v < 256 ∧ e.delays = [(h, page, 3)]) ∧
  (let s : State := enS 1 [(.a, 5), (.b, 5)] [] []; let h : HalfId := .a; let p := s.yoke.pwr; let e : Entry := (⟨1, 7, [(.a, 5), (.b, 5)], [], [], [], []⟩ : Entry); let page : Nat := 0x005; let m := s.half h; let rest := e.waiting.filter (fun q => decide (q ≠ (h, page))); p.entry = some e ∧ (h, page) ∈ e.waiting ∧ m.powerRule page = none ∧ (rest ≠ [] ∨ e.paused ≠ [])) ∧
  (let s : State := enS 1 [(.a, 5)] [] []; let h : HalfId := .a; let p := s.yoke.pwr; let e : Entry := (⟨1, 7, [(.a, 5)], [], [], [], []⟩ : Entry); let page : Nat := 0x005; let m := s.half h; let rest := e.waiting.filter (fun q => decide (q ≠ (h, page))); p.entry = some e ∧ (h, page) ∈ e.waiting ∧ m.powerRule page = none ∧ rest = [] ∧ e.paused = [] ∧ e.target = 1) ∧
  (let s : State := enS 2 [(.a, 5)] [] []; let h : HalfId := .a; let p := s.yoke.pwr; let e : Entry := (⟨2, 7, [(.a, 5)], [], [], [], []⟩ : Entry); let page : Nat := 0x005; let m := s.half h; let rest := e.waiting.filter (fun q => decide (q ≠ (h, page))); let g : HalfId := .a; p.entry = some e ∧ (h, page) ∈ e.waiting ∧ m.powerRule page = none ∧ rest = [] ∧ e.paused = [] ∧ e.target = 2 ∧ s.yoke.xfer = none ∧ s.yoke.holder = some g ∧ s.role (other g) = .follower) ∧
  (let s : State := enS 3 [(.a, 5)] [] []; let h : HalfId := .a; let p := s.yoke.pwr; let e : Entry := (⟨3, 7, [(.a, 5)], [], [], [], []⟩ : Entry); let page : Nat := 0x005; let m := s.half h; let rest := e.waiting.filter (fun q => decide (q ≠ (h, page))); p.entry = some e ∧ (h, page) ∈ e.waiting ∧ m.powerRule page = none ∧ rest = [] ∧ e.paused = [] ∧ e.target = 3) ∧
  (let s : State := (enS 3 [] [(.a, 5, 1)] [(.a, 5)]).updYk (fun y => { y with now := 1000000000 }); let h : HalfId := .a; let p := s.yoke.pwr; let e : Entry := (⟨3, 7, [], [], [(.a, 5, 1)], [(.a, 5)], []⟩ : Entry); let page : Nat := 0x005; let m := s.half h; p.entry = some e ∧ (h, page) ∈ e.paused ∧ (sfind e.since (entryKey h page)).getD 0 + m.rdF (pgPwrRsp page) 8 8 * oneMs ≤ s.yoke.now) ∧
  (let s : State := (enS 3 [(.a, 5)] [] []).updYk (fun y => { y with now := 1000000000 }); let h : HalfId := .a; let p := s.yoke.pwr; let e : Entry := (⟨3, 7, [(.a, 5)], [], [], [], []⟩ : Entry); let page : Nat := 0x005; p.entry = some e ∧ (h, page) ∈ e.waiting ∧ (sfind e.since (entryKey h page)).getD 0 + oneMs ≤ s.yoke.now) ∧
  (let s : State := pwrS 0 id; let reason : Nat := 5; 1 ≤ reason ∧ reason ≤ 5 ∧ s.rdB .a rPwrWakeEn (reason - 1) = false) ∧
  (let s : State := pwrS 0x1F (fun p => { p with state := 2 }); let p := s.yoke.pwr; let reason : Nat := 1; 1 ≤ reason ∧ reason ≤ 5 ∧ s.rdB .a rPwrWakeEn (reason - 1) = true ∧ p.state = 2 ∧ p.entry = none ∧ s.frozen = false) ∧
  (let s : State := pwrS 0x1F (fun p => { p with state := 3, held := true }); let p := s.yoke.pwr; let reason : Nat := 5; 1 ≤ reason ∧ reason ≤ 5 ∧ s.rdB .a rPwrWakeEn (reason - 1) = true ∧ p.state = 3 ∧ p.due = false ∧ reason ≠ 1) ∧
  (let s : State := enS 2 [(.a, 5)] [] []; let p := s.yoke.pwr; let reason : Nat := 5; let e := (⟨2, 7, [(.a, 5)], [], [], [], []⟩ : Entry); 1 ≤ reason ∧ reason ≤ 5 ∧ s.rdB .a rPwrWakeEn (reason - 1) = true ∧ p.state < 2 ∧ p.entry = some e ∧ 2 ≤ e.target ∧ (e.waiting ≠ [] ∨ e.paused ≠ [])) ∧
  (let s : State := pwrS 0x1F (fun p => { p with state := 2 }); let p := s.yoke.pwr; let f : MzFrame := ⟨0xFFFF, 0x31, 0, 1, 5, 2, 0, 0, leBytes 4 (runS.a.rdN rMzWakeCode)⟩; let m := if s.runs .a then s.a else s.b; f.kind = 2 ∧ (f.dest = m.addr ∨ f.dest = 0xFFFF) ∧ leAt f.payload 0 4 = m.rdN rMzWakeCode ∧ p.state = 2 ∧ p.entry = none ∧ s.frozen = false ∧ s.rdB .a rPwrWakeEn 2 = true) ∧
  (let s : State := pwrS 0 (fun p => { p with pfw := true }); let h : HalfId := .a; let r : Req := .ipp 0x1001; let k := 3; let p := s.yoke.pwr; k < 4 ∧ s.admits h r rPwrReq (word k) = true ∧ s.once h r = true ∧ p.entry = none ∧ k ≠ p.state ∧ p.pfw = true) ∧
  (let s : State := pwrS 0 id; let h : HalfId := .a; let r : Req := .ipp 0x1001; let k := 3; let p := s.yoke.pwr; k < 4 ∧ s.admits h r rPwrReq (word k) = true ∧ s.once h r = true ∧ p.entry = none ∧ (p.pfw = false ∧ 2 ≤ k ∧ k ≠ p.state ∧ (k = 2 → p.state ≠ 3 ∧ s.yoke.holder ≠ none) ∧ (∀ i, i < 5 → s.rdB .a rPwrWakeEn i = false))) ∧
  (let s : State := pwrS 0 (fun p => { p with state := 1 }); let h : HalfId := .a; let r : Req := .ipp 0x1001; let k := 0; let p := s.yoke.pwr; k < 4 ∧ s.admits h r rPwrReq (word k) = true ∧ s.once h r = true ∧ p.entry = none ∧ p.pfw = false ∧ k = 0 ∧ p.state = 1) ∧
  (let s : State := pwrS 0x1F id; let h : HalfId := .a; let r : Req := .ipp 0x1001; let k := 2; let p := s.yoke.pwr; k < 4 ∧ s.admits h r rPwrReq (word k) = true ∧ s.once h r = true ∧ p.entry = none ∧ (p.pfw = false ∧ ((k = 1 ∧ p.state = 0) ∨ (2 ≤ k ∧ p.state < 2 ∧ (k = 2 → s.yoke.holder ≠ none) ∧ s.rdB .a rPwrWakeEn 1 = true)))) := by
  refine ⟨?_, ?_, ?_, ?_, ?_, ?_, ?_, ?_, ?_, ?_, ?_, ?_, ?_, ?_, ?_, ?_, ?_, ?_, ?_, ?_, ?_⟩ <;> decide

/-- The premises of each clause of ManagementPort can be met. -/
theorem witness_ManagementPort :
  (let s : State := mgtS id; let p := s.yoke.pwr; (s.rdB .a rMgtCtrl 15 = false ∨ p.state < 2 ∧ p.entry = none)) ∧
  (let s : State := (pwrS 0 id).updYk (fun y => { y with regs := sput y.regs rMgtCtrl 0x20 }); let c : Nat := 5; 1 ≤ c ∧ c ≤ 5 ∧ s.rdB .a rMgtCtrl 8 = false) ∧
  (let s : State := mgtS id; let x : MgtReq := ⟨0, [], false⟩; let c : Nat := 1; 1 ≤ c ∧ c ≤ 5 ∧ s.rdB .a rMgtCtrl 8 = true ∧ x.pecOk = false) ∧
  (let s : State := mgtS id; let x : MgtReq := ⟨28, [], true⟩; let c : Nat := 1; 1 ≤ c ∧ c ≤ 5 ∧ s.rdB .a rMgtCtrl 8 = true ∧ x.pecOk = true ∧ (x.payload.length ≠ x.len ∨ 28 < x.len)) ∧
  (let s : State := mgtS id; let x : MgtReq := mq []; s.rdB .a rMgtCtrl 8 = true ∧ x.pecOk = true ∧ x.payload.length = x.len ∧ x.len ≤ 28 ∧ x.len = 0) ∧
  (let s : State := mgtS id; let x : MgtReq := mq []; let p := s.yoke.pwr; s.rdB .a rMgtCtrl 8 = true ∧ x.pecOk = true ∧ x.payload.length = x.len ∧ x.len ≤ 28 ∧ x.len = 0 ∧ p.state < 2 ∧ p.entry = none) ∧
  (let s : State := mgtS (fun p => { p with state := 2 }); let x : MgtReq := mq []; let p := s.yoke.pwr; s.rdB .a rMgtCtrl 8 = true ∧ x.pecOk = true ∧ x.payload.length = x.len ∧ x.len ≤ 28 ∧ x.len = 0 ∧ p.state = 2 ∧ p.entry = none ∧ s.frozen = false) ∧
  (let s : State := mgtS id; let x : MgtReq := mq [1]; s.rdB .a rMgtCtrl 8 = true ∧ x.pecOk = true ∧ x.payload.length = x.len ∧ x.len ≤ 28 ∧ x.len = 1 ∧ leAt x.payload 0 1 < 4 ∧ s.admits s.primary .mgt rPwrReq (word (leAt x.payload 0 1)) = true ∧ (s.powerReq (leAt x.payload 0 1)).2 = 0) ∧
  (let s : State := mgtS id; let x : MgtReq := mq [2, 0xE0, 0, 0, 0, 6]; let k := s.mgtOf x; let n := leAt x.payload 5 1; s.rdB .a rMgtCtrl 8 = true ∧ x.pecOk = true ∧ x.payload.length = x.len ∧ x.len ≤ 28 ∧ leAt x.payload 0 1 ≤ 2 ∧ 1 ≤ n ∧ x.len = 6 ∧ n ≤ 6 ∧ s.mgtStalls k x false = false ∧ (mgtKeys x).all (s.mgtReach k) = true) ∧
  (let s : State := mgtS id; let x : MgtReq := mq ([1, 0x12, 0, 0x44, 0, 5] ++ List.replicate 20 0); let k := s.mgtOf x; let n := leAt x.payload 5 1; s.rdB .a rMgtCtrl 8 = true ∧ x.pecOk = true ∧ x.payload.length = x.len ∧ x.len ≤ 28 ∧ leAt x.payload 0 1 ≤ 2 ∧ 1 ≤ n ∧ x.len = 6 + 4 * n ∧ n ≤ 5 ∧ s.mgtStalls k x true = false ∧ s.runs k = true) ∧
  (let s : State := (mgtS id).upd .a (fun m => { m with dir := sput m.dir 0x0E0 ⟨false, false, false, false, false⟩, regs := sput (sput m.regs (pgCtrl 0x0E0) 0x11) (pgAcl 0x0E0) 0x434B }); let x : MgtReq := mq [0, 0xE0, 0, 0x40, 0, 1]; let k := s.mgtOf x; let n := leAt x.payload 5 1; s.rdB .a rMgtCtrl 8 = true ∧ x.pecOk = true ∧ x.payload.length = x.len ∧ x.len ≤ 28 ∧ leAt x.payload 0 1 ≤ 2 ∧ 1 ≤ n ∧ x.len = 6 ∧ n ≤ 6 ∧ s.mgtStalls k x false = true) := by
  refine ⟨?_, ?_, ?_, ?_, ?_, ?_, ?_, ?_, ?_, ?_, ?_⟩ <;> decide

/-- The premises of each clause of ImageLoads can be met. -/
theorem witness_ImageLoads :
  (let s : State := updS id; let h : HalfId := .a; let r : Req := .ipp 0x3003; let v : Word := 0x80000001; let m := s.half h; let u := m.upd; let n := fld v 0 2; s.admits h r rUpdStream v = true ∧ n < 3 ∧ flag v 31 = true ∧ u.load = none ∧ ((n < 2 → s.yoke.act.phase ≠ 3 ∧ (m.upSlot n).st < 3 ∨ s.yoke.act.phase ≠ 3 ∧ (m.upSlot n).st = 6))) ∧
  (let s : State := updS (fun u => { u with slots := [(1, { slotEmpty with st := 3 })] }); let h : HalfId := .a; let r : Req := .ipp 0x3003; let v : Word := 0x80000001; let m := s.half h; let u := m.upd; let n := fld v 0 2; s.admits h r rUpdStream v = true ∧ n < 3 ∧ flag v 31 = true ∧ (u.load ≠ none ∨ (n < 2 ∧ (s.yoke.act.phase = 3 ∨ (m.upSlot n).st = 3 ∨ (m.upSlot n).st = 4 ∨ (m.upSlot n).st = 5)))) ∧
  (let s : State := updS (fun u => { u with load := some (ldX 1 [] false) }); let h : HalfId := .a; let r : Req := .ipp 0x3003; let v : Word := 0x40000001; let m := s.half h; let u := m.upd; let n := fld v 0 2; let x := ldX 1 [] false; s.admits h r rUpdStream v = true ∧ n < 3 ∧ flag v 31 = false ∧ flag v 30 = true ∧ u.load = some x) ∧
  (let s : State := updS (fun u => { u with load := some (ldX 1 [] false) }); let h : HalfId := .a; let r : Req := .ipp 0x3003; let m := s.half h; let u := m.upd; let x : Load := ldX 1 [] false; let off : Word := 4; let l : List Word := [1]; u.load = some x ∧ s.admits h r (rUpdWin 0) off = true ∧ l ≠ [] ∧ (stampClass (reqStamp r) ≠ 3 ∨ off.toNat ≠ u.rxOff ∨ 247 < l.length)) ∧
  (let s : State := updS (fun u => { u with load := some (ldX 1 [] false) }); let h : HalfId := .a; let r : Req := .ipp 0x3003; let m := s.half h; let u := m.upd; let x : Load := ldX 1 [] false; let off : Word := 0; let l : List Word := (List.replicate 63 0); let all := x.bytes ++ l.flatMap (fun w => leBytes 4 w.toNat); u.load = some x ∧ s.admits h r (rUpdWin 0) off = true ∧ l ≠ [] ∧ stampClass (reqStamp r) = 3 ∧ off.toNat = u.rxOff ∧ l.length ≤ 247 ∧ x.copy = false ∧ all.length < 256) ∧
  (let s : State := updS (fun u => { u with load := some (ldX 1 [] false) }); let h : HalfId := .a; let r : Req := .ipp 0x3003; let m := s.half h; let u := m.upd; let x : Load := ldX 1 [] false; let off : Word := 0; let l : List Word := (List.replicate 64 0); let all := x.bytes ++ l.flatMap (fun w => leBytes 4 w.toNat); let cause := m.imgHeader s.yoke.arb x.target all; u.load = some x ∧ s.admits h r (rUpdWin 0) off = true ∧ l ≠ [] ∧ stampClass (reqStamp r) = 3 ∧ off.toNat = u.rxOff ∧ l.length ≤ 247 ∧ x.copy = false ∧ x.bytes.length < 256 ∧ 256 ≤ all.length ∧ cause ≠ 0) ∧
  (let s : State := (updS (fun u => { u with load := some (ldX 1 [] false) })).upd .a (fun m => { m with up := 600000000000 }); let h : HalfId := .a; let m := s.half h; let u := m.upd; let x : Load := ldX 1 [] false; s.quiet h = true ∧ u.load = some x ∧ x.copy = false ∧ x.since + 600 * oneSec ≤ m.up) ∧
  (let s : State := updS (fun u => { u with load := some (ldX 1 ([0, 0, 0, 0, 0, 1, 0, 9] ++ List.replicate 20 7) true) }); let h : HalfId := .a; let m := s.half h; let u := m.upd; let x : Load := ldX 1 ([0, 0, 0, 0, 0, 1, 0, 9] ++ List.replicate 20 7) true; s.quiet h = true ∧ u.load = some x ∧ x.copy = true) ∧
  (let s : State := (updS id).upd .a (fun m => m.updAcc (reqNum (.ipp 0x1001)) (fun a => { a with staged := (List.range 23).map (fun i => (rSecOwnerKey + 4 * (i + 1), ⟨gW.getD (i + 1) 0, 0⟩)) })); let h : HalfId := .a; let r : Req := .ipp 0x1001; let v : Word := gW.getD 0 0; let m := s.half h; let a := m.ageStaged (reqNum r); let k := v :: (List.range 23).map (fun i => (a.stagedWord (reqNum r) (rSecOwnerKey + 4 * (i + 1))).getD ((m.sec.key.getD []).getD (i + 1) 0)); s.admits h r rSecOwnerKey v = true ∧ onCurve (ownerPoint k) = true) ∧
  (let s : State := updS id; let h : HalfId := .a; let r : Req := .ipp 0x1001; let v : Word := 1; let m := s.half h; let a := m.ageStaged (reqNum r); let k := v :: (List.range 23).map (fun i => (a.stagedWord (reqNum r) (rSecOwnerKey + 4 * (i + 1))).getD ((m.sec.key.getD []).getD (i + 1) 0)); s.admits h r rSecOwnerKey v = true ∧ onCurve (ownerPoint k) = false) := by
  refine ⟨?_, ?_, ?_, ?_, ?_, ?_, ?_, ?_, ?_, ?_⟩ <;> decide

/-- The premises of each clause of Activations can be met. -/
theorem witness_Activations :
  (let s : State := actS (fun a => { a with phase := 3 }) id; let h : HalfId := .a; let r : Req := .ipp 0x1001; let v : Word := 0x10001; let m := s.half h; let st := reqStamp r; let slot := fld v 16 1; let ver := m.rd rUpdActVer; let cause := s.actCheck slot ver (flag v 8) (stampClass st); let op (k : Word) : Bool := s.admits h r rUpdCmd k && s.once h r; op v = true ∧ fld v 0 4 = 1 ∧ cause ≠ 0) ∧
  (let s : State := actS id id; let h : HalfId := .a; let r : Req := .ipp 0x1001; let v : Word := 0x10001; let x : HalfId := .a; let y := other x; let m := s.half h; let st := reqStamp r; let slot := fld v 16 1; let ver := m.rd rUpdActVer; let cause := s.actCheck slot ver (flag v 8) (stampClass st); let op (k : Word) : Bool := s.admits h r rUpdCmd k && s.once h r; op v = true ∧ fld v 0 4 = 1 ∧ cause = 0 ∧ s.yoke.hold = false ∧ s.yoke.holder = some x ∧ s.role x = .inCharge ∧ s.role y = .follower ∧ (s.half y).upd.run ≠ slot) ∧
  (let s : State := actS id (fun y => { y with b := { y.b with role := .retired } }); let h : HalfId := .a; let r : Req := .ipp 0x1001; let v : Word := 0x10101; let x : HalfId := .a; let y := other x; let m := s.half h; let st := reqStamp r; let slot := fld v 16 1; let ver := m.rd rUpdActVer; let cause := s.actCheck slot ver (flag v 8) (stampClass st); let op (k : Word) : Bool := s.admits h r rUpdCmd k && s.once h r; op v = true ∧ fld v 0 4 = 1 ∧ cause = 0 ∧ s.yoke.hold = false ∧ s.yoke.holder = some x ∧ s.role x = .inCharge ∧ s.role y = .retired ∧ (s.half x).upd.run ≠ slot) ∧
  (let s : State := actS (fun a => { a with phase := 4 }) id; let h : HalfId := .a; let r : Req := .ipp 0x1001; let a := s.yoke.act; let op (k : Word) : Bool := s.admits h r rUpdCmd k && s.once h r; op 2 = true ∧ a.phase ≠ 1 ∧ a.phase ≠ 3) ∧
  (let s : State := (actS (fun a => { a with phase := 3 }) id).both (fun m => { m with upd := { m.upd with run := 1, migrating := false } }); let h : HalfId := .a; let r : Req := .ipp 0x1001; let x : HalfId := .a; let y := other x; let a := s.yoke.act; let op (k : Word) : Bool := s.admits h r rUpdCmd k && s.once h r; op 2 = true ∧ (a.phase = 1 ∨ a.phase = 3) ∧ s.yoke.hold = false ∧ s.yoke.holder = some x ∧ s.role x = .inCharge ∧ s.role y = .follower ∧ (s.half y).upd.run ≠ a.was) ∧
  (let s : State := actS (fun a => { a with phase := 1 }) id; let h : HalfId := .a; let r : Req := .ipp 0x1001; let a := s.yoke.act; let op (k : Word) : Bool := s.admits h r rUpdCmd k && s.once h r; op 3 = true ∧ a.phase ≠ 3) ∧
  (let s : State := actS (fun a => { a with phase := 3 }) id; let h : HalfId := .a; let r : Req := .ipp 0x1001; let x : HalfId := .a; let a := s.yoke.act; let op (k : Word) : Bool := s.admits h r rUpdCmd k && s.once h r; op 3 = true ∧ a.phase = 3 ∧ s.yoke.holder = some x) ∧
  (let s : State := (actS (fun a => { a with phase := 3 }) id).upd .a (fun m => { m with tai := 1000000000000000 }); let x : HalfId := .a; let a := s.yoke.act; a.phase = 3 ∧ s.yoke.holder = some x ∧ a.probAt + s.rdF .a rUpdCtrl 8 8 * 3600 * oneSec ≤ s.timeBase) ∧
  (let s : State := (actS (fun a => { a with phase := 1 }) id).both (fun m => { m with upd := { m.upd with run := 1, migrating := true } }); let h : HalfId := .a; let r : Req := .core 2; let m := s.half h; let a := s.yoke.act; let op (k : Word) : Bool := s.admits h r rUpdCmd k && s.once h r; op 4 = true ∧ a.phase = 1 ∧ m.upd.migrating = true) ∧
  (let s : State := ((actS (fun a => { a with phase := 1 }) id).both (fun m => { m with upd := { m.upd with run := 1, migrating := true } })).upd .a (fun m => { m with upd := { m.upd with migrating := false } }); let h : HalfId := .b; let r : Req := .core 2; let x : HalfId := .a; let y := other x; let a := s.yoke.act; let op (k : Word) : Bool := s.admits h r rUpdCmd k && s.once h r; let z : HalfId := .b; s.yoke.hold = false ∧ s.yoke.holder = some x ∧ s.role x = .inCharge ∧ s.role y = .follower ∧ (s.half y).upd.run ≠ a.was ∧ a.phase = 1 ∧ z = y ∧ (s.half y).upd.migrating = true ∧ h = y ∧ op 5 = true) ∧
  (let s : State := (((actS (fun a => { a with phase := 1 }) id).both (fun m => { m with upd := { m.upd with run := 1, migrating := true } })).upd .a (fun m => { m with upd := { m.upd with migrating := false } })).updYk (fun y => { y with now := 1000000000000000 }); let x : HalfId := .a; let y := other x; let a := s.yoke.act; let z : HalfId := .b; s.yoke.hold = false ∧ s.yoke.holder = some x ∧ s.role x = .inCharge ∧ s.role y = .follower ∧ (s.half y).upd.run ≠ a.was ∧ a.phase = 1 ∧ z = y ∧ (s.half y).upd.migrating = true ∧ (s.half x).upd.migrating = false ∧ a.migAt + s.rdF .a rUpdCtrl 16 8 * oneSec ≤ s.yoke.now) ∧
  (let s : State := ((actS (fun a => { a with phase := 1, who := some .b }) (fun y => { y with b := { y.b with role := .booting } })).both (fun m => { m with upd := { m.upd with run := 1, migrating := false } })).updYk (fun y => { y with now := 1000000000000000 }); let x : HalfId := .a; let y := other x; let a := s.yoke.act; s.yoke.hold = false ∧ s.yoke.holder = some x ∧ s.role x = .inCharge ∧ a.single = false ∧ a.who = some y ∧ s.role y = .booting ∧ a.since + 10 * oneSec ≤ s.yoke.now ∧ a.phase = 1 ∧ (s.half y).upd.run ≠ a.was) ∧
  (let s : State := (actS (fun a => { a with phase := 4, who := some .b }) (fun y => { y with b := { y.b with role := .booting } })).updYk (fun y => { y with now := 1000000000000000 }); let x : HalfId := .a; let y := other x; let a := s.yoke.act; s.yoke.hold = false ∧ s.yoke.holder = some x ∧ s.role x = .inCharge ∧ a.single = false ∧ a.who = some y ∧ s.role y = .booting ∧ a.since + 10 * oneSec ≤ s.yoke.now ∧ a.phase = 4 ∧ (s.half x).upd.run = a.was ∧ (s.half x).upd.recovery = false ∧ a.yoke = false ∧ s.yoke.handover = none) ∧
  (let s : State := actS (fun a => { a with phase := 2, slot := 1 }) (fun y => { y with hold := true }); let x : HalfId := .a; let a := s.yoke.act; s.yoke.hold = true ∧ s.yoke.holder = some x ∧ a.phase = 2) ∧
  (let s : State := (actS (fun a => { a with phase := 2, slot := 1 }) (fun y => { y with hold := true })).both (fun m => { m with upd := { m.upd with run := 1, migrating := false } }); let x : HalfId := .a; let y := other x; let a := s.yoke.act; s.yoke.hold = true ∧ s.yoke.holder = some x ∧ a.phase = 2 ∧ s.role x = .inCharge ∧ s.role y = .follower ∧ (s.half y).upd.run ≠ a.was) ∧
  (let s : State := actS (fun a => { a with phase := 0 }) (fun y => { y with hold := true }); let x : HalfId := .a; let a := s.yoke.act; s.yoke.hold = true ∧ s.yoke.holder = some x ∧ a.phase ≠ 2 ∧ a.phase ≠ 4) := by
  refine ⟨?_, ?_, ?_, ?_, ?_, ?_, ?_, ?_, ?_, ?_, ?_, ?_, ?_, ?_, ?_, ?_⟩ <;> decide

/-- The premises of each clause of QueuesAndCrypto can be met. -/
theorem witness_QueuesAndCrypto :
  (let s : State := queS [] id; let h : HalfId := .a; let c : Fin 4 := 2; let x : KzCtx := ⟨5, true, false⟩; s.reaches h (.core c) = true ∧ x.sup = true ∧ x.deleg = false) ∧
  (let s : State := queS [(5, [0x1000])] id; let h : HalfId := .a; let m := s.half h; let c : Fin 4 := 2; let x : KzCtx := ⟨5, false, false⟩; let q := x.sel.val; s.reaches h (.core c) = true ∧ (x.sup = false ∨ x.deleg = true) ∧ m.macOfQueue q = none ∧ (m.queue q).length < 1024) ∧
  (let s : State := queS [(5, List.replicate 1024 0x1000)] id; let h : HalfId := .a; let m := s.half h; let c : Fin 4 := 2; let x : KzCtx := ⟨5, false, false⟩; let q := x.sel.val; s.reaches h (.core c) = true ∧ (x.sup = false ∨ x.deleg = true) ∧ m.macOfQueue q = none ∧ 1024 ≤ (m.queue q).length) ∧
  (let s : State := queS [(5, [0x1000])] id; let h : HalfId := .a; let c : Fin 4 := 2; let x : KzCtx := ⟨5, false, false⟩; s.reaches h (.core c) = true ∧ (x.sup = false ∨ x.deleg = true)) ∧
  (let s : State := jobS [(0x1000, 0x0C), (0x1005, 0xFF), (0x1020, 3)]; let h : HalfId := .a; let m := s.half h; let a : Nat := 0x1000; let l : List Nat := [0x1800]; let op := (m.peek (a + 32)).toNat; s.quiet h = true ∧ m.on 0x008 = true ∧ m.rdB rSecJobq 31 = true ∧ m.queue (m.rdF rSecJobq 0 8) = a :: l ∧ (m.queue (m.rdF rSecJobq 0 8 + 128)).length < 1024 ∧ m.peek a = 0x0C ∧ 1 ≤ op ∧ op ≤ 6 ∧ m.jobIn a = none) ∧
  (let s : State := jobS [(0x1000, 0x0C), (0x1020, 1)]; let h : HalfId := .a; let m := s.half h; let a : Nat := 0x1000; let l : List Nat := [0x1800]; let op := (m.peek (a + 32)).toNat; let aad := leNat (m.peekN (a + 36) 4); let x : List Byte := ([] : List Byte); let status : Nat := 0x0B; let out : List Byte := ([] : List Byte); s.quiet h = true ∧ m.on 0x008 = true ∧ m.rdB rSecJobq 31 = true ∧ m.queue (m.rdF rSecJobq 0 8) = a :: l ∧ (m.queue (m.rdF rSecJobq 0 8 + 128)).length < 1024 ∧ m.peek a = 0x0C ∧ 1 ≤ op ∧ op ≤ 6 ∧ m.jobIn a = some x ∧ m.jobResult op aad x = (status, out) ∧ status < 256) := by
  refine ⟨?_, ?_, ?_, ?_, ?_, ?_⟩ <;> decide

/-- The premises of each clause of EventRecorder can be met. -/
theorem witness_EventRecorder :
  (let s : State := (inA (onS [0x005]) (fun m => (id) { m with evr := { m.evr with arising := [⟨0x0705, 1, 2, 3, 4, 5⟩], restored := true }, regs := sput (sput (sput m.regs rEvrNext 9) rEvrOldest 3) rEvrExport 7 })).updYk (fun y => { y with b := { y.b with role := .retired } }); let h : HalfId := .a; let m := s.half h; let e : Event := ⟨0x0705, 1, 2, 3, 4, 5⟩; let l : List Event := []; s.quiet h = true ∧ m.evr.arising = e :: l ∧ m.evr.restored = true ∧ s.paired = false ∧ m.evFrozen = false ∧ m.evFull = false) ∧
  (let s : State := (inA (onS [0x005]) (fun m => (fun m => { m with regs := sput m.regs rEvrStat 0x80000000 }) { m with evr := { m.evr with arising := [⟨0x0705, 1, 2, 3, 4, 5⟩], restored := true }, regs := sput (sput (sput m.regs rEvrNext 9) rEvrOldest 3) rEvrExport 7 })).updYk (fun y => { y with b := { y.b with role := .retired } }); let h : HalfId := .a; let m := s.half h; let e : Event := ⟨0x0705, 1, 2, 3, 4, 5⟩; let l : List Event := []; s.quiet h = true ∧ m.evr.arising = e :: l ∧ m.evr.restored = true ∧ s.paired = false ∧ m.evFrozen = true) ∧
  (let s : State := (inA (onS [0x005]) (fun m => (fun m => { m with regs := sput (sput m.regs rEvrNext 65536) rEvrOldest 0 }) { m with evr := { m.evr with arising := [⟨0x0705, 1, 2, 3, 4, 5⟩], restored := true }, regs := sput (sput (sput m.regs rEvrNext 9) rEvrOldest 3) rEvrExport 7 })).updYk (fun y => { y with b := { y.b with role := .retired } }); let h : HalfId := .a; let m := s.half h; let e : Event := ⟨0x0705, 1, 2, 3, 4, 5⟩; let l : List Event := []; s.quiet h = true ∧ m.evr.arising = e :: l ∧ m.evr.restored = true ∧ s.paired = false ∧ m.evFrozen = false ∧ m.evFull = true) ∧
  (let s : State := ((inA (onS [0x005]) (fun m => (id) { m with evr := { m.evr with arising := [⟨0x0705, 1, 2, 3, 4, 5⟩], restored := true }, regs := sput (sput (sput m.regs rEvrNext 9) rEvrOldest 3) rEvrExport 7 })).updYk (id)).upd .b (fun m => { m with regs := sput m.regs rEvrNext 9 }); let h : HalfId := .a; let m := s.half h; let next := m.rd rEvrNext; let e : Event := ⟨0x0705, 1, 2, 3, 4, 5⟩; let l : List Event := []; let o := other h; s.quiet h = true ∧ m.evr.arising = e :: l ∧ m.evr.restored = true ∧ s.role h = .inCharge ∧ s.role o = .follower ∧ m.evFrozen = false ∧ m.evFull = false ∧ (s.half o).evFrozen = false ∧ (s.half o).evFull = false ∧ (s.half o).rd rEvrNext = next) ∧
  (let s : State := (inA (onS [0x005]) (fun m => (id) { m with evr := { m.evr with arising := [⟨0x0705, 1, 2, 3, 4, 5⟩], restored := true }, regs := sput (sput (sput m.regs rEvrNext 9) rEvrOldest 3) rEvrExport 7 })).updYk (id); let h : HalfId := .a; let r : Req := .core 2; let m := s.half h; let next := m.rd rEvrNext; let v : Word := 8; let no := seqOlder 32 v.toNat (m.rdN rEvrExport) || seqNewer 32 v.toNat (next - 1).toNat; s.admits h r rEvrExport v = true ∧ no = false) ∧
  (let s : State := (inA (onS [0x005]) (fun m => (id) { m with evr := { m.evr with arising := [⟨0x0705, 1, 2, 3, 4, 5⟩], restored := true }, regs := sput (sput (sput m.regs rEvrNext 9) rEvrOldest 3) rEvrExport 7 })).updYk (id); let h : HalfId := .a; let r : Req := .core 2; let m := s.half h; let next := m.rd rEvrNext; let v : Word := 9; let no := seqOlder 32 v.toNat (m.rdN rEvrExport) || seqNewer 32 v.toNat (next - 1).toNat; s.admits h r rEvrExport v = true ∧ no = true) ∧
  (let s : State := (inA (onS [0x005]) (fun m => (id) { m with evr := { m.evr with arising := [⟨0x0705, 1, 2, 3, 4, 5⟩], restored := true }, regs := sput (sput (sput m.regs rEvrNext 9) rEvrOldest 3) rEvrExport 7 })).updYk (id); let h : HalfId := .a; let r : Req := .core 2; let cmd (k : Word) : Bool := s.admits h r rEvrCmd k; cmd 1 = true) ∧
  (let s : State := (inA (onS [0x005]) (fun m => (id) { m with evr := { m.evr with arising := [⟨0x0705, 1, 2, 3, 4, 5⟩], restored := true }, regs := sput (sput (sput m.regs rEvrNext 9) rEvrOldest 3) rEvrExport 7 })).updYk (id); let h : HalfId := .a; let r : Req := .core 2; let m := s.half h; let cmd (k : Word) : Bool := s.admits h r rEvrCmd k; cmd 2 = true ∧ m.evFrozen = false) ∧
  (let s : State := (inA (onS [0x005]) (fun m => (fun m => { m with regs := sput m.regs rEvrStat 0x80000000 }) { m with evr := { m.evr with arising := [⟨0x0705, 1, 2, 3, 4, 5⟩], restored := true }, regs := sput (sput (sput m.regs rEvrNext 9) rEvrOldest 3) rEvrExport 7 })).updYk (id); let h : HalfId := .a; let r : Req := .core 2; let m := s.half h; let cmd (k : Word) : Bool := s.admits h r rEvrCmd k; cmd 2 = true ∧ m.evFrozen = true ∧ m.evFull = false) ∧
  (let s : State := ((inA (onS [0x005]) (fun m => (fun m => { m with regs := sput m.regs rEvrStat 0x80000000 }) { m with evr := { m.evr with arising := [⟨0x0705, 1, 2, 3, 4, 5⟩], restored := true }, regs := sput (sput (sput m.regs rEvrNext 9) rEvrOldest 3) rEvrExport 7 })).updYk (id)).upd .a (fun m => { m with up := 100000000000000 }); let h : HalfId := .a; let m := s.half h; s.quiet h = true ∧ m.evFrozen = true ∧ m.evFull = false ∧ m.evr.frozenAt + m.rdF rEvrCtrl 0 12 * oneSec ≤ m.up) ∧
  (let s : State := (inA (onS [0x005]) (fun m => (fun m => { m with regs := sput m.regs rEvrArg 8 }) { m with evr := { m.evr with arising := [⟨0x0705, 1, 2, 3, 4, 5⟩], restored := true }, regs := sput (sput (sput m.regs rEvrNext 9) rEvrOldest 3) rEvrExport 7 })).updYk (id); let h : HalfId := .a; let r : Req := .core 2; let m := s.half h; let cmd (k : Word) : Bool := s.admits h r rEvrCmd k; let v := m.rd rEvrArg; let no := m.evFrozen || seqOlder 32 v.toNat (m.rdN rEvrOldest) || seqNewer 32 v.toNat (m.rdN rEvrExport); cmd 3 = true ∧ no = true) ∧
  (let s : State := (inA (onS [0x005]) (fun m => (fun m => { m with regs := sput m.regs rEvrArg 7 }) { m with evr := { m.evr with arising := [⟨0x0705, 1, 2, 3, 4, 5⟩], restored := true }, regs := sput (sput (sput m.regs rEvrNext 9) rEvrOldest 3) rEvrExport 7 })).updYk (id); let h : HalfId := .a; let r : Req := .core 2; let m := s.half h; let cmd (k : Word) : Bool := s.admits h r rEvrCmd k; let v := m.rd rEvrArg; let no := m.evFrozen || seqOlder 32 v.toNat (m.rdN rEvrOldest) || seqNewer 32 v.toNat (m.rdN rEvrExport); cmd 3 = true ∧ no = false ∧ m.evFull = false) ∧
  (let s : State := (inA (onS [0x005]) (fun m => (fun m => { m with regs := sput m.regs rEvrStat 0x80000000 }) { m with evr := { m.evr with arising := [⟨0x0705, 1, 2, 3, 4, 5⟩], restored := true }, regs := sput (sput (sput m.regs rEvrNext 9) rEvrOldest 3) rEvrExport 7 })).updYk (id); let h : HalfId := .a; let r : Req := .ipp 0x1001; let m := s.half h; let cmd (k : Word) : Bool := s.admits h r rEvrCmd k; cmd 4 = true ∧ m.evFrozen = true) ∧
  (let s : State := (inA (onS [0x005]) (fun m => (id) { m with evr := { m.evr with arising := [⟨0x0705, 1, 2, 3, 4, 5⟩], restored := true }, regs := sput (sput (sput m.regs rEvrNext 9) rEvrOldest 3) rEvrExport 7 })).updYk (id); let h : HalfId := .a; let r : Req := .ipp 0x1001; let m := s.half h; let cmd (k : Word) : Bool := s.admits h r rEvrCmd k; cmd 4 = true ∧ m.evFrozen = false) := by
  refine ⟨?_, ?_, ?_, ?_, ?_, ?_, ?_, ?_, ?_, ?_, ?_, ?_, ?_, ?_⟩ <;> decide

/-- The premises of each clause of HealthMonitors can be met. -/
theorem witness_HealthMonitors :
  (let s : State := onS [0x006]; let p := s.yoke.pwr; p.state ≠ 3) ∧
  (let s : State := onS [0x006]; let p := s.yoke.pwr; p.thermal = false) ∧
  (let s : State := onS [0x006]; let h : HalfId := .a; let r : Req := .core 2; let v : Word := 1; let m := s.half h; let p := s.yoke.pwr; let x : TempSample := ⟨[1839, 0, 0, 0], [1680]⟩; let l (g : HalfId) : List Int := (if g = .a then x.dieA else x.dieB).take 4; (∀ g, ∀ c ∈ l g, c < 1840)) ∧
  (let s : State := inA (onS [0x006]) (fun m => { m with hlth := { m.hlth with hot := [0, 1] } }); let p := s.yoke.pwr; let x : TempSample := ⟨[0, 1840], [0]⟩; let l (g : HalfId) : List Int := (if g = .a then x.dieA else x.dieB).take 4; let g : HalfId := .a; let i : Nat := 1; p.state ≠ 3 ∧ p.thermal = false ∧ i < (l g).length ∧ 1840 ≤ (l g).getD i 0 ∧ 1 ≤ (s.half g).hlth.hot.getD i 0 ∧ p.held = false) ∧
  (let s : State := (onS [0x006]).updYk (fun y => { y with now := 10000000000 }); let p := s.yoke.pwr; p.hotAt + 10 * oneSec ≤ s.yoke.now) ∧
  (let s : State := (onS [0x006]).updYk (fun y => { y with pwr := { y.pwr with railBad := [(2, 2)] } }); let p := s.yoke.pwr; let x : RailSample := ⟨800, 800, [1709, 3300, 1050, 500, 5000, 0]⟩; let i : Nat := 2; let mv : Nat := 1709; p.state ≠ 3 ∧ (x.coreA :: x.coreB :: x.rails.take 6)[i]? = some mv ∧ railIn i mv = false ∧ sget 0 p.railBad i = 2 ∧ i ∉ p.railOut) ∧
  (let s : State := (onS [0x006]).updYk (fun y => { y with pwr := { y.pwr with railOk := [(2, 99)], railOut := [2] } }); let p := s.yoke.pwr; let x : RailSample := ⟨800, 800, [1710, 3300, 1050, 500, 5000, 0]⟩; let i : Nat := 2; let mv : Nat := 1710; p.state ≠ 3 ∧ (x.coreA :: x.coreB :: x.rails.take 6)[i]? = some mv ∧ railIn i mv = true ∧ 99 ≤ sget 0 p.railOk i ∧ i ∈ p.railOut) ∧
  (let s : State := onS [0x006]; let h : HalfId := .a; let m := s.half h; let line := m.rdF rHlthScrub 0 21; s.quiet h = true ∧ line + 1 < 2097152) ∧
  (let s : State := onS [0x006]; let h : HalfId := .a; let r : Req := .ipp 0x1001; let v : Word := 1; s.admits h r rHlthClr v = true) ∧
  (let s : State := onS [0x006]; let h : HalfId := .a; s.quiet h = true) := by
  refine ⟨?_, ?_, ?_, ?_, ?_, ?_, ?_, ?_, ?_, ?_⟩
  · decide
  · decide
  · intro s h r v m p x l g; revert l; cases g <;> (intro l; decide +revert)
  · decide
  · decide
  · decide
  · decide
  · decide
  · decide
  · decide

/-- The premises of each clause of ModuleStarts can be met. -/
theorem witness_ModuleStarts :
  (let s : State := runS; let p := s.yoke.pwr; p.rstAt = none ∧ p.held = false ∧ p.state ≠ 3) ∧
  (let s : State := runS.updYk (fun y => { y with pwr := { y.pwr with rstAt := some 0 } }); let p := s.yoke.pwr; let at_ : Nat := 0; p.rstAt = some at_) ∧
  (let s : State := runS; let p := s.yoke.pwr; let may := p.due && !p.pfw && p.rstAt.isNone && !p.thermal && !s.storing; may = false) ∧
  (let s : State := State.reset; let p := s.yoke.pwr; let may := p.due && !p.pfw && p.rstAt.isNone && !p.thermal && !s.storing; may = true) := by
  refine ⟨?_, ?_, ?_, ?_⟩ <;> decide

end Sys2Proof.Tests
end

section
/-! PROOFS. R211: a sample instant that finds its loop's previous sample not DONE. The lemmas say what TILLER_SAMPLE then makes of the
half, word by word and field by field. SkippedSamples lets the number of a descriptor's word run past the 512 words that a descriptor
has, into the next descriptor, where LSTAT may lie; so it fails, and `SkipDue.skips` proves it for the words that a descriptor has. -/
namespace Sys2Proof.Machine

/-! Loops and descriptor words: what a write leaves to read. -/

@[simp] theorem Half.loop_setLoop_same (m : Half) (n : Nat) (x : Loop) : (m.setLoop n x).loop n = x := by
  simp [Half.loop, Half.setLoop]

theorem Half.loop_setLoop_other (m : Half) {n k : Nat} (x : Loop) (h : n ≠ k) : (m.setLoop n x).loop k = m.loop k :=
  sget_sset_other _ _ _ _ h

@[simp] theorem Half.dw_setLoop (m : Half) (n d k : Nat) (x : Loop) : (m.setLoop n x).dw d k = m.dw d k := rfl

/-- The region is one array of words (R205): a word is written wherever its place in the region is named. -/
theorem Half.dw_setDw (m : Half) (d k i n : Nat) (v : Word) :
    (m.setDw d k v).dw i n = if d * 512 + k = i * 512 + n then v else m.dw i n :=
  sget_sset (fun _ => 0) m.tlr.desc (d * 512 + k) (i * 512 + n) v

theorem Half.dw_putLstat (m : Half) (n i k : Nat) :
    (m.putLstat n).dw i k = if (m.loop n).desc * 512 + 24 = i * 512 + k then word (m.lstat n) else m.dw i k :=
  m.dw_setDw _ _ _ _ _

@[simp] theorem Half.loop_tlrSeen_same (m : Half) (n now : Nat) :
    (m.tlrSeen n now).loop n = { m.loop n with owed := none, seenMs := some (now / oneMs) } :=
  m.loop_setLoop_same n _

@[simp] theorem Half.tlrSeen_ptab (m : Half) (n now : Nat) : (m.tlrSeen n now).ptab = m.ptab := rfl
@[simp] theorem Half.tlrSeen_shf (m : Half) (n now : Nat) : (m.tlrSeen n now).shf = m.shf := rfl
@[simp] theorem Half.tlrSeen_drl (m : Half) (n now : Nat) : (m.tlrSeen n now).drl = m.drl := rfl
@[simp] theorem Half.tlrSeen_jobs (m : Half) (n now : Nat) : (m.tlrSeen n now).tlr.jobs = m.tlr.jobs := rfl

/-! The skip of an instant. -/

@[simp] theorem Half.tlrSkip_ptab (m : Half) (n now : Nat) : (m.tlrSkip n now).ptab = m.ptab := rfl
@[simp] theorem Half.tlrSkip_shf (m : Half) (n now : Nat) : (m.tlrSkip n now).shf = m.shf := rfl
@[simp] theorem Half.tlrSkip_drl (m : Half) (n now : Nat) : (m.tlrSkip n now).drl = m.drl := rfl
@[simp] theorem Half.tlrSkip_jobs (m : Half) (n now : Nat) : (m.tlrSkip n now).tlr.jobs = m.tlr.jobs := rfl

@[simp] theorem Half.loop_tlrSkip_same (m : Half) (n now : Nat) :
    (m.tlrSkip n now).loop n = { m.loop n with overrun := true } :=
  m.loop_setLoop_same n _

theorem Half.loop_tlrSkip_other (m : Half) {n k : Nat} (now : Nat) (h : n ≠ k) : (m.tlrSkip n now).loop k = m.loop k :=
  m.loop_setLoop_other _ h

/-- A skip writes LSTAT, word 24 of the loop's descriptor, and no other word of the region. -/
theorem Half.dw_tlrSkip (m : Half) (n now i k : Nat) :
    (m.tlrSkip n now).dw i k =
      if (m.loop n).desc * 512 + 24 = i * 512 + k then word ((m.setLoop n { m.loop n with overrun := true }).lstat n)
      else m.dw i k := by
  have h := (m.setLoop n { m.loop n with overrun := true }).dw_putLstat n i k
  rwa [Half.loop_setLoop_same, Half.dw_setLoop] at h

theorem Half.arisen_tlrSkip (m : Half) (n now : Nat) : ∃ late, (m.tlrSkip n now).arisen 0x0B02 n (now / oneMs % 2 ^ 32) late 0 :=
  ⟨_, List.mem_append_right _ (List.mem_singleton_self _)⟩

theorem Half.irq_tlrSkip (m : Half) (n now : Nat) : (m.tlrSkip n now).rdB (pgIrqRaw 0x040) 1 = true :=
  Half.rd_irq_same _ 0x040 1 (by decide)

/-! Parts of TILLER_SAMPLE that find nothing to do. -/

/-- R118: records that verify are read as they are. -/
theorem State.mendAll_of_recOk (s : State) (h : HalfId) (l : List Nat) (ok : ∀ p ∈ l, (s.half h).recOk p = true) :
    s.mendAll h l = s := by
  induction l with
  | nil => rfl
  | cons p l ih =>
    have hp : s.mend h p = s := by rw [State.mend, if_pos (ok p List.mem_cons_self)]
    rw [State.mendAll, hp]
    exact ih fun q hq => ok q (List.mem_cons_of_mem p hq)

/-- R139: no internal sheaf starts while the Tiller's slot is held and no Drill engine has one. -/
theorem Half.nextJob_none (m : Half) (drl : m.drl.jobs = []) (slot : (m.slot 8).state ≠ 0) : m.nextJob = none := by
  simp [Half.nextJob, slot, drl]

/-- R144: the sheaf engine rests with no commit requested and no sheaf to start. -/
theorem Half.pump_idle (m : Half) (y : View) (cq : m.shf.cq = []) (next : m.nextJob = none) : m.pump y = m := by
  have rest (n : Nat) : m.pumpN y (n + 1) = m := by simp [Half.pumpN, cq, next]
  exact rest _

/-- No loop is being disabled (R212). -/
def Half.noneLeaving (m : Half) : Prop := m.tlr.loops.all (fun e => !e.2.leaving) = true

theorem Half.noneLeaving_setLoop {m : Half} (h : m.noneLeaving) (n : Nat) (x : Loop) (hx : x.leaving = false) :
    (m.setLoop n x).noneLeaving := by
  simp only [Half.noneLeaving, List.all_eq_true, Bool.not_eq_true'] at h ⊢
  intro e he
  simp only [Half.setLoop, sset] at he
  split at he
  · exact h e (List.mem_of_mem_filter he)
  · rcases mem_sput _ _ _ _ he with rfl | he
    · exact hx
    · exact h e he

theorem Half.noneLeaving_tlrSeen {m : Half} (h : m.noneLeaving) (n now : Nat) (hn : (m.loop n).leaving = false) :
    (m.tlrSeen n now).noneLeaving :=
  Half.noneLeaving_setLoop h n _ hn

theorem Half.noneLeaving_tlrSkip {m : Half} (h : m.noneLeaving) (n now : Nat) (hn : (m.loop n).leaving = false) :
    (m.tlrSkip n now).noneLeaving :=
  Half.noneLeaving_setLoop h n _ hn

theorem Half.tlrStuck_of_noneLeaving {m : Half} (h : m.noneLeaving) : m.tlrStuck = [] := by
  simp only [Half.noneLeaving, List.all_eq_true, Bool.not_eq_true'] at h
  simp only [Half.tlrStuck, List.map_eq_nil_iff, List.filter_eq_nil_iff]
  intro e he
  simp [h e he]

@[simp] theorem Half.tlrPush_nil (m : Half) : m.tlrPush [] = m := by simp [Half.tlrPush]

/-! TILLER_SAMPLE where one loop is due and busy. -/

/-- The instant's whole batch is loop l, whose previous sample is not DONE; no record it reads needs mending, and no sheaf moves. -/
structure SkipDue (s : State) (h : HalfId) (l : Nat) : Prop where
  quiet   : s.quiet h = true
  cq      : (s.half h).shf.cq = []
  drlJobs : (s.half h).drl.jobs = []
  slot    : ((s.half h).slot 8).state ≠ 0
  page    : (s.half h).on 0x040 = true
  run     : (s.half h).rdB rTlrCtrl 0 = true
  batch   : (s.half h).tlrBatch ((s.half h).tai.toNat / oneMs) = [l]
  busy    : ((s.half h).loop l).busy = true
  owed    : ((s.half h).loop l).owed = none
  recs    : ∀ p ∈ (s.half h).tlrReads [l], (s.half h).recOk p = true
  staying : (s.half h).noneLeaving

/-- The half after the skip of loop l at an instant. -/
def Half.skipped (m : Half) (l now : Nat) : Half := (m.tlrSeen l now).tlrSkip l now

@[simp] theorem Half.skipped_ptab (m : Half) (l now : Nat) : (m.skipped l now).ptab = m.ptab := by simp [Half.skipped]
@[simp] theorem Half.skipped_shf (m : Half) (l now : Nat) : (m.skipped l now).shf = m.shf := by simp [Half.skipped]
@[simp] theorem Half.skipped_drl (m : Half) (l now : Nat) : (m.skipped l now).drl = m.drl := by simp [Half.skipped]
@[simp] theorem Half.skipped_jobs (m : Half) (l now : Nat) : (m.skipped l now).tlr.jobs = m.tlr.jobs := by simp [Half.skipped]
@[simp] theorem Half.skipped_slot (m : Half) (l now i : Nat) : (m.skipped l now).slot i = m.slot i := by simp [Half.slot]

theorem Half.arisen_skipped (m : Half) (l now : Nat) : ∃ late, (m.skipped l now).arisen 0x0B02 l (now / oneMs % 2 ^ 32) late 0 :=
  (m.tlrSeen l now).arisen_tlrSkip l now

theorem Half.irq_skipped (m : Half) (l now : Nat) : (m.skipped l now).rdB (pgIrqRaw 0x040) 1 = true :=
  (m.tlrSeen l now).irq_tlrSkip l now

@[simp] theorem Half.loop_skipped_same (m : Half) (l now : Nat) :
    (m.skipped l now).loop l = { m.loop l with overrun := true, owed := none, seenMs := some (now / oneMs) } := by
  simp [Half.skipped]

theorem Half.loop_skipped_other (m : Half) {l n : Nat} (now : Nat) (h : l ≠ n) : (m.skipped l now).loop n = m.loop n := by
  rw [Half.skipped, Half.loop_tlrSkip_other _ _ h, Half.tlrSeen, Half.loop_setLoop_other _ _ h]

/-- Only the place of LSTAT of the loop's descriptor changes in the descriptor region. -/
theorem Half.dw_skipped_other (m : Half) {l i k : Nat} (now : Nat) (h : (m.loop l).desc * 512 + 24 ≠ i * 512 + k) :
    (m.skipped l now).dw i k = m.dw i k := by
  rw [Half.skipped, Half.dw_tlrSkip, Half.loop_tlrSeen_same, if_neg h]
  rfl

theorem Half.noneLeaving_skipped {m : Half} (h : m.noneLeaving) (l now : Nat) (hl : (m.loop l).leaving = false) :
    (m.skipped l now).noneLeaving :=
  Half.noneLeaving_tlrSkip (Half.noneLeaving_tlrSeen h l now hl) l now (by rw [Half.loop_tlrSeen_same]; exact hl)

/-- The skipped instant is not made up: l falls due at it no more. -/
theorem Half.tlrDue_skipped_same (m : Half) (l now : Nat) : (m.skipped l now).tlrDue (now / oneMs) l = false := by
  simp [Half.tlrDue]

/-- The grid of l stands: it falls due at every other instant as before. -/
theorem Half.tlrDue_skipped_other (m : Half) {l now k : Nat} (owed : (m.loop l).owed = none) (hk : k ≠ now / oneMs)
    (seen : (m.loop l).seenMs ≠ some k) : (m.skipped l now).tlrDue k l = m.tlrDue k l := by
  have grid (w : Nat) (hw : w < 24) : (m.skipped l now).dw (m.loop l).desc w = m.dw (m.loop l).desc w :=
    m.dw_skipped_other now (by omega)
  simp [Half.tlrDue, grid 1, grid 2, owed, seen, Ne.symm hk]

theorem instant_div (ms : Nat) : ms * oneMs / oneMs = ms := Nat.mul_div_cancel ms (by decide)

section SkipDue
variable {s : State} {h : HalfId} {l : Nat}

/-- A loop of the batch is not being disabled. -/
theorem SkipDue.not_leaving (p : SkipDue s h l) : ((s.half h).loop l).leaving = false := by
  have mem : l ∈ (s.half h).tlrBatch ((s.half h).tai.toNat / oneMs) := by rw [p.batch]; exact List.mem_singleton_self l
  have due := (List.mem_filter.mp mem).2
  simp only [Half.tlrDue, Bool.and_eq_true, Bool.not_eq_true'] at due
  obtain ⟨⟨-, staying⟩, -⟩ := due
  exact staying

/-- The sample is the skip and nothing else. -/
theorem SkipDue.tlrSample_eq (p : SkipDue s h l) :
    (s.half h).tlrSample = (s.half h).skipped l ((s.half h).tai.toNat / oneMs * oneMs) := by
  obtain ⟨ms, hms⟩ : ∃ ms, (s.half h).tai.toNat / oneMs = ms := ⟨_, rfl⟩
  have due := p.batch
  rw [hms] at due ⊢
  have batch : (s.half h).tlrLoops (ms * oneMs) [l] = ((s.half h).skipped l (ms * oneMs), []) := by
    simp [Half.tlrLoops, p.busy, Half.tlrInstant, p.owed, Half.skipped]
  have stuck : ((s.half h).skipped l (ms * oneMs)).tlrStuck = [] :=
    Half.tlrStuck_of_noneLeaving (Half.noneLeaving_skipped p.staying l _ p.not_leaving)
  simp [Half.tlrSample, p.page, p.run, hms, due, batch, tlrGather, stuck]

/-- TILLER_SAMPLE answers the state whose half h has skipped the instant. -/
theorem SkipDue.exec_eq (p : SkipDue s h l) :
    exec (.tillerSample h) s = .next (s.set h ((s.half h).skipped l ((s.half h).tai.toNat / oneMs * oneMs))) := by
  obtain ⟨m', hm'⟩ : ∃ m', (s.half h).skipped l ((s.half h).tai.toNat / oneMs * oneMs) = m' := ⟨_, rfl⟩
  have shf : m'.shf = (s.half h).shf := by rw [← hm', Half.skipped_shf]
  have next : m'.nextJob = none := by
    rw [← hm']
    exact Half.nextJob_none _ (by rw [Half.skipped_drl, p.drlJobs]) (by rw [Half.skipped_slot]; exact p.slot)
  have sample : s.upd h (fun m => m.tlrSample.pump (s.view h)) = s.set h m' := by
    rw [State.upd_eq, p.tlrSample_eq, hm', Half.pump_idle _ _ (by rw [shf, p.cq]) next]
  have mended : s.mendAll h ((s.half h).tlrReads ((s.half h).tlrBatch ((s.half h).tai.toNat / oneMs))) = s := by
    rw [p.batch]; exact s.mendAll_of_recOk h _ p.recs
  have flushed : (s.set h m').flush h = s.set h m' :=
    State.flush_id _ h (by simpa using State.quiet_handover p.quiet)
      (by rw [State.set_half, shf, State.quiet_toYoke p.quiet])
  change execTillerSample h s = _
  simp only [execTillerSample, State.onHalf, State.quiet_runs p.quiet, if_true, mended, sample, flushed, hm']

/-- R211, R205: what SkippedSamples states of a skipped instant holds where n names one of the 512 words of a descriptor. -/
theorem SkipDue.skips (p : SkipDue s h l) :
    let m := s.half h
    let x := m.loop l
    let ms := m.tai.toNat / 1000000
    ∃ t, exec (.tillerSample h) s = .next t ∧ (t.half h).loop l = { x with overrun := true, owed := none, seenMs := some ms } ∧
      (∀ n, n ≠ l → (t.half h).loop n = m.loop n) ∧ (∀ i n, n < 512 → n ≠ 24 → (t.half h).dw i n = m.dw i n) ∧
      (t.half h).tlrDue ms l = false ∧ (∀ k, k ≠ ms → x.seenMs ≠ some k → (t.half h).tlrDue k l = m.tlrDue k l) ∧
      (t.half h).ptab = m.ptab ∧ (t.half h).tlr.jobs = m.tlr.jobs ∧
      (∃ late, (t.half h).arisen 0x0B02 l (ms % 2 ^ 32) late 0) ∧ (t.half h).rdB (pgIrqRaw 0x040) 1 = true := by
  obtain ⟨now, hnow⟩ : ∃ now, (s.half h).tai.toNat / oneMs * oneMs = now := ⟨_, rfl⟩
  have hms : (s.half h).tai.toNat / 1000000 = now / oneMs := by rw [← hnow, instant_div]; rfl
  have next := p.exec_eq
  rw [hnow] at next
  intro m x
  rw [hms]
  refine ⟨_, next, ?_⟩
  rw [State.set_half]
  exact ⟨m.loop_skipped_same l now, fun n hn => m.loop_skipped_other now hn.symm,
    fun i n hn h24 => m.dw_skipped_other now (by omega), m.tlrDue_skipped_same l now,
    fun k hk hs => m.tlrDue_skipped_other p.owed hk hs, m.skipped_ptab l now, m.skipped_jobs l now,
    m.arisen_skipped l now, m.irq_skipped l now⟩

end SkipDue

/-! The counterexample. -/

/-- Half A in charge with loop 0 in AUTO on descriptor 1 (PERIOD_MS 10, no input or output point), at 10 ms, while the sheaf of its
previous sample is COMMITTED in slot 8. -/
def busyLoopState : State :=
  let m := State.reset.a
  let y := State.reset.yoke
  { State.reset with
    a := { m with
      dir := sput m.dir 0x040 ⟨true, true, false, false, false⟩
      regs := sput (sput m.regs (pgCtrl 0x040) 1) rTlrCtrl 1
      shf := { m.shf with slots := [(8, { slotReset with state := 3, owner := 16 })] }
      tlr := { desc := [(513, 10), (515, 0xFFFFFFFF), (516, 0xFFFFFFFF), (517, 0xFFFFFFFF), (518, 0xFFFFFFFF), (519, 0xFFFFFFFF),
                 (520, 0xFFFFFFFF)]
               loops := [(0, { loopReset with st := 1, desc := 1, busy := true })]
               jobs := [⟨[], [], [0], none, 0⟩] }
      tai := 10000000 }
    yoke := { y with a := { y.a with role := .inCharge } } }

theorem busyLoopState_skipDue : SkipDue busyLoopState .a 0 where
  quiet := by decide
  cq := by decide
  drlJobs := by decide
  slot := by decide
  page := by decide
  run := by decide
  batch := by decide
  busy := by decide
  owed := by decide
  recs := by decide
  staying := by unfold Half.noneLeaving; decide

/-- Refutes O8: the statement keeps `dw i n` for every n but 24, without the bound n < 512 (R205), and `dw 0 536` is the same place of
the region as `dw 1 24`, LSTAT of descriptor 1, which takes OVERRUN at the skip (R211): 0 before, 0x104 after. With n < 512 every
clause holds (`SkipDue.skips`). -/
theorem not_skippedSamples : ¬ Obligations.SkippedSamples := by
  unfold Obligations.SkippedSamples
  intro claim
  have p := busyLoopState_skipDue
  obtain ⟨t, ht, -, -, words, -⟩ :=
    claim busyLoopState .a 0 p.quiet p.cq p.drlJobs p.slot p.page p.run p.batch p.busy p.owed p.recs p.staying
  rw [p.exec_eq] at ht
  cases ht
  have kept := words 0 536 (by decide)
  have before : (busyLoopState.half .a).dw 0 536 = 0 := by decide
  have after : ((busyLoopState.half .a).skipped 0 ((busyLoopState.half .a).tai.toNat / oneMs * oneMs)).dw 0 536 = 0x104 := by
    decide
  rw [State.set_half, before, after] at kept
  exact absurd kept (by decide)

end Sys2Proof.Machine
end

section
/-! PROOFS. R412: summer time. A command of the Yoke's pages leaves its half answered and the Yoke as its effect makes it; the calendar
holds any second of its range that it is set to; and a second boundary of an RTC that follows no leap and waits for no reload moves the
local time by one second and then by the pending hour. -/
namespace Sys2Proof.Machine

/-! The calendar: seconds written are seconds read (R408, R409). -/

/-- The year found starts no later than the day. -/
theorem yearDay_yearFrom_le (n y day : Nat) (h : yearDay y ≤ day) : yearDay (yearFrom n y day) ≤ day := by
  induction n generalizing y with
  | zero => exact h
  | succ n ih =>
    rw [yearFrom]
    split
    · exact h
    · exact ih (y + 1) (by omega)

/-- The month found starts no later than the day of the year. -/
theorem monthStart_monthFrom_le (n y m day : Nat) (h : monthStart y m ≤ day) : monthStart y (monthFrom n y m day) ≤ day := by
  induction n generalizing m with
  | zero => exact h
  | succ n ih =>
    rw [monthFrom]
    split
    · exact h
    · exact ih (m + 1) (by omega)

/-- The date found for a day from 2000-01-01 on is that day's. -/
theorem dateDay_of_day (day : Nat) (h : 10957 ≤ day) :
    let y := yearFrom 200 2000 day
    let m := monthFrom 12 y 1 (day - yearDay y)
    dateDay y m (day - yearDay y - monthStart y m + 1) = day := by
  intro y m
  have hy : yearDay y ≤ day := yearDay_yearFrom_le 200 2000 day h
  have hm : monthStart y m ≤ day - yearDay y := monthStart_monthFrom_le 12 y 1 _ (Nat.zero_le _)
  rw [dateDay]
  omega

/-- The RTC reads back a local second that it is set to, within its range. -/
theorem Rtc.localSec_setLocal (r : Rtc) (t : Nat) (lo : 946684800 ≤ t) (hi : t < yearDay 2200 * 86400) :
    (r.setLocal t).localSec = t := by
  have held : Nat.min (Nat.max (t : Int).toNat (10957 * 86400)) (yearDay 2200 * 86400 - 1) = t := by
    have floor : Nat.max t (10957 * 86400) = t := Nat.max_eq_left lo
    rw [Int.toNat_natCast, floor]
    exact Nat.min_eq_left (by omega)
  have date := dateDay_of_day (t / 86400) (by omega)
  simp only [Rtc.localSec, Rtc.setLocal, held, date]
  omega

@[simp] theorem Rtc.setLocal_utcNew (r : Rtc) (t : Int) : (r.setLocal t).utcNew = r.utcNew := rfl

/-- DST_PENDING is bit 8 of RTC.STAT (Table 17.8). -/
theorem Rtc.stat_testBit_eight (r : Rtc) : r.stat.testBit 8 = decide (r.pend ≠ 0) := by
  have user := r.user.toNat_lt
  have backup := r.backup.toNat_lt
  have swo := r.swo.toNat_lt
  have valid := r.valid.toNat_lt
  have vlow := r.vlow.toNat_lt
  have osf := r.osf.toNat_lt
  have apply_ := r.apply_.isSome.toNat_lt
  rw [Nat.testBit_eq_decide_div_mod_eq, Rtc.stat]
  cases decide (r.pend ≠ 0) with
  | false => exact decide_eq_false (by rw [Bool.toNat_false]; omega)
  | true => exact decide_eq_true (by rw [Bool.toNat_true]; omega)

/-! The RTC in the state, and a change in each half that runs. -/

@[simp] theorem State.updRtc_rtc (s : State) (f : Rtc → Rtc) : (s.updRtc f).yoke.rtc = f s.yoke.rtc := rfl
theorem State.updRtc_eq (s : State) (f : Rtc → Rtc) : s.updRtc f = s.updRtc (fun _ => f s.yoke.rtc) := rfl
@[simp] theorem State.updRtc_handover (s : State) (f : Rtc → Rtc) : (s.updRtc f).yoke.handover = s.yoke.handover := rfl
@[simp] theorem State.updRtc_half (s : State) (f : Rtc → Rtc) (g : HalfId) : (s.updRtc f).half g = s.half g := s.updYk_half _ g
@[simp] theorem State.updRtc_runs (s : State) (f : Rtc → Rtc) (g : HalfId) : (s.updRtc f).runs g = s.runs g := by cases g <;> rfl

theorem State.runs_upd (s : State) (h : HalfId) (f : Half → Half) (g : HalfId) : (s.upd h f).runs g = s.runs g :=
  State.runs_of_yoke s _ g s.yoke.regs (by simp)

theorem State.upd_other_half (s : State) (h : HalfId) (f : Half → Half) : (s.upd (other h) f).half h = s.half h := by
  have kept := s.upd_other (other h) f
  rwa [other_other] at kept

@[simp] theorem State.each_yoke (s : State) (f : Half → Half) : (s.each f).yoke = s.yoke := by
  unfold State.each
  dsimp only
  split <;> split <;> simp

@[simp] theorem State.each_runs (s : State) (f : Half → Half) (g : HalfId) : (s.each f).runs g = s.runs g :=
  State.runs_of_yoke s _ g s.yoke.regs (by simp)

/-- Each half that runs takes the change once, and no other half changes. -/
theorem State.each_half (s : State) (f : Half → Half) (g : HalfId) :
    (s.each f).half g = if s.runs g = true then f (s.half g) else s.half g := by
  have runs_b : (if s.runs .a = true then s.upd .a f else s).runs .b = s.runs .b := by
    split
    · exact s.runs_upd .a f .b
    · rfl
  simp only [State.each, runs_b]
  cases g with
  | a => split <;> split <;> rfl
  | b => split <;> split <;> rfl

@[simp] theorem Half.freeSteer_tai (m : Half) (t : Nat) : (m.freeSteer t).tai = m.tai := by unfold Half.freeSteer; split <;> rfl
@[simp] theorem Half.freeSteer_evr (m : Half) (t : Nat) : (m.freeSteer t).evr = m.evr := by unfold Half.freeSteer; split <;> rfl

theorem State.rtcT_one_of_rtc {s t : State} (e : t.yoke.rtc = s.yoke.rtc) : t.rtcT 1 = s.rtcT 1 := by simp [State.rtcT, e]
theorem State.rtcT_two_of_rtc {s t : State} (e : t.yoke.rtc = s.yoke.rtc) : t.rtcT 2 = s.rtcT 2 := by simp [State.rtcT, e]

/-! A command of the Yoke's pages that passes the checks: half h is answered, and the Yoke is as the effect leaves it. -/

theorem Half.settle_sealed_answered (m : Half) (r : Req) (k code : Nat) :
    (m.settle r k code).sealed.answered r = if code = 0 then ⟨0, 0⟩ else ⟨refusedStatus code, 0⟩ := by
  change (m.settle r k code).answered r = _
  unfold Half.settle
  split
  · exact Half.answered_answer _ r 0 0
  · exact Half.answered_answer _ r _ 0

/-- One half's turn, where the other half has changed with it and no handover waits. -/
theorem State.turn_pair (s : State) (h : HalfId) (f g : Half → Half) (n : s.yoke.handover = none) :
    (((s.upd h f).upd (other h) g).flush h).half h = (f (s.half h)).sealed ∧
      ∃ rg, (((s.upd h f).upd (other h) g).flush h).yoke = { s.yoke with regs := rg } := by
  have n' : ((s.upd h f).upd (other h) g).yoke.handover = none := by simpa using n
  have yoke := State.flush_yoke _ h n'
  rw [State.upd_yoke, State.upd_yoke] at yoke
  exact ⟨by rw [State.flush_half _ h n', State.upd_other_half, State.upd_half], _, yoke⟩

/-- The IPP engine's command (R19), taken from the half that decides: as State.regCmdS_parts has it for the other requesters. -/
theorem State.yokeCmd_ipp_parts (s s2 : State) (h : HalfId) (st : Stamp) (k : Nat) (v : Word) (eff : HalfId → State → State × Nat)
    (code : Nat) (p : s.primary = h) (a : s.admits h (.ipp st) k v = true)
    (e : eff h (s.upd h (·.ageStaged (reqNum (.ipp st)))) = (s2, code)) (n : s2.yoke.handover = none) :
    (s.yokeCmd h (.ipp st) k v eff).half h = ((s2.half h).settle (.ipp st) k code).sealed ∧
      ∃ rg, (s.yokeCmd h (.ipp st) k v eff).yoke = { s2.yoke with regs := rg } := by
  have run := State.quiet_runs (State.reaches_quiet (State.admits_reaches a))
  have decides : (if s.role .b = .inCharge ∧ s.runs .b then HalfId.b else if s.runs .a then .a else .b) = h := p
  have e' : eff h (s.set h ((s.half h).ageStaged (reqNum (.ipp st)))) = (s2, code) := e
  simp only [State.yokeCmd, decides, run, Bool.not_true, Bool.false_eq_true, if_false, Half.admit_eq _ _ _ _ (State.admits_half a), e']
  split
  · exact State.turn_pair s2 h _ _ n
  · exact ⟨(State.turn_frame s2 h _ n).1, (State.turn_frame s2 h _ n).2.2.1⟩

/-- A command of the Yoke's pages, whoever makes it. -/
theorem State.yokeCmd_parts (s s2 : State) (h : HalfId) (r : Req) (k : Nat) (v : Word) (eff : HalfId → State → State × Nat)
    (code : Nat) (o : s.once h r = true) (a : s.admits h r k v = true) (e : eff h (s.upd h (·.ageStaged (reqNum r))) = (s2, code))
    (n : s2.yoke.handover = none) :
    (s.yokeCmd h r k v eff).half h = ((s2.half h).settle r k code).sealed ∧
      ∃ rg, (s.yokeCmd h r k v eff).yoke = { s2.yoke with regs := rg } := by
  cases r with
  | ipp st => exact State.yokeCmd_ipp_parts s s2 h st k v eff code (by simpa [State.once, ownReq] using o) a e n
  | core c =>
    obtain ⟨half, -, yoke, -⟩ := State.regCmdS_parts s s2 h (.core c) k v eff code rfl a e n
    exact ⟨half, yoke⟩
  | mgt =>
    obtain ⟨half, -, yoke, -⟩ := State.regCmdS_parts s s2 h .mgt k v eff code rfl a e n
    exact ⟨half, yoke⟩

/-- What a command that only changes the RTC, or refuses, leaves of the RTC, and what it answers. -/
theorem State.yokeCmd_rtc (s : State) (h : HalfId) (r : Req) (k : Nat) (v : Word) (eff : HalfId → State → State × Nat)
    (f : Rtc → Rtc) (code : Nat) (o : s.once h r = true) (a : s.admits h r k v = true)
    (e : eff h (s.upd h (·.ageStaged (reqNum r))) = ((s.upd h (·.ageStaged (reqNum r))).updRtc f, code)) :
    (s.yokeCmd h r k v eff).yoke.rtc = f s.yoke.rtc ∧
      ((s.yokeCmd h r k v eff).half h).answered r = if code = 0 then ⟨0, 0⟩ else ⟨refusedStatus code, 0⟩ := by
  have n : s.yoke.handover = none := State.quiet_handover (State.reaches_quiet (State.admits_reaches a))
  obtain ⟨half, rg, yoke⟩ := State.yokeCmd_parts s _ h r k v eff code o a e (by simpa using n)
  exact ⟨by rw [yoke]; simp, by rw [half, Half.settle_sealed_answered]⟩

/-! DST_ON and DST_OFF. -/

theorem State.dstCmd_accepts (s : State) (on : Bool) (dst : s.yoke.rtc.dst ≠ on) (pend : s.yoke.rtc.pend = 0) :
    s.dstCmd on = (s.updRtc (fun x => { x with pend := if on then 1 else 2 }), 0) := by
  simp [State.dstCmd, dst, pend]

theorem State.dstCmd_refuses (s : State) (on : Bool) (h : s.yoke.rtc.dst = on ∨ s.yoke.rtc.pend ≠ 0) :
    s.dstCmd on = (s.updRtc id, 8) := if_pos h

theorem exec_dst (s : State) (h : HalfId) (r : Req) (on : Bool) :
    exec (if on then .dstOn h r else .dstOff h r) s =
      .next (s.yokeCmd h r rRtcCmd (if on then 2 else 3) (fun _ s => s.dstCmd on)) := by
  cases on <;> rfl

/-! The second boundary. -/

/-- The RTC one second on, at a boundary with no leap and none to take from a master (R408). -/
def Rtc.ticked (r : Rtc) (now : Nat) : Rtc := { r.setLocal ((r.localSec : Int) + 1) with secAt := (now : Int), utcNew := none }

/-- The RTC an hour on with DST set, or an hour back with DST clear (R412). -/
def Rtc.hourMoved (r : Rtc) (on : Bool) : Rtc :=
  { r.setLocal ((r.localSec : Int) + if on then 3600 else -3600) with dst := on, pend := 0 }

@[simp] theorem Rtc.ticked_dst (r : Rtc) (now : Nat) : (r.ticked now).dst = r.dst := rfl
@[simp] theorem Rtc.ticked_offset (r : Rtc) (now : Nat) : (r.ticked now).offset = r.offset := rfl
@[simp] theorem Rtc.hourMoved_dst (r : Rtc) (on : Bool) : (r.hourMoved on).dst = on := rfl
@[simp] theorem Rtc.hourMoved_pend (r : Rtc) (on : Bool) : (r.hourMoved on).pend = 0 := rfl
@[simp] theorem Rtc.hourMoved_offset (r : Rtc) (on : Bool) : (r.hourMoved on).offset = r.offset := rfl

theorem Rtc.localSec_ticked (r : Rtc) (now : Nat) (lo : 946684800 ≤ r.localSec + 1) (hi : r.localSec + 1 < yearDay 2200 * 86400) :
    (r.ticked now).localSec = r.localSec + 1 := r.localSec_setLocal (r.localSec + 1) lo hi

theorem Rtc.localSec_hourMoved (r : Rtc) (on : Bool) (lo : 946684800 + 3600 ≤ r.localSec)
    (hi : r.localSec + 3600 < yearDay 2200 * 86400) :
    (r.hourMoved on).localSec = if on then r.localSec + 3600 else r.localSec - 3600 := by
  have set : (r.hourMoved on).localSec = (r.setLocal ((r.localSec : Int) + if on then 3600 else -3600)).localSec := rfl
  have moved : ((r.localSec : Int) + if on then 3600 else -3600) = (if on then r.localSec + 3600 else r.localSec - 3600 : Nat) := by
    split <;> omega
  rw [set, moved, Rtc.localSec_setLocal]
  · split <;> omega
  · split <;> omega

/-- The hour and DST cancel in UTC (R412). -/
theorem Rtc.utc_hourMoved (r : Rtc) (on : Bool) (dst : r.dst ≠ on) (lo : 946684800 + 3600 ≤ r.localSec)
    (hi : r.localSec + 3600 < yearDay 2200 * 86400) : (r.hourMoved on).utc = r.utc := by
  rw [Rtc.utc, Rtc.utc, r.localSec_hourMoved on lo hi, Rtc.hourMoved_dst, Rtc.hourMoved_offset, Bool.eq_not.mpr dst]
  cases on with
  | true => simp only [Bool.not_true, Bool.false_eq_true, if_true, if_false]; omega
  | false => simp only [Bool.not_false, Bool.false_eq_true, if_true, if_false]; omega

theorem Rtc.utc_ticked (r : Rtc) (now : Nat) (lo : 946684800 ≤ r.localSec + 1) (hi : r.localSec + 1 < yearDay 2200 * 86400) :
    (r.ticked now).utc = r.utc + 1 := by
  rw [Rtc.utc, Rtc.utc, r.localSec_ticked now lo hi, Rtc.ticked_dst, Rtc.ticked_offset, Nat.cast_add_one]
  ring

theorem Rtc.not_atEnd (r : Rtc) (h : r.localSec + 1 < yearDay 2200 * 86400) : r.atEnd = false :=
  decide_eq_false (Nat.not_le.mpr h)

/-- A pending summer-time command moves the RTC by its hour and records event 0x0405 (R412). -/
theorem State.dstStep_pending (s : State) (on : Bool) (pend : s.yoke.rtc.pend = if on then 1 else 2) :
    s.dstStep = (s.updRtc (·.hourMoved on)).evAll 0x0405 on.toNat ((s.updRtc (·.hourMoved on)).rtcT 2).toNat
      ((s.updRtc (·.hourMoved on)).rtcT 1).toNat 0 := by
  have asked : s.yoke.rtc.pend ≠ 0 := by rw [pend]; split <;> decide
  have dir : decide (s.yoke.rtc.pend = 1) = on := by rw [pend]; cases on <;> rfl
  simp only [State.dstStep, if_neg asked, dir]
  rfl

/-! The parts of RTC_SECOND: the second with what R423 makes of it, the summer-time command, and what follows both. -/

/-- The RTC past the boundary's second: advanced, with an announced leap and a new TAI−UTC taken (R408, R423). -/
def Rtc.advanced (r : Rtc) (locked : Bool) (now : Nat) : Rtc :=
  let r2 := { (r.leapStep locked).1.setLocal ((r.localSec : Int) + r.advance locked) with secAt := (now : Int) }
  match r2.utcNew with
  | some u => if locked then { r2 with taiUtc := u, utcNew := none } else { r2 with utcNew := none }
  | none => r2

/-- The module past the boundary's second, with the leap recorded (event 0x040A). -/
def State.advanced (s : State) : State :=
  let leap := (s.yoke.rtc.leapStep s.locked).2
  let r := s.yoke.rtc.advanced s.locked s.yoke.now
  let s1 := s.updRtc (fun _ => r)
  if leap = 0 then s1 else (s1.evAll 0x040A (BitVec.ofInt 32 leap).toNat r.taiUtc 0 0).irqAll 0x0C8 3

/-- The rest of the boundary: a reload (R423), the end of the range (R409), and the steering in FREE (R421). -/
def State.boundaryRest (s : State) : State :=
  let s4 := if s.yoke.rtc.reload ∧ !s.yoke.rtc.atEnd then s.rtcFromBase else s
  let s5 := if s4.yoke.rtc.atEnd ∧ !s4.yoke.rtc.calEnd then
      ((s4.updRtc (fun r => { r with calEnd := true })).evAll 0x040B 0 0 0 0).irqAll 0x003 3
    else s4
  s5.each (fun m => m.freeSteer s5.rtcTai)

theorem State.rtcSecond_eq (s : State) : s.rtcSecond = s.advanced.dstStep.boundaryRest := rfl

/-- An RTC that stands before its last second, follows no LOCKED source and runs no extra second advances by one and takes no leap. -/
theorem Rtc.leapStep_free (r : Rtc) (held : r.held = false) (atEnd : r.atEnd = false) :
    r.advance false = 1 ∧ r.leapStep false = (r, 0) := by
  have one : r.advance false = 1 := by simp [Rtc.advance, atEnd]
  exact ⟨one, by simp [Rtc.leapStep, one, held]⟩

theorem Rtc.advanced_free (r : Rtc) (now : Nat) (held : r.held = false) (atEnd : r.atEnd = false) :
    r.advanced false now = r.ticked now := by
  obtain ⟨one, noLeap⟩ := r.leapStep_free held atEnd
  simp only [Rtc.advanced, Rtc.ticked, one, noLeap, Rtc.setLocal_utcNew, Nat.cast_one]
  cases new : r.utcNew with
  | none => simp only
  | some u => simp only [Bool.false_eq_true, if_false]

theorem State.advanced_free (s : State) (locked : s.locked = false) (held : s.yoke.rtc.held = false)
    (atEnd : s.yoke.rtc.atEnd = false) : s.advanced = s.updRtc (·.ticked s.yoke.now) := by
  obtain ⟨-, noLeap⟩ := s.yoke.rtc.leapStep_free held atEnd
  simp only [State.advanced, locked, noLeap, if_true, Rtc.advanced_free _ _ held atEnd, s.updRtc_eq (·.ticked s.yoke.now)]

theorem State.boundaryRest_running (s : State) (reload : s.yoke.rtc.reload = false) (atEnd : s.yoke.rtc.atEnd = false) :
    s.boundaryRest = s.each (fun m => m.freeSteer s.rtcTai) := by
  simp [State.boundaryRest, reload, atEnd]

/-! A boundary that finds a summer-time command pending. -/

/-- An unlocked module with a pending summer-time command, whose boundary takes no leap, no reload and no end of the range
(Tests.witness_SummerTime has one). -/
structure DstDue (s : State) (on : Bool) : Prop where
  pend   : s.yoke.rtc.pend = if on then 1 else 2
  dst    : s.yoke.rtc.dst ≠ on
  locked : s.locked = false
  held   : s.yoke.rtc.held = false
  reload : s.yoke.rtc.reload = false
  lo     : 946684800 + 3600 ≤ s.yoke.rtc.localSec
  hi     : s.yoke.rtc.localSec + 3602 < yearDay 2200 * 86400

section DstDue
variable {s : State} {on : Bool}

/-- The RTC that the boundary leaves. -/
def State.dstRtc (s : State) (on : Bool) : Rtc := (s.yoke.rtc.ticked s.yoke.now).hourMoved on

theorem DstDue.localSec_ticked (p : DstDue s on) : (s.yoke.rtc.ticked s.yoke.now).localSec = s.yoke.rtc.localSec + 1 := by
  have hi := p.hi
  have lo := p.lo
  exact Rtc.localSec_ticked _ _ (by omega) (by omega)

theorem DstDue.localSec (p : DstDue s on) :
    (s.dstRtc on).localSec = if on then s.yoke.rtc.localSec + 1 + 3600 else s.yoke.rtc.localSec + 1 - 3600 := by
  have hi := p.hi
  have lo := p.lo
  have ticked := p.localSec_ticked
  rw [State.dstRtc, Rtc.localSec_hourMoved _ on (by omega) (by omega), ticked]

theorem DstDue.utc (p : DstDue s on) : (s.dstRtc on).utc = s.yoke.rtc.utc + 1 := by
  have hi := p.hi
  have lo := p.lo
  have ticked := p.localSec_ticked
  rw [State.dstRtc, Rtc.utc_hourMoved (s.yoke.rtc.ticked s.yoke.now) on p.dst (by omega) (by omega),
    Rtc.utc_ticked _ _ (by omega) (by omega)]

theorem DstDue.tai (p : DstDue s on) : (s.dstRtc on).tai = s.yoke.rtc.tai + 1 := by
  have utc := p.utc
  have zone : (s.dstRtc on).taiUtc = s.yoke.rtc.taiUtc := rfl
  rw [Rtc.tai, Rtc.tai, utc, zone]
  ring

theorem DstDue.not_atEnd (p : DstDue s on) : (s.dstRtc on).atEnd = false := by
  have hi := p.hi
  refine Rtc.not_atEnd _ ?_
  rw [p.localSec]
  split <;> omega

/-- The module when the hour has moved and event 0x0405 is recorded, before the steering. -/
def State.dstMoved (s : State) (on : Bool) : State :=
  let s1 := s.updRtc (fun _ => s.dstRtc on)
  s1.evAll 0x0405 on.toNat (s1.rtcT 2).toNat (s1.rtcT 1).toNat 0

@[simp] theorem State.dstMoved_rtc (s : State) (on : Bool) : (s.dstMoved on).yoke.rtc = s.dstRtc on := by
  simp [State.dstMoved, State.evAll]

theorem DstDue.rtcSecond_eq (p : DstDue s on) :
    s.rtcSecond = (s.dstMoved on).each (fun m => m.freeSteer (s.dstMoved on).rtcTai) := by
  have atEnd : s.yoke.rtc.atEnd = false := Rtc.not_atEnd _ (by have hi := p.hi; omega)
  have moved : (s.updRtc (·.ticked s.yoke.now)).dstStep = s.dstMoved on := State.dstStep_pending _ on p.pend
  rw [State.rtcSecond_eq, s.advanced_free p.locked p.held atEnd, moved]
  exact State.boundaryRest_running _ (by rw [State.dstMoved_rtc]; exact p.reload) (by rw [State.dstMoved_rtc]; exact p.not_atEnd)

theorem DstDue.rtcSecond_rtc (p : DstDue s on) : s.rtcSecond.yoke.rtc = s.dstRtc on := by
  rw [p.rtcSecond_eq, State.each_yoke, State.dstMoved_rtc]

/-- A half that runs keeps its time base, and records event 0x0405 with the new local date and time. -/
theorem DstDue.rtcSecond_half (p : DstDue s on) (g : HalfId) (run : s.runs g = true) :
    (s.rtcSecond.half g).tai = (s.half g).tai ∧
      ⟨0x0405, on.toNat, (s.rtcSecond.rtcT 2).toNat, (s.rtcSecond.rtcT 1).toNat, 0, (s.half g).tai⟩ ∈
        (s.rtcSecond.half g).evr.arising := by
  obtain ⟨s1, hs1⟩ : ∃ s1, s.updRtc (fun _ => s.dstRtc on) = s1 := ⟨_, rfl⟩
  have rtc : s.rtcSecond.yoke.rtc = s1.yoke.rtc := by rw [p.rtcSecond_rtc, ← hs1]; rfl
  have run1 : s1.runs g = true := by rw [← hs1, State.updRtc_runs]; exact run
  have half1 : s1.half g = s.half g := by rw [← hs1, State.updRtc_half]
  have moved : (s.dstMoved on).half g = (s.half g).ev 0x0405 on.toNat (s1.rtcT 2).toNat (s1.rtcT 1).toNat 0 := by
    rw [State.dstMoved, hs1, State.evAll, State.each_half, if_pos run1, half1]
  have run2 : (s.dstMoved on).runs g = true := by
    rw [State.dstMoved, hs1, State.evAll, State.each_runs]; exact run1
  rw [State.rtcT_one_of_rtc rtc, State.rtcT_two_of_rtc rtc, p.rtcSecond_eq, State.each_half, if_pos run2, moved]
  exact ⟨by rw [Half.freeSteer_tai, Half.ev_tai],
    by rw [Half.freeSteer_evr, Half.ev_arising]; exact List.mem_append_right _ (List.mem_singleton_self _)⟩

end DstDue

theorem dateDay_2200 : dateDay 2200 1 1 = yearDay 2200 := by decide

/-- Settles O47. The command's clauses are `State.dstCmd_accepts` and `State.dstCmd_refuses` under `State.yokeCmd_rtc`; the boundary is
`DstDue.rtcSecond_eq`, where UTC and TAI move by the second alone since DST and the hour cancel (`Rtc.utc_hourMoved`). -/
theorem summerTime : Obligations.SummerTime := by
  unfold Obligations.SummerTime
  intro s h r x cmd
  refine ⟨fun on adm once => ⟨fun dst pend => ?_, fun refused => ?_⟩, fun on pend dst locked held reload lo hi => ?_⟩
  · have accepts := State.dstCmd_accepts (s.upd h (·.ageStaged (reqNum r))) on (by simpa using dst) (by simpa using pend)
    obtain ⟨rtc, answer⟩ := s.yokeCmd_rtc h r rRtcCmd _ (fun _ s => s.dstCmd on) _ 0 once adm accepts
    refine ⟨_, exec_dst s h r on, rtc, ?_, answer⟩
    rw [rtc, Rtc.stat_testBit_eight]
    cases on <;> rfl
  · have refuses := State.dstCmd_refuses (s.upd h (·.ageStaged (reqNum r))) on (by simpa using refused)
    obtain ⟨rtc, answer⟩ := s.yokeCmd_rtc h r rRtcCmd _ (fun _ s => s.dstCmd on) _ 8 once adm refuses
    exact ⟨_, exec_dst s h r on, rtc, answer⟩
  · have p : DstDue s on := ⟨pend, dst, locked, held, reload, lo, dateDay_2200 ▸ hi⟩
    have rtc := p.rtcSecond_rtc
    refine ⟨s.rtcSecond, rfl, ?_, ?_, ?_, ?_, ?_, p.rtcSecond_half⟩
    · rw [rtc, p.localSec]
    · rw [rtc, State.dstRtc, Rtc.hourMoved_dst]
    · rw [rtc, State.dstRtc, Rtc.hourMoved_pend]
    · rw [rtc, p.utc]
    · rw [rtc, p.tai]

end Sys2Proof.Machine
end

section
/-! PROOFS. R457: PFW in Dormant. Both halves are off there (R469), so what reaches each half that runs reaches none: the Yoke keeps the
record of PFW in its tail (R511), and a wake changes the power sequencer alone. -/
namespace Sys2Proof.Machine

/-! Dormant: no half runs. -/

theorem State.runs_dormant {s : State} (dormant : s.yoke.pwr.state = 3) (h : HalfId) : s.runs h = false := by
  simp [State.runs, dormant]

/-- A change in each half that runs changes nothing in Dormant. -/
theorem State.each_dormant {s : State} (dormant : s.yoke.pwr.state = 3) (f : Half → Half) : s.each f = s := by
  simp [State.each, State.runs_dormant dormant]

theorem State.irqAll_dormant {s : State} (dormant : s.yoke.pwr.state = 3) (page i : Nat) : s.irqAll page i = s :=
  State.each_dormant dormant _

theorem State.updPwr_updPwr (s : State) (f g : PwrSt → PwrSt) : (s.updPwr f).updPwr g = s.updPwr (fun p => g (f p)) := rfl

/-! The Yoke's event tail (R511). -/

/-- The tail holds 8 records; a further event is counted only. -/
theorem State.keepRec_eq (s : State) (e : Event) :
    s.keepRec e = { s with yoke := { s.yoke with
      recs := if s.yoke.recs.length < 8 then s.yoke.recs ++ [e] else s.yoke.recs
      recsLost := if s.yoke.recs.length < 8 then s.yoke.recsLost else s.yoke.recsLost + 1 } } := by
  by_cases room : s.yoke.recs.length < 8 <;> simp [State.keepRec, State.updYk, room]

theorem State.pfwAssert_dormant {s : State} (dormant : s.yoke.pwr.state = 3) (pfw : s.yoke.pwr.pfw = false) (va vb : Nat) :
    s.pfwAssert va vb =
      (s.updPwr (fun p => { p with pfw := true, holdup := true })).keepRec ⟨0x0304, va, vb, 3, 0, BitVec.ofNat 64 s.rtcTai⟩ := by
  simp [State.pfwAssert, dormant, pfw]

/-! The wake with the reason PFW_RECOVERY (6 in Table 19.7), which PWR.WAKE_EN does not mask. -/

/-- A wake in Dormant latches its reason with the RTC's time, as no half has a time base, and reaches no half. -/
theorem State.wakeLatch_dormant {s : State} (dormant : s.yoke.pwr.state = 3) (reason : Nat) :
    s.wakeLatch reason =
      s.updPwr (fun p => { p with wake := word (2 ^ 31 + reason), wakeT := BitVec.ofNat 64 s.rtcTai }) := by
  rw [State.wakeLatch, if_pos dormant]
  exact State.irqAll_dormant (by simpa using dormant) 0x002 2

theorem State.wakeUp_recovery (s : State) (lost : List LostBank) : s.wakeUp 6 lost = s.wakeNow 6 lost := by
  simp [State.wakeUp, State.wakeOn]

/-- A start that is already to come is the wake. -/
theorem State.wakeUp_recovery_due {s : State} (dormant : s.yoke.pwr.state = 3) (due : s.yoke.pwr.due = true) :
    s.wakeUp 6 [] = s := by
  simp [State.wakeUp_recovery, State.wakeNow, dormant, due]

theorem State.wakeUp_recovery_dormant {s : State} (dormant : s.yoke.pwr.state = 3) (due : s.yoke.pwr.due = false) :
    s.wakeUp 6 [] = s.updPwr (fun p => { p with
      wake := 0x80000006, wakeT := BitVec.ofNat 64 s.rtcTai, held := true, due := true, causes := 0, entryAt := s.yoke.now }) := by
  have wakes : s.wakeNow 6 [] =
      (s.wakeLatch 6).updPwr (fun p => { p with held := true, due := true, causes := 0, entryAt := s.yoke.now }) := by
    simp [State.wakeNow, dormant, due]
  rw [State.wakeUp_recovery, wakes, State.wakeLatch_dormant dormant, State.updPwr_updPwr]
  rfl

theorem State.pfwRelease_dormant {s : State} (dormant : s.yoke.pwr.state = 3) (pfw : s.yoke.pwr.pfw = true) :
    s.pfwRelease = (s.updPwr (fun p => { p with pfw := false, holdup := false })).wakeUp 6 [] := by
  simp [State.pfwRelease, dormant, pfw]

/-- Settles O51. The assertion is `State.pfwAssert_dormant` with the tail's `State.keepRec_eq`; the release is
`State.pfwRelease_dormant`, a wake (`State.wakeUp_recovery_dormant`) or, with a start to come, none (`State.wakeUp_recovery_due`). -/
theorem dormantPowerFail : Obligations.DormantPowerFail := by
  unfold Obligations.DormantPowerFail
  intro s va vb p k dormant
  refine ⟨fun pfw => ?_, fun pfw => ⟨fun due => ?_, fun due => ?_⟩⟩
  · refine ⟨s.pfwAssert va vb, rfl, ?_⟩
    rw [State.pfwAssert_dormant dormant pfw, State.keepRec_eq]
    rfl
  · refine ⟨s.pfwRelease, rfl, ?_⟩
    rw [State.pfwRelease_dormant dormant pfw, State.wakeUp_recovery_dormant (by simpa using dormant) (by simpa using due)]
    exact ⟨rfl, rfl, rfl, rfl, rfl⟩
  · refine ⟨s.pfwRelease, rfl, ?_⟩
    rw [State.pfwRelease_dormant dormant pfw, State.wakeUp_recovery_due (by simpa using dormant) (by simpa using due)]
    rfl

end Sys2Proof.Machine
end
